-- ==== Sys2Proof/Word.lean ====
section
/-!
DEFINITION. The word types of the L9 and the canonical sparse store that every bank of the machine is held in.
-/
namespace Sys2Proof

/-- A register is 32 bits wide (R9). -/
abbrev Word := BitVec 32
abbrev Byte := BitVec 8
abbrev Quad := BitVec 64
/-- A global address has 56 bits (R89). -/
abbrev GAddr := BitVec 56

/-- A sparse map from indexes to values: indexes strictly rising, no entry equal to the value `d` that an
unlisted index reads as. -/
abbrev Store (α : Type) := List (Nat × α)

namespace Store

/-- The value at index `k`; `d` where nothing is listed. -/
def get {α : Type} (d : α) : Store α → Nat → α
  | [], _ => d
  | (i, v) :: m, k => if k = i then v else get d m k

/-- Put an entry in, or take it out when the value is the default. -/
def put {α : Type} [DecidableEq α] (d : α) (k : Nat) (v : α) (m : Store α) : Store α :=
  if v = d then m else (k, v) :: m

/-- Take out every entry of index `k`. -/
def erase {α : Type} (m : Store α) (k : Nat) : Store α := m.filter fun x => x.1 != k

/-- Write `v` at index `k`, keeping the canonical form. -/
def set {α : Type} [DecidableEq α] (d : α) : Store α → Nat → α → Store α
  | [], k, v => put d k v []
  | (i, w) :: m, k, v =>
    if k = i then put d k v (erase m k)
    else if k < i then put d k v ((i, w) :: erase m k)
    else (i, w) :: set d m k v

/-- Indexes from `lo` on, strictly rising, and no default listed. -/
def wfFrom {α : Type} [DecidableEq α] (d : α) : Nat → Store α → Bool
  | _, [] => true
  | lo, (i, v) :: m => decide (lo ≤ i) && decide (v ≠ d) && wfFrom d (i + 1) m

/-- The canonical form. -/
def wf {α : Type} [DecidableEq α] (d : α) (m : Store α) : Bool := wfFrom d 0 m

end Store

/-- The unsigned field `[hi:lo]` of a word of any width, as a number. -/
def fld {w : Nat} (x : BitVec w) (hi lo : Nat) : Nat := (x.toNat / 2 ^ lo) % 2 ^ (hi + 1 - lo)

/-- Bit `i` of a word. -/
def bit {w : Nat} (x : BitVec w) (i : Nat) : Bool := x.getLsbD i

/-- `n` as a two's complement number of `w` bits. -/
def signedOf (w n : Nat) : Int := if n < 2 ^ (w - 1) then (n : Int) else (n : Int) - 2 ^ w

/-- Replace field `[hi:lo]` of `x` by `v`. -/
def setFld {w : Nat} (x : BitVec w) (hi lo v : Nat) : BitVec w :=
  let m := BitVec.ofNat w ((2 ^ (hi + 1 - lo) - 1) * 2 ^ lo)
  (x &&& ~~~ m) ||| (BitVec.ofNat w ((v % 2 ^ (hi + 1 - lo)) * 2 ^ lo))

/-- The number a list of bytes spells, least significant first. -/
def leNat : List Byte → Nat
  | [] => 0
  | b :: bs => b.toNat + 256 * leNat bs

/-- The `n` bytes of a number, least significant first. -/
def natLe : Nat → Nat → List Byte
  | 0, _ => []
  | n + 1, v => BitVec.ofNat 8 (v % 256) :: natLe n (v / 256)

/-- ⌈a / b⌉. -/
def cdiv (a b : Nat) : Nat := (a + b - 1) / b

/-- `a` rounded up to a multiple of `b`. -/
def roundUp (a b : Nat) : Nat := cdiv a b * b

/-- A 32-bit saturating sum (R80, R81). -/
def satAdd32 (a b : Nat) : Nat := min (a + b) 0xFFFFFFFF

end Sys2Proof
end

