-- ==== Sys2Proof/Types.lean ====
section
/-!
DEFINITION. Closed lists of names and small records that commands carry and that the state holds.
-/
namespace Sys2Proof

/-- Who makes a register access (R9, R22, R97). -/
inductive Requester where
  | host
  | ctl (k : Fin 8)
  /-- the management controller, for an MCTP request -/
  | mgc
  /-- a control core of another device, by REG_RD / REG_WR -/
  | remote
  deriving DecidableEq, Repr

/-- The three order numbers (R1). -/
inductive Variant where
  | l9TA | l9TB | l9HTA
  deriving DecidableEq, Repr

/-- The fault codes of R144. -/
inductive FaultCode where
  | badOpcode | badFormat | accConflict | tensorBounds | poisonInput | streamRearmBusy
  | sideMemTag | ovfFault | contextViolation | hurdleTimeout | badDescriptor | linkUnreachable
  deriving DecidableEq, Repr

/-- The 8-bit code of R144. -/
def FaultCode.code : FaultCode → Nat
  | .badOpcode => 1 | .badFormat => 2 | .accConflict => 3 | .tensorBounds => 4 | .poisonInput => 5
  | .streamRearmBusy => 6 | .sideMemTag => 7 | .ovfFault => 8 | .contextViolation => 9
  | .hurdleTimeout => 10 | .badDescriptor => 11 | .linkUnreachable => 12

/-- The order of precedence of R143, first to last. -/
def FaultCode.rank : FaultCode → Nat
  | .badOpcode => 1 | .badFormat => 2 | .badDescriptor => 3 | .contextViolation => 4
  | .tensorBounds => 5 | .accConflict => 6 | .streamRearmBusy => 7 | .sideMemTag => 8
  | .linkUnreachable => 9 | .poisonInput => 10 | .hurdleTimeout => 11 | .ovfFault => 12

/-- The fault of a code of R144. -/
def FaultCode.ofCode : Nat → Option FaultCode
  | 1 => some .badOpcode | 2 => some .badFormat | 3 => some .accConflict | 4 => some .tensorBounds
  | 5 => some .poisonInput | 6 => some .streamRearmBusy | 7 => some .sideMemTag | 8 => some .ovfFault
  | 9 => some .contextViolation | 10 => some .hurdleTimeout | 11 => some .badDescriptor
  | 12 => some .linkUnreachable | _ => none

/-- A packet header's fields and data bytes (R397, R398); `hcrcOk` says whether the receiver's HCRC check passed. `hbr`
marks a request that an anchor's HBR makes for its host, which its target tells from others (R22, R420, log 43). -/
structure Packet where
  hcrcOk : Bool
  hbr : Bool
  crdl : Bool
  crcnt : BitVec 5
  crvc : BitVec 2
  epoch : BitVec 8
  ctx : BitVec 3
  type : BitVec 5
  vc : BitVec 2
  dl : Bool
  dst : BitVec 11
  src : BitVec 11
  len : BitVec 6
  tag : BitVec 12
  hops : BitVec 4
  addr : BitVec 41
  data : List Byte
  deriving DecidableEq, Repr

/-- A baton (R322). -/
structure Baton where
  type : BitVec 8
  epoch : BitVec 8
  ctx : BitVec 3
  src : BitVec 11
  dst : BitVec 11
  seq : BitVec 16
  lap : Word
  arg : Word
  pay : BitVec 384
  deriving DecidableEq, Repr

/-- What a frame's flits carry (R395). -/
inductive FrameType where
  | data | idle | linkctl | reserved
  deriving DecidableEq, Repr

/-- One flit of a frame: the packets that end in it, and whether both codewords decoded. -/
structure Flit where
  ok : Bool
  pkts : List Packet
  deriving DecidableEq, Repr

/-- A frame of two codewords and five flits (R394, R395). -/
structure Frame where
  fseq : BitVec 12
  ftype : FrameType
  lcnt0 : BitVec 4
  lcnt1 : BitVec 4
  ack : BitVec 12
  nack : Bool
  /-- symbols the FEC corrected, per lane -/
  corrected : List Nat
  /-- codewords the FEC could not correct -/
  uncorr : Nat
  flits : List Flit
  deriving DecidableEq, Repr

/-- A link-control message: the exchange of R406 step 4 or the lane drop of R408. -/
inductive LinkMsg where
  | exchange (id : BitVec 11) (port : BitVec 4) (lanes : BitVec 4) (cfg : Word) (relayPos : BitVec 12)
  | laneDrop (lane : Fin 4)
  deriving DecidableEq, Repr

/-- One corrupted symbol of a sector as the packages return it: codeword, package and byte there (R250). -/
structure SymErr where
  codeword : Fin 2
  pkg : Fin 9
  sym : Fin 16
  deriving DecidableEq, Repr

/-- What the packages return wrong to one access (R250-R255): corrupted symbols of the first sector it moves, the
packages whose mode-register probe fails, an uncorrectable map word, and a block stream that does not decode. -/
structure SectorFault where
  errs : List SymErr
  probe : BitVec 9
  mapWord : Bool
  stream : Bool
  deriving DecidableEq, Repr

/-- The traffic classes of R239, R266. -/
inductive TierClass where
  | read | write | remote | background
  deriving DecidableEq, Repr

/-- What the MDE's header parser finds in a sample (R376, checks 1, 2 and 3 rest on the codec standards of R369):
`supported` says that the profile is one of R369, and `randomAccess` that the sample begins with a random-access
point. -/
structure MediaHeader where
  sourceOk : Bool
  headerFound : Bool
  supported : Bool
  randomAccess : Bool
  width : Nat
  height : Nat
  depth : Nat
  /-- 0 no chroma, 1 4:2:0, 2 4:2:2, 3 4:4:4 -/
  chroma : Fin 4
  deriving DecidableEq, Repr

/-- The outcome of a host read (R95). -/
inductive HostStatus where
  | ok | unsupported | aborted | poisoned
  deriving DecidableEq, Repr

/-- A sensor's reading in 1/16 °C, with its self-test (R464, R465). -/
structure SensorReading where
  valid : Bool
  reading : BitVec 16
  deriving DecidableEq, Repr

/-- What the anchor finds about one device in discovery (R522 step 6). -/
structure DeviceReport where
  id : BitVec 11
  reachedBy : Bool
  interGroup : Bool
  deriving DecidableEq, Repr

end Sys2Proof
end

