-- ==== Sys2Proof/Syntax.lean ====
section
/-!
DEFINITION. The commands: one constructor for each row of the table, with the operands that the state does not fix.
-/
namespace Sys2Proof

/-- The commands of the L9. An engine's own step carries which instance takes it, and what the outside supplies. -/
inductive Instr where
  /-- R10: A write to a register that has no row of its own sets its RW, W1C and W1S fields as their access types allow. -/
  | registerWrite (r : Requester) (a : BitVec 26) (width : Nat) (v : Quad)
  /-- R10: A read of an RC field returns its value and then clears the field to 0. -/
  | readClear (r : Requester) (a : BitVec 26) (width : Nat)
  /-- R22: A read of DEV_TIME_LO returns the low word and latches the high word for the same requester. -/
  | devTimeLoRead (r : Requester)
  /-- R467: A read of PWC_ENERGY_LO returns the low word and latches the high word for the same requester. -/
  | pwcEnergyLoRead (r : Requester)
  /-- R525: A read of DEV_TCAP_LO returns the low word and latches the high word for the same requester. -/
  | devTcapLoRead (r : Requester)
  /-- R530: Setting PAGE_LOCK.LOCK makes every RWL field of the page read-only until a module reset. -/
  | pageLock (r : Requester) (p : Fin 1024) (v : Word)
  /-- R529: SOFT_RESET returns the block's registers to their reset values while the unit is disabled and idle. -/
  | softReset (r : Requester) (p : Fin 1024) (v : Word)
  /-- R462: A write of PAGE_CTRL.ENABLE starts a power-up or a shut-down of the unit, or sets or clears PENDING_ON. -/
  | pageEnableWrite (r : Requester) (p : Fin 1024) (v : Word)
  /-- R462: Once its work in flight is complete, the island powers down to OFF and BUSY clears. -/
  | shutdownComplete (p : Fin 1024)
  /-- R462: A completed power-up sets ENABLED, clears PENDING_ON and raises the power-up event. -/
  | powerUpComplete (p : Fin 1024)
  /-- R461: An island that has been idle for PWC_FROST_IDLE enters RETENTION. -/
  | retentionEntry (p : Fin 1024)
  /-- R461: An access, signal, packet or event addressed to an island in RETENTION thaws it and is then served. -/
  | islandThaw (p : Fin 1024)
  /-- R132: NOP issues and does nothing. -/
  | nop (site : Fin 136)
  /-- R134: HALT issues after every earlier completion, writes HALT_CODE, enters HALTED and raises list-done. -/
  | halt (site : Fin 136)
  /-- R133: LOOP pushes a loop-stack entry and runs its body ITER times. -/
  | loop (site : Fin 136)
  /-- R132: WAIT holds issue on its counter and, with FENCE, until every earlier descriptor has completed. -/
  | wait (site : Fin 136)
  /-- R135: SIGNAL sends an ADD to a counter of its own core or of another core of the same context. -/
  | signal (site : Fin 136)
  /-- R135: An arriving signal adds its value to the target counter. -/
  | signalDelivery (n : Nat)
  /-- R136: HURDLE records the core's arrival in the current generation of a hurdle. -/
  | hurdle (site : Fin 136)
  /-- R136: When every participant has arrived, the hurdle releases its local participants and opens the next generation. -/
  | hurdleOpen (h : Fin 64)
  /-- R136: A hurdle or baton wait that is not released within its limit faults with HURDLE_TIMEOUT. -/
  | hurdleTimeout (site : Fin 136) (serial : Nat)
  /-- R150: EVENT copies its CODE and raises user event A or B of the site. -/
  | event (site : Fin 136)
  /-- R132: HIST_CFG clears a histogram slot or loads its HIST_BASE. -/
  | histCfg (site : Fin 136)
  /-- R137: HIST_STORE writes a slot image or merges it into an image, and may then clear the slot. -/
  | histStore (site : Fin 136)
  /-- R328: BATON_SEND hands a USER, bucket-local or LOSS baton to its SCH. -/
  | batonSend (site : Fin 136)
  /-- R328: BATON_WAIT completes once its channel count reaches WVAL. -/
  | batonWait (site : Fin 136)
  /-- R158: MM accumulates X·W over a K range into a 64 × 64 accumulator bank. -/
  | mm (site : Fin 136)
  /-- R160: MM_DW accumulates a weight-gradient product into a bank under a row or tile mask. -/
  | mmDw (site : Fin 136)
  /-- R170: ACC_DRAIN closes the open span and writes the bank, scaled and fused, rounded once to the destination. -/
  | accDrain (site : Fin 136)
  /-- R168: ACC_SPILL closes the span, writes the bank to a spill buffer and empties the bank. -/
  | accSpill (site : Fin 136)
  /-- R167: ACC_RESUME loads a bank from a spill buffer, with a new open span. -/
  | accResume (site : Fin 136)
  /-- R167: ACC_CLEAR makes a bank EMPTY. -/
  | accClear (site : Fin 136)
  /-- R189: V_COPY converts each source element to the destination format. -/
  | vCopy (site : Fin 136)
  /-- R189: V_ADD writes a + b, rounded once. -/
  | vAdd (site : Fin 136)
  /-- R189: V_SUB writes a − b, rounded once. -/
  | vSub (site : Fin 136)
  /-- R189: V_MUL writes a · b, rounded once. -/
  | vMul (site : Fin 136)
  /-- R189: V_FMA writes a · b + c with one rounding. -/
  | vFma (site : Fin 136)
  /-- R189: V_MAX writes max(a, b). -/
  | vMax (site : Fin 136)
  /-- R189: V_MIN writes min(a, b). -/
  | vMin (site : Fin 136)
  /-- R189: V_NEG writes −a. -/
  | vNeg (site : Fin 136)
  /-- R189: V_ABS writes |a|. -/
  | vAbs (site : Fin 136)
  /-- R189: V_CMP writes a comparison result bit per element into a mask bitmap. -/
  | vCmp (site : Fin 136)
  /-- R189: V_SELECT writes a where the mask bit is 1 and b elsewhere. -/
  | vSelect (site : Fin 136)
  /-- R190: V_FUNC applies a function unit to each element, or divides a by b. -/
  | vFunc (site : Fin 136)
  /-- R191: V_REDUCE reduces rows, columns or the whole region to one result each. -/
  | vReduce (site : Fin 136)
  /-- R193: V_PSUM adds split-K partials in ascending matrix index. -/
  | vPsum (site : Fin 136)
  /-- R194: V_PERM permutes lanes within each vector by an INT8 index tensor. -/
  | vPerm (site : Fin 136)
  /-- R195: V_COMPRESS packs the active elements of each row and writes their counts. -/
  | vCompress (site : Fin 136)
  /-- R196: V_EXPAND unpacks packed elements into the active positions of each row. -/
  | vExpand (site : Fin 136)
  /-- R197: V_RAND_U writes a uniform draw from the stride generator. -/
  | vRandU (site : Fin 136)
  /-- R197: V_RAND_N writes a normal draw from the stride generator. -/
  | vRandN (site : Fin 136)
  /-- R197: V_DROPOUT keeps and scales or drops each element by a stride-generator draw. -/
  | vDropout (site : Fin 136)
  /-- R197: V_RAND_BITS writes 32 raw bits of the stride generator output. -/
  | vRandBits (site : Fin 136)
  /-- R208: ROW_SOFTMAX writes softmax rows and stores max and sum statistics. -/
  | rowSoftmax (site : Fin 136)
  /-- R209: ROW_SOFTMAX_BWD recomputes y from X and the stored statistics and writes dX. -/
  | rowSoftmaxBwd (site : Fin 136)
  /-- R212: ROW_XENT stores softmax statistics and writes per-row cross-entropy loss and optional log-probabilities. -/
  | rowXent (site : Fin 136)
  /-- R209: ROW_XENT_BWD writes the cross-entropy gradient against the labels. -/
  | rowXentBwd (site : Fin 136)
  /-- R208: ROW_LNORM writes layer-norm rows and stores mean and reciprocal deviation. -/
  | rowLnorm (site : Fin 136)
  /-- R209: ROW_LNORM_BWD writes the layer-norm dX and may accumulate dγ and dβ. -/
  | rowLnormBwd (site : Fin 136)
  /-- R208: ROW_RMSNORM writes RMS-norm rows and stores the reciprocal RMS. -/
  | rowRmsnorm (site : Fin 136)
  /-- R209: ROW_RMSNORM_BWD writes the RMS-norm dX and may accumulate dγ. -/
  | rowRmsnormBwd (site : Fin 136)
  /-- R217: ROW_TAG_CLOSE closes a statistics tag and frees its entries. -/
  | rowTagClose (site : Fin 136)
  /-- R229: S_ARM arms a stream context or places its descriptor in the shadow slot. -/
  | sArm (site : Fin 136)
  /-- R229: The fetch of an indirect S_ARM descriptor completes, is checked, and begins or shadows its pass. -/
  | sArmFetchDone (site : Fin 136) (c : Fin 8)
  /-- R232: S_LOAD moves the next CNT tiles of the pass into SPD in a load phase. -/
  | sLoad (site : Fin 136)
  /-- R232: S_STORE moves CNT tiles from SPD to the next tile positions of the pass. -/
  | sStore (site : Fin 136)
  /-- R235: S_ACQUIRE takes the next ready ring slot and may rebase a tensor-table entry onto it. -/
  | sAcquire (site : Fin 136)
  /-- R236: S_RELEASE records the release of the N oldest acquired slots. -/
  | sRelease (site : Fin 136)
  /-- R236: A recorded release takes effect once every earlier descriptor has completed, freeing or handing over slots. -/
  | releaseEffect (site : Fin 136) (serial : Nat)
  /-- R238: S_DISARM puts a context into DISARMING after its load transfers complete. -/
  | sDisarm (site : Fin 136)
  /-- R238: A disarming context whose transfers and drains have ended returns to IDLE and its S_DISARM completes. -/
  | disarmDone (site : Fin 136) (c : Fin 8)
  /-- R234: A fill or drain completes, advances the ring pointers in tile order and starts the next tile. -/
  | tileComplete (site : Fin 136) (c : Fin 8) (n : Fin 8)
  /-- R243: A fill or drain that ends faulted marks its tile and records it in STU_CTXc_FAULT for delivery. -/
  | tileFault (site : Fin 136) (c : Fin 8) (n : Fin 8)
  /-- R228: A chained stream descriptor is fetched and checked, and joins its pass or is refused. -/
  | chainFetchDone (site : Fin 136) (c : Fin 8)
  /-- R229: A completed pass hands over to the shadow descriptor or lets the context go IDLE. -/
  | passComplete (site : Fin 136) (c : Fin 8)
  /-- R122: A descriptor completes when its writes are visible; SEN increments its counter. -/
  | descriptorComplete (site : Fin 136) (serial : Nat)
  /-- R142: A faulting descriptor stops further issue and begins the stop of its list. -/
  | descriptorFault (site : Fin 136) (serial : Nat)
  /-- R142: When every issued descriptor has ended, the list enters STOPPED_FAULT or STOPPED_REQ and raises list-stopped. -/
  | listStopped (site : Fin 136)
  /-- R149: START clears the loop stack and fault record and begins the list at descriptor 0. -/
  | start (r : Requester) (site : Fin 136) (v : Word)
  /-- R147: STOP stops a running list without a fault. -/
  | stop (r : Requester) (site : Fin 136) (v : Word)
  /-- R146: RESUME re-issues the faulting descriptor and walks on in the recorded issue order. -/
  | resume (r : Requester) (site : Fin 136) (v : Word)
  /-- R146: SKIP treats the faulting descriptor as complete and continues as RESUME does. -/
  | skip (r : Requester) (site : Fin 136) (v : Word)
  /-- R146: ABANDON ends the list, clears the loop stack and disarms every stream context. -/
  | abandon (r : Requester) (site : Fin 136) (v : Word)
  /-- R146: When every descriptor issued before an ABANDON has ended, the list becomes IDLE. -/
  | abandonDone (site : Fin 136)
  /-- R153: A write of a loop-stack register adds or drops levels with no gap, or is ignored. -/
  | coreLoopWrite (r : Requester) (site : Fin 136) (ix : Fin 8) (v : Word)
  /-- R116: At a lap boundary a logical core's state moves to a spare site and the core map is rewritten. -/
  | coreMigrate (lcore : Fin 128) (site : Fin 136)
  /-- R257: A TRE serves a read of outer-tier sectors, decoding and decompressing the block. -/
  | outerRead (cls : TierClass) (addr : BitVec 40) (len : Nat) (x : SectorFault)
  /-- R258: A TRE applies a whole-block write or a read-modify-write to a block, one request at a time. -/
  | outerWrite (cls : TierClass) (addr : BitVec 40) (data : List Byte) (x : SectorFault)
  /-- R251: Patrol scrubbing reads and corrects outer-tier sectors, one pass every 24 h. -/
  | patrolScrub (block : BitVec 28) (sector : Fin 16) (x : SectorFault)
  /-- R481: Near-tier scrubbing reads, corrects and writes back every word, one pass every 6 h. -/
  | nearScrub (word : Nat) (bad : Fin 3)
  /-- R252: A write of TRE_PKG.LOST marks a package lost and puts its group into DEGRADED. -/
  | trePkgWrite (r : Requester) (g : Fin 4) (v : Word)
  /-- R265: A write of TRE_SPLIT sets the class shares or is ignored with SPLIT_BAD. -/
  | treSplitWrite (r : Requester) (g : Fin 4) (v : Word)
  /-- R281: GO names a source, and the TRE requests the block from it. -/
  | repairGo (r : Requester) (g : Fin 4) (slot : Fin 16) (v : Word)
  /-- R281: NOSRC poisons the block under repair and serves the held accesses. -/
  | nosrc (r : Requester) (g : Fin 4) (slot : Fin 16) (v : Word)
  /-- R281: The source block arrives, is encoded, written and read back, and the repair completes or rewrites once. -/
  | repairBlockArrive (g : Fin 4) (slot : Fin 16) (block : Option (List Byte)) (bad1 bad2 : Bool)
  /-- R281: REPAIR_TIMEOUT passing from the first failure poisons the block and serves the held accesses. -/
  | repairTimeout (g : Fin 4) (slot : Fin 16)
  /-- R271: Every 65,536 ns each pool page's age increases by 1, saturating. -/
  | pageAgeTick
  /-- R276: The Pacer starts promoting the next schedule entry once its lead and concurrency allow. -/
  | pacerPromote
  /-- R277: A promotion whose copies are written patches its bindings and signals the cores. -/
  | promotionComplete (entry : BitVec 16)
  /-- R278: Once no page is held, an entry is written back, its Wᵀ discarded, rebound and freed. -/
  | pacerDemote (entry : BitVec 16)
  /-- R279: An allocation that has waited 10 ms raises the Pacer stall event once. -/
  | pacerStall
  /-- R94: An access to the host window is translated by the HBR table and sent to the host. -/
  | hostWindowAccess (addr : BitVec 37) (len : Nat) (data : Option (List Byte)) (origin : Option (BitVec 11 × BitVec 12))
  /-- R96: A write of HBR_XLAT_INV starts or widens an invalidation of cached translation entries. -/
  | hbrXlatInv (r : Requester) (v : Word)
  /-- R96: An invalidation completes and INV_BUSY clears. -/
  | xlatInvDone
  /-- R291: Setting HVU_CTRL.EN checks every bucket record, table and commit word. -/
  | hvuEnable (r : Requester) (v : Word)
  /-- R294: The bucket at the head of the queue forms its own verdict and sends it to the other members. -/
  | hvuVerdictStart
  /-- R294: A VERDICT baton from a member is recorded, and with all present the combined verdict is applied. -/
  | verdict (b : Baton)
  /-- R302: The update passes read G and the committed slot and write the spare slot, W, digest and buddy copy. -/
  | hvuPasses
  /-- R301: Once the passes are acknowledged, the stamp and commit word are written and the publish starts. -/
  | hvuCommit
  /-- R301: Once the all-gather and buddy writes are acknowledged, the bucket becomes DONE. -/
  | hvuDone
  /-- R303: HVU_CMD REQUEUE reruns an interrupted or faulted bucket update. -/
  | requeue (r : Requester) (v : Word)
  /-- R303: HVU_CMD ABANDON puts an interrupted bucket in FAULT. -/
  | hvuAbandon (r : Requester) (v : Word)
  /-- R306: A DIGEST baton from a member is compared at the owner and losers are resolved. -/
  | digest (b : Baton)
  /-- R321: Setting SCH_CTRL.EN checks the heat table and micro-batch list. -/
  | schEnable (r : Requester) (v : Word)
  /-- R318: Once the previous slot is done, the SCH opens the next slot and sets the micro-batch cursor. -/
  | slotOpen
  /-- R318: Once the named core is IDLE or HALTED, the SCH writes the slot record and patches and starts its list. -/
  | coreLaunch (lcore : Fin 128)
  /-- R327: A USER baton is counted on its channel and its ARG kept. -/
  | user (b : Baton)
  /-- R339: A LOSS baton records the loss value of its micro-batch. -/
  | loss (b : Baton)
  /-- R330: A HURDLE_ARRIVE baton counts a device's arrival at the root. -/
  | hurdleArrive (b : Baton)
  /-- R330: A HURDLE_RELEASE baton releases the local participants and opens the next generation. -/
  | hurdleRelease (b : Baton)
  /-- R323: A baton of an unknown type is discarded and counted in SCH_BATON_BAD. -/
  | batonInvalid (b : Baton)
  /-- R324: A sequence gap still open 100 µs after a held baton raises the baton-gap event. -/
  | batonGap (src : BitVec 11)
  /-- R332: A bucket-local baton starts the reduction: deadline and writes of other shards' rows. -/
  | bktLocal (b : BitVec 12) (count : BitVec 16)
  /-- R332: When the writes of a shard are acknowledged, BKT_PART is sent to its owner. -/
  | bktPartSend (b : BitVec 12) (owner : Fin 64)
  /-- R332: A BKT_PART at the owner marks its sender present, or is handled as late. -/
  | bktPart (b : Baton)
  /-- R332: The reduction deadline passes and the owner closes with ranks missing. -/
  | reduceDeadline (b : BitVec 12)
  /-- R334: The reduce pass writes the reduced shard and the bucket turns READY. -/
  | reducePassDone (b : BitVec 12)
  /-- R332: A BKT_ACK at a sender sets REPLIED and zeroes the shard's rows in G. -/
  | bktAck (b : Baton)
  /-- R333: A BKT_CLOSED at a sender carries or drops its partial. -/
  | bktClosed (b : Baton)
  /-- R336: A BKT_GATHER tells a member its all-gathered rows are written, and its digest is computed. -/
  | bktGather (b : Baton)
  /-- R335: SCH_CMD.WITHDRAW withdraws the device's contribution for the rest of the lap. -/
  | schCmdWithdraw (r : Requester) (v : Word)
  /-- R335: A WITHDRAW baton withdraws the device's contribution for the rest of the lap. -/
  | withdraw (b : Baton)
  /-- R337: A device done with its lap and its children sends LAP_DONE to its parent. -/
  | lapDoneSend
  /-- R337: A LAP_DONE baton records a child as done. -/
  | lapDone (b : Baton)
  /-- R340: LAP_GO is forwarded, the epoch adopted, the loss logged and the lap counter advanced. -/
  | lapGo (b : Baton)
  /-- R352: Setting KVD_CTRL.EN checks the directory and starts zeroing the allotment. -/
  | kvdEnable (r : Requester) (v : Word)
  /-- R348: The zeroing of the KVD allotment completes and CLEARING clears. -/
  | kvdClearDone
  /-- R367: A write of KVD_DIR_SEL loads an entry into the window or writes the window into it. -/
  | kvdDirSel (r : Requester) (v : Word)
  /-- R354: ADMIT takes the batch entries in order and allocates, ends or restarts sequences. -/
  | admitSeqs
  /-- R361: Firmware deals the sequences, writes walk outputs and patches and emits chains layer by layer. -/
  | walkEmit
  /-- R363: STEP_END folds the scores of the stepped sequences and frees lagged slots. -/
  | stepEnd
  /-- R364: After the fold the KVD selects budget, watermark and fetch-back moves. -/
  | kvdMaintenance
  /-- R362: A move's copies are written, LOC and slot words switch and MOVING clears. -/
  | kvdMoveDone (n : Nat)
  /-- R372: A write of MDE_JOB_PUSH_HI queues an MDE job, after checking it. -/
  | mdeJobPush (r : Requester) (v : Word)
  /-- R376: A free pipe takes a waiting sample and runs the header checks. -/
  | mdeDecodeStart (pipe : Fin 16) (pos : Nat) (h : MediaHeader)
  /-- R375: A decode completes and writes the sample's output elements. -/
  | mdeDecodeDone (pipe : Fin 16) (ok : Bool) (pixels : List Byte)
  /-- R377: An attempt passing its decode limit is abandoned and rejected. -/
  | mdeDecodeTimeout (pipe : Fin 16)
  /-- R378: Positions commit in order, substituting from the reserve list where rejected. -/
  | mdeCommit
  /-- R383: A write of SAU_JOB_PUSH_HI queues an SAU job, after checking it. -/
  | sauJobPush (r : Requester) (v : Word)
  /-- R385: The SAU aligns a job's streams onto the output timeline and commits or substitutes it. -/
  | sauAlign
  /-- R382: Setting MDE_CTRL.LARGE or SAU_CTRL.REMOTE takes the staging buffer or is refused. -/
  | stageEnable (r : Requester) (sau : Bool) (v : Word)
  /-- R382: A pending staging-buffer release completes when no unit uses it. -/
  | stageReleaseDone
  /-- R403: A received frame is decoded; in-order flits are accepted and ACK and NACK acted on. -/
  | frameReceive (p : Fin 16) (f : Frame)
  /-- R406: A LINKCTL frame carries training exchange or lane-drop messages. -/
  | linkctl (p : Fin 16) (m : LinkMsg)
  /-- R401: A CREDIT packet returns credits of four virtual channels. -/
  | credit (p : Fin 16) (k : Packet)
  /-- R399: A read request is checked at the target and served, or forwarded. -/
  | rdReq (p : Fin 16) (k : Packet)
  /-- R398: Raw read data arrives for its transaction. -/
  | rdData (p : Fin 16) (k : Packet)
  /-- R398: Compressed read data of a block arrives for its transaction. -/
  | crdData (p : Fin 16) (k : Packet)
  /-- R398: Write data of a transaction arrives at its target. -/
  | wrData (p : Fin 16) (k : Packet)
  /-- R399: The last write data of a transaction arrives and is answered with WR_ACK. -/
  | wrLast (p : Fin 16) (k : Packet)
  /-- R398: Compressed write data of a block arrives. -/
  | cwrData (p : Fin 16) (k : Packet)
  /-- R399: The last compressed write data of a block arrives and is answered with WR_ACK. -/
  | cwrLast (p : Fin 16) (k : Packet)
  /-- R398: A write acknowledgement with its status arrives at the origin. -/
  | wrAck (p : Fin 16) (k : Packet)
  /-- R398: A read-failure response with its fault code arrives at the origin. -/
  | rdErr (p : Fin 16) (k : Packet)
  /-- R398: A register read request from a control core or the HBR is served. -/
  | regRd (p : Fin 16) (k : Packet)
  /-- R398: A register write request is applied and acknowledged. -/
  | regWr (p : Fin 16) (k : Packet)
  /-- R398: A register value response arrives. -/
  | regData (p : Fin 16) (k : Packet)
  /-- R404: No acknowledgement for 50 µs, or 8 sends of one flit, retrains the port. -/
  | relayTimeout (p : Fin 16)
  /-- R404: A read or write with no response 10 ms after sending ends with LINK_UNREACHABLE. -/
  | linkReqTimeout (tag : Nat)
  /-- R406: Setting FL_CFG.EN starts training; clearing it takes the port out of service. -/
  | flCfgWrite (r : Requester) (p : Fin 16) (v : Word)
  /-- R406: The partner's signal is found and transmit equalisation begins. -/
  | trainingSignal (p : Fin 16)
  /-- R406: No signal within 100 ms puts the port DOWN and retries every 1 s. -/
  | trainingNoSignal (p : Fin 16)
  /-- R406: Equalisation completes and codeword lock and deskew follow. -/
  | equalisationDone (p : Fin 16)
  /-- R406: The LINKCTL exchange completes; credits are granted or replay resumes and the port is ACTIVE. -/
  | linkExchangeDone (p : Fin 16)
  /-- R408: A lane losing signal or lock, or over its error limit, is dropped and the port reshapes. -/
  | laneFail (p : Fin 16) (lane : Fin 4)
  /-- R408: Both ends resume on the remaining lanes with replay. -/
  | reshapeDone (p : Fin 16)
  /-- R413: A write of ROUTE_CTRL.BANK switches the active route bank for later lookups. -/
  | routeBankFlip (r : Requester) (v : Word)
  /-- R418: A host access to BAR0's upper half is carried to the selected slot as REG_RD or REG_WR. -/
  | hostBar0Window (off : BitVec 26) (width : Nat) (data : Option Word)
  /-- R420: A host read through BAR2 is served as a far-tier read in the remote class. -/
  | hostBar2Read (off : BitVec 36) (len : Nat)
  /-- R420: A host write through BAR2 is served as a far-tier write in the remote class. -/
  | hostBar2Write (off : BitVec 36) (data : List Byte)
  /-- R515: HOST_PERST_N low holds the HBR in reset with its lanes idle. -/
  | hostPerst (low : Bool)
  /-- R428: A write to a watched line fires its slot and firmware reads the header line. -/
  | lineWatchFire (k : Fin 8)
  /-- R430: A RUN entry is checked, assigned a context and set up, or refused with a status. -/
  | run (k : Fin 8)
  /-- R431: A part that gives no status within 100 ms counts as refused with CONFLICT. -/
  | groupPartTimeout (ctx : Fin 8) (dev : BitVec 11)
  /-- R431: A STEP entry launches its lists and, for a KVD run, its rollout step. -/
  | step (k : Fin 8)
  /-- R431: An END entry waits for the run's lists to halt and then ends the run. -/
  | endRun (k : Fin 8)
  /-- R431: An ABORT entry abandons every list of the run and ends it. -/
  | abort (k : Fin 8)
  /-- R431: A run ends: claims and timers are released, the Pacer demotes and STATUS is written. -/
  | runEnd (ctx : Fin 8)
  /-- R432: Firmware answers a list stop or unit fault by ending the run, resuming or applying the recovery policy. -/
  | faultResponse (site : Fin 136)
  /-- R443: A write of DEV_SUBQk_CFG enables or disables a submission list, or is refused. -/
  | devSubqCfgWrite (r : Requester) (k : Fin 8) (v : Word)
  /-- R435: A raised event makes its source pending at its target, or is lost. -/
  | eventDeliver (n : Fin 1024)
  /-- R435: A read of EVH_TGTt_CLAIM pushes the highest claimable source onto the target's stack. -/
  | claim (r : Requester) (t : Fin 9)
  /-- R435: A write of EVH_TGTt_EOI pops the matching top of the stack and idles the source. -/
  | eoi (r : Requester) (t : Fin 9) (v : Word)
  /-- R437: EVH_TGTt_CTRL.RESET empties a stack and clears FROZEN. -/
  | evhReset (r : Requester) (t : Fin 9) (v : Word)
  /-- R438: A write of EVH_SRCn sets routing, priority and vector, with host restrictions. -/
  | evhSrcWrite (r : Requester) (n : Fin 1024) (v : Word)
  /-- R441: A write of a timer comparator takes, keeps or releases its ownership, or is refused. -/
  | evhTmrCtrlWrite (r : Requester) (k : Fin 8) (owner : Fin 16) (v : Word)
  /-- R440: A comparator whose compare time is reached raises its source and, if periodic, advances. -/
  | timerFire (k : Fin 8)
  /-- R439: A hub enters frost and saves its state in retention. -/
  | hubFrost (h : Fin 2)
  /-- R439: A hub restores its state and applies the events latched during frost. -/
  | hubThaw (h : Fin 2)
  /-- R480: No heartbeat for 1 ms makes the watcher halt the control core and take over its duties. -/
  | siblingWatchdog (k : Fin 8)
  /-- R522: V72 above the turn-on threshold charges the input and raises standby rails and SB_STRAP. -/
  | v72Rise (mv : Nat)
  /-- R445: Input below the lockout removes every rail but standby within 10 µs. -/
  | undervoltageLockout (mv : Nat)
  /-- R445: Input above 84 V removes every rail within 10 µs. -/
  | overvoltageShutdown (mv : Nat)
  /-- R446: Input between 56 and 60 V limits current to 30 A and raises the input-range event. -/
  | lowInputLimit (mv : Nat)
  /-- R447: A phase that fails its check is turned off and its load carried by the others. -/
  | phaseShed (stage : Nat) (phase : Nat)
  /-- R453: A voltage droop beyond 5% stretches the island clock period by one eighth. -/
  | droop (island : Nat)
  /-- R454: Every 10 s each island regulator's reference is re-trimmed. -/
  | regulatorRetrim (island : Nat)
  /-- R454: Once an hour the ageing monitor measures slowing and adds voltage margin. -/
  | ageingMeasure (island : Nat) (slowing : Nat)
  /-- R452: Every 1 ms the power-estimate weights are corrected against measured current. -/
  | estimateCorrect (estimate measured : Nat)
  /-- R456: Every 10 µs the cap controller lowers or raises the group budgets against the effective cap. -/
  | capStep (watts : Nat)
  /-- R459: A 1 µs average reaching 2,200 W steps every core site to point 0. -/
  | fastThrottle (watts : Nat)
  /-- R459: 20 µs after a fast throttle the hold ends and FAST clears. -/
  | fastThrottleEnd
  /-- R456: A write of PWC_CAP sets the cap from the next step, or is ignored with CAP_BAD. -/
  | pwcCapWrite (r : Requester) (v : Word)
  /-- R455: A write of PWC_FREQ_MAX sets the ceiling, or is ignored under default calibration. -/
  | pwcFreqMaxWrite (r : Requester) (h : Fin 2) (v : Word)
  /-- R463: PWC_MODULE_CMD.FROST puts the module into FROST, or is refused while a run is active. -/
  | frost (r : Requester) (v : Word)
  /-- R463: A wake source returns the module from FROST to ACTIVE. -/
  | frostWake
  /-- R522: MOD_PWR_EN high raises the rails and starts the ACTIVE start-up. -/
  | modPwrEnRise
  /-- R463: MOD_PWR_EN low starts an orderly shut-down to STANDBY. -/
  | modPwrEnFall
  /-- R463: An orderly shut-down completes and the module is in STANDBY. -/
  | shutdownDone
  /-- R521: MOD_RESET_N low removes every rail but standby and holds the module in reset. -/
  | modResetAssert
  /-- R522: MOD_RESET_N released latches the straps, starts the MGC and enters STANDBY. -/
  | modResetRelease (group : BitVec 5) (slot : BitVec 6) (anchor : Bool)
  /-- R464: Every 1 ms each sensor is read and operating-point limits are adjusted. -/
  | sensorRead (readings : List SensorReading)
  /-- R465: A trip limit removes every rail but standby in hardware and latches the cause. -/
  | thermalTrip (sensor : Nat)
  /-- R497: With half 0 rails good the TRB ROM selects, checks and measures the control image. -/
  | trbBoot (failed : List (Fin 4 × Fin 9))
  /-- R522: Released control cores enable the ports and start first training. -/
  | controlRelease (ports : BitVec 16)
  /-- R522: With ports trained, the anchor checks IDs, draws and flips routes and sets GROUP_READY. -/
  | groupDiscovery (reports : List DeviceReport)
  /-- R522: A device that trains after GROUP_READY is admitted when no run of the group is active. -/
  | lateAdmit (d : DeviceReport)
  /-- R520: A write of DEV_GPXk_CFG takes, releases or sets a pin function, or is refused. -/
  | devGpxCfgWrite (r : Requester) (k : Fin 8) (v : Word)
  /-- R519: A rising edge on a capture pin latches DEV_TIME into DEV_TCAP. -/
  | timeCapture (k : Fin 8)
  /-- R519: A leak pin low for 1 ms sets LEAK, asserts FAULT_N and raises the DEV event. -/
  | leakN (k : Fin 8)
  /-- R519: A cap-limit pin low bounds the effective cap by DEV_GPX_CAPLIM. -/
  | capLimitN (k : Fin 8) (low : Bool)
  /-- R472: An error report is added to its windowed counter and may be declared lasting. -/
  | flmReport (kind : Fin 32) (resource : Nat)
  /-- R482: A child's LAP_DONE missing FLM_LAP_TIMEOUT after its parent is done declares the device lost. -/
  | lapTimeout (child : BitVec 11)
  /-- R484: A device declared lost is replaced by a spare and the job restored or continued. -/
  | deviceLoss (d : BitVec 11)
  /-- R484: FLM_CMD.RELEASE lets held devices continue after a restore or failed replay. -/
  | release (r : Requester) (v : Word)
  /-- R481: Every 1 ms counters, temperatures and power are gathered into the telemetry block. -/
  | telemetryGather
  /-- R498: A commit blows anti-rollback and revocation fuses, or is refused. -/
  | trbSvnCommit (r : Requester) (v : Word)
  /-- R504: MCTP Set Endpoint ID assigns the MGC its endpoint ID. -/
  | setEndpointId (op : BitVec 2) (eid : Byte)
  /-- R504: MCTP Get Endpoint ID returns the endpoint ID. -/
  | getEndpointId
  /-- R504: MCTP Get MCTP Version Support returns the supported versions. -/
  | getMctpVersionSupport (type : Byte)
  /-- R504: MCTP Get Message Type Support returns PLDM and vendor-defined. -/
  | getMessageTypeSupport
  /-- R504: MCTP Get Vendor Defined Message Support returns the vendor ID. -/
  | getVendorDefinedMessageSupport
  /-- R505: A PLDM request of another type receives ERROR_INVALID_PLDM_TYPE. -/
  | pldmInvalidType (type : Byte)
  /-- R505: PLDM GetPDRRepositoryInfo returns repository information. -/
  | getPdrRepositoryInfo
  /-- R505: PLDM GetPDR returns a platform descriptor record. -/
  | getPdr (record : Nat)
  /-- R505: PLDM GetSensorReading returns a numeric sensor. -/
  | getSensorReading (id : BitVec 16)
  /-- R505: PLDM GetStateSensorReadings returns module state or FLM_SERVICE. -/
  | getStateSensorReadings (id : BitVec 16)
  /-- R505: PLDM GetNumericEffecterValue returns the power cap. -/
  | getNumericEffecterValue (id : BitVec 16)
  /-- R505: PLDM SetNumericEffecterValue writes PWC_CAP, or refuses a bad value. -/
  | setNumericEffecterValue (id : BitVec 16) (value : Nat)
  /-- R505: PLDM SetEventReceiver sets where platform events are sent. -/
  | setEventReceiver (enable : Byte) (addr : Byte)
  /-- R505: PLDM QueryDeviceIdentifiers returns the device identifiers. -/
  | queryDeviceIdentifiers
  /-- R505: PLDM GetFirmwareParameters returns component versions. -/
  | getFirmwareParameters
  /-- R506: PLDM RequestUpdate begins a firmware update. -/
  | requestUpdate (maxTransfer : Nat) (components : Nat)
  /-- R506: PLDM PassComponentTable names the components of an update. -/
  | passComponentTable (component : BitVec 16)
  /-- R506: PLDM UpdateComponent starts the download of a component. -/
  | updateComponent (component : BitVec 16) (size : Nat)
  /-- R506: Firmware data arriving in answer to RequestFirmwareData is written to staging. -/
  | requestFirmwareData (off : Nat) (data : List Byte)
  /-- R506: PLDM TransferComplete ends the download. -/
  | transferComplete
  /-- R506: PLDM VerifyComplete reports the image check. -/
  | verifyComplete
  /-- R506: PLDM ApplyComplete reports the copy into the idle slot. -/
  | applyComplete
  /-- R506: PLDM ActivateFirmware selects the new slot for the next reset and may commit. -/
  | activateFirmware (selfContained : Bool)
  /-- R505: PLDM GetStatus returns the update state. -/
  | getStatus
  /-- R505: PLDM CancelUpdateComponent cancels the component in progress. -/
  | cancelUpdateComponent
  /-- R505: PLDM CancelUpdate cancels the update. -/
  | cancelUpdate
  /-- R501: The vendor REPORT command returns a signed attestation report for a nonce. -/
  | report (nonce : BitVec 256)
  /-- R509: The vendor CERTS command returns part of the certificate chain. -/
  | certs (off : Nat)
  /-- R503: The vendor DEBUG_CHALLENGE command returns a fresh challenge nonce. -/
  | debugChallenge
  /-- R503: The vendor DEBUG_UNLOCK command checks a token and unlocks debug scope, or refuses it. -/
  | debugUnlock (token : List Byte)
  /-- R509: The vendor REG_READ command returns an RO register or PWC_CAP. -/
  | regRead (a : BitVec 26)
  /-- R509: The vendor TELEMETRY command returns bytes of the telemetry block. -/
  | telemetry (off : Nat) (len : Nat)
  /-- R509: The vendor FAULT_LOG command returns one fault-log entry. -/
  | faultLog (n : Nat)
  /-- R509: The vendor CAL_READ command returns bytes of the calibration store. -/
  | calRead (off : Nat)
  /-- R509: The vendor TRIP command returns MGC_TRIP. -/
  | trip
  /-- R522: A PCI Express configuration request from the host is answered by the HBR, with Request Retry Status until start-up step 4 completes. -/
  | hostConfigurationRequest
  /-- R95: A completion from the host for a host-window read arrives at the HBR and is delivered to the requester, as data, TENSOR_BOUNDS or POISON_INPUT. -/
  | hostReadCompletion (tag : Nat) (status : HostStatus) (data : List Byte)
  /-- R423: The PCI Express link of the HBR trains, changes width or rate, goes down or receives a hot reset, updating HBR_LINK and LINK_DOWN and raising the link event. -/
  | hbrLinkStateChange (up : Bool) (width : BitVec 5) (rate : BitVec 3) (hotReset : Bool)
  /-- R438: A host write that unmasks an MSI-X vector whose Pending Bit is set sends the held message. -/
  | msixVectorUnmask (vec : Fin 64)
  /-- R406: Codeword lock and lane deskew complete on at least 2 lanes, failed lanes are left out, and the LINKCTL exchange begins, or the port goes DOWN. -/
  | codewordLock (p : Fin 16) (lanes : BitVec 4)
  /-- R502: Activity on the IEEE 1149.1 port is served as boundary-scan instructions, or as debug paths once a token has unlocked them. -/
  | boundaryScan (ir : Nat) (dr : Nat)
  /-- R511: An SMBus transaction that stalls past its limit is abandoned and sets ERR_STATUS.BUS_TIMEOUT of the MGC page. -/
  | smbusBusTimeout
  deriving DecidableEq, Repr

end Sys2Proof
end

