-- ==== Sys2Proof/Decode.lean ====
section
/-!
DEFINITION. The table gives none of its rows bits, so no word spells a command.
-/
namespace Sys2Proof

/-- The command that a word spells by the bits of `spec/opcode_table.json`: none, as no row has bits. -/
def decodeTableWord (_nbits _w : Nat) : Option Instr := none

end Sys2Proof
end

