-- ==== Sys2Proof/Machine/Num.lean ====
section
/-!
DEFINITION. The eleven number formats, exact decoding, the one rounding, and the counts a rounding makes
(02 R32-R60, 03 R61-R85).
-/
namespace Sys2Proof.Machine

/-- The formats of R32. -/
inductive Fmt where
  | fp32 | bf16 | fp16 | e4m3 | e5m2 | e3m2 | e2m3 | e2m1 | int8 | int4 | e8m0
  deriving DecidableEq, Repr

/-- The `FMT` code of a format (R32); codes 0xB to 0xF name none (R53). -/
def Fmt.ofCode : Nat → Option Fmt
  | 0 => some .fp32 | 1 => some .bf16 | 2 => some .fp16 | 3 => some .e4m3 | 4 => some .e5m2 | 5 => some .e3m2
  | 6 => some .e2m3 | 7 => some .e2m1 | 8 => some .int8 | 9 => some .int4 | 10 => some .e8m0 | _ => none

/-- Width in bits (R32). -/
def Fmt.width : Fmt → Nat
  | .fp32 => 32 | .bf16 => 16 | .fp16 => 16 | .e4m3 => 8 | .e5m2 => 8 | .e3m2 => 6 | .e2m3 => 6 | .e2m1 => 4
  | .int8 => 8 | .int4 => 4 | .e8m0 => 8

/-- Exponent bits (R32). -/
def Fmt.ebits : Fmt → Nat
  | .fp32 => 8 | .bf16 => 8 | .fp16 => 5 | .e4m3 => 4 | .e5m2 => 5 | .e3m2 => 3 | .e2m3 => 2 | .e2m1 => 2
  | .int8 => 0 | .int4 => 0 | .e8m0 => 8

/-- Mantissa bits (R32). -/
def Fmt.mbits : Fmt → Nat
  | .fp32 => 23 | .bf16 => 7 | .fp16 => 10 | .e4m3 => 3 | .e5m2 => 2 | .e3m2 => 2 | .e2m3 => 3 | .e2m1 => 1
  | .int8 => 0 | .int4 => 0 | .e8m0 => 0

/-- Exponent bias (R32). -/
def Fmt.bias : Fmt → Nat
  | .fp32 => 127 | .bf16 => 127 | .fp16 => 15 | .e4m3 => 7 | .e5m2 => 15 | .e3m2 => 3 | .e2m3 => 1 | .e2m1 => 1
  | .int8 => 0 | .int4 => 0 | .e8m0 => 127

def Fmt.isInt : Fmt → Bool
  | .int8 => true | .int4 => true | _ => false

/-- The top exponent holds infinity and NaN (R32). -/
def Fmt.hasInf : Fmt → Bool
  | .fp32 => true | .bf16 => true | .fp16 => true | .e5m2 => true | _ => false

def Fmt.hasNan : Fmt → Bool
  | .e4m3 => true | .e8m0 => true | f => f.hasInf

/-- The canonical NaN (R35, R37). -/
def Fmt.canonNan : Fmt → Nat
  | .fp32 => 0x7FC00000 | .bf16 => 0x7FC0 | .fp16 => 0x7E00 | .e4m3 => 0x7F | .e5m2 => 0x7E | .e8m0 => 0xFF | _ => 0

/-- The code of the largest finite magnitude, sign clear (R35, R36); for integers the magnitude depends on the sign. -/
def Fmt.largest : Fmt → Bool → Nat
  | .fp32, _ => 0x7F7FFFFF | .bf16, _ => 0x7F7F | .fp16, _ => 0x7BFF | .e4m3, _ => 0x7E | .e5m2, _ => 0x7B
  | .e3m2, _ => 0x1F | .e2m3, _ => 0x1F | .e2m1, _ => 0x7 | .e8m0, _ => 0xFE
  | .int8, neg => if neg then 128 else 127
  | .int4, neg => if neg then 8 else 7

/-- An exact value (R39): NaN, an infinity, or ±m·2^e, where m = 0 is a signed zero. -/
inductive Val where
  | nan
  | inf (neg : Bool)
  | num (neg : Bool) (m : Nat) (e : Int)
  deriving DecidableEq, Repr

def Val.zero : Val := .num false 0 0
def Val.one : Val := .num false 1 0

/-- The exact value of a code (R39, R37). -/
def decode (f : Fmt) (c : Nat) : Val :=
  match f with
  | .e8m0 => if c = 0xFF then .nan else .num false 1 ((c : Int) - 127)
  | .int8 => if 128 ≤ c then .num true (256 - c) 0 else .num false c 0
  | .int4 => if 8 ≤ c then .num true (16 - c) 0 else .num false c 0
  | _ =>
    let s := decide (2 ^ (f.width - 1) ≤ c)
    let e := (c / 2 ^ f.mbits) % 2 ^ f.ebits
    let m := c % 2 ^ f.mbits
    if f.hasInf && e == 2 ^ f.ebits - 1 then (if m = 0 then .inf s else .nan)
    else if f == .e4m3 && e == 15 && m == 7 then .nan
    else if e = 0 then .num s m (1 - (f.bias : Int) - f.mbits)
    else .num s (2 ^ f.mbits + m) ((e : Int) - f.bias - f.mbits)

/-- ⌊log₂(m·2^e)⌋ of a non-zero magnitude. -/
def ilog2 (m : Nat) (e : Int) : Int := (Nat.log2 m : Int) + e

/-- m₁·2^e₁ < m₂·2^e₂. -/
def magLt (m1 : Nat) (e1 : Int) (m2 : Nat) (e2 : Int) : Bool :=
  let e := min e1 e2
  decide (m1 * 2 ^ (e1 - e).toNat < m2 * 2 ^ (e2 - e).toNat)

/-- A signed integer that stands for the value at a common exponent `e` at or below its own. -/
def scaled (neg : Bool) (m : Nat) (e1 e : Int) : Int :=
  let n : Int := (m * 2 ^ (e1 - e).toNat : Nat)
  if neg then -n else n

/-- −x (R61: exact). -/
def Val.neg : Val → Val
  | .nan => .nan | .inf s => .inf (!s) | .num s m e => .num (!s) m e

/-- |x|. -/
def Val.abs : Val → Val
  | .nan => .nan | .inf _ => .inf false | .num _ m e => .num false m e

def Val.isNan : Val → Bool
  | .nan => true | _ => false

/-- Is it a number? -/
def Val.finite : Val → Bool
  | .num .. => true | _ => false

def Val.isZero : Val → Bool
  | .num _ 0 _ => true | _ => false

/-- The exact sum; an exact zero sum is −0 only of two negative zeros (IEEE 754, R13). -/
def Val.add : Val → Val → Val
  | .nan, _ => .nan
  | _, .nan => .nan
  | .inf a, .inf b => if a = b then .inf a else .nan
  | .inf a, .num .. => .inf a
  | .num .., .inf b => .inf b
  | .num n1 m1 e1, .num n2 m2 e2 =>
    let e := min e1 e2
    let t := scaled n1 m1 e1 e + scaled n2 m2 e2 e
    if t = 0 then .num (n1 && n2) 0 e else .num (decide (t < 0)) t.natAbs e

def Val.sub (a b : Val) : Val := a.add b.neg

/-- The exact product. -/
def Val.mul : Val → Val → Val
  | .nan, _ => .nan
  | _, .nan => .nan
  | .inf a, .inf b => .inf (a != b)
  | .inf a, .num b m _ => if m = 0 then .nan else .inf (a != b)
  | .num a m _, .inf b => if m = 0 then .nan else .inf (a != b)
  | .num n1 m1 e1, .num n2 m2 e2 => .num (n1 != n2) (m1 * m2) (e1 + e2)

/-- x · 2^k. -/
def Val.scale (k : Int) : Val → Val
  | .num s m e => .num s m (e + k)
  | v => v

/-- a < b of two values, neither NaN; the zeros are equal. -/
def Val.lt : Val → Val → Bool
  | .nan, _ => false
  | _, .nan => false
  | .inf a, .inf b => a && !b
  | .inf a, .num .. => a
  | .num .., .inf b => !b
  | .num n1 m1 e1, .num n2 m2 e2 =>
    let e := min e1 e2
    decide (scaled n1 m1 e1 e < scaled n2 m2 e2 e)

/-- What one rounding to a destination format gives: the code and the events of R41, R43, R47. -/
structure Enc where
  code : Nat
  flush : Bool
  lost : Bool
  exceed : Bool
  deriving DecidableEq, Repr

/-- The code of sign `neg` and magnitude code `mag`. -/
def Fmt.signed (f : Fmt) (neg : Bool) (mag : Nat) : Nat :=
  if f.isInt then (if neg && mag != 0 then 2 ^ f.width - mag else mag)
  else if neg then 2 ^ (f.width - 1) + mag else mag

/-- The code of an infinity in a format that has one. -/
def Fmt.infCode (f : Fmt) (neg : Bool) : Nat := f.signed neg ((2 ^ f.ebits - 1) * 2 ^ f.mbits)

/-- R44. `OVF` = 2 writes as 0 does; the fault is raised by whoever reads `exceed`. -/
def overflowCode (f : Fmt) (neg : Bool) (ovf : Nat) : Nat :=
  if ovf = 1 && f.hasInf then f.infCode neg
  else if ovf = 1 && f.hasNan then f.canonNan
  else f.signed neg (f.largest neg)

/-- The exponent of the smallest normal less the mantissa bits: the spacing of subnormals (R35). -/
def Fmt.minExp (f : Fmt) : Int := if f.isInt then 0 else 1 - (f.bias : Int) - f.mbits

/-- The overflow threshold of R43 as m·2^e: largest magnitude plus half a unit in its last place. -/
def Fmt.threshold (f : Fmt) (neg : Bool) : Nat × Int :=
  match decode f (f.signed false (f.largest false)) with
  | .num _ m e => if f.isInt then (2 * f.largest neg + 1, -1) else (2 * m + 1, e - 1)
  | _ => (1, 0)

/-- The rounding decision of R40, R42 on a magnitude n + rem/2^d in units of the last place. -/
def roundUpBit (rnd r n rem d : Nat) : Bool :=
  if rnd = 0 then decide (2 ^ d < 2 * rem) || (decide (2 * rem = 2 ^ d) && n % 2 == 1)
  else if rnd = 1 then false
  else decide (4096 ≤ rem * 4096 / 2 ^ d + r)

/-- Encoding into E8M0 (R46, R48, R49). -/
def encodeE8m0 : Val → Nat
  | .nan => 0xFF
  | .inf _ => 0xFF
  | .num _ m e => if m = 0 then 0 else (max 0 (min 254 (ilog2 m e + 127))).toNat

/-- One rounding of an exact value into a format (R49): `rnd`, `ovf` the descriptor's codes, `r` the 12 random bits. -/
def encode (f : Fmt) (rnd ovf r : Nat) (x : Val) : Enc :=
  if f = .e8m0 then ⟨encodeE8m0 x, false, false, false⟩ else
  match x with
  | .nan => if f.hasNan then ⟨f.canonNan, false, false, false⟩ else ⟨0, false, true, false⟩
  | .inf s => if f.hasInf then ⟨f.infCode s, false, false, false⟩ else ⟨overflowCode f s ovf, false, false, true⟩
  | .num s m e =>
    if m = 0 then ⟨f.signed s 0, false, false, false⟩
    else if !f.isInt && magLt m e 1 f.minExp then ⟨f.signed s 0, true, false, false⟩
    else
      let t := f.threshold s
      if !magLt m e t.1 t.2 then ⟨overflowCode f s ovf, false, false, true⟩
      else
        let k := if f.isInt then 0 else max (ilog2 m e - f.mbits) f.minExp
        let n := if k ≤ e then m * 2 ^ (e - k).toNat else m / 2 ^ (k - e).toNat
        let rem := if k ≤ e then 0 else m % 2 ^ (k - e).toNat
        let n' := if roundUpBit rnd r n rem (k - e).toNat then n + 1 else n
        let mag := (k - f.minExp).toNat * 2 ^ f.mbits + n'
        ⟨f.signed s (min mag (f.largest s)), false, false, false⟩

/-- A conversion between formats (R49); between equal formats a copy (R50). -/
def convert (a b : Fmt) (rnd ovf r : Nat) (c : Nat) : Enc :=
  if a = b then ⟨c, false, false, false⟩ else encode b rnd ovf r (decode a c)

/-- Round to FP32, to nearest, an overflow giving infinity: the rounding of intermediate results. -/
def round32 (x : Val) : Enc := encode .fp32 0 1 0 x

/-- The value of an FP32 code. -/
def val32 (c : Nat) : Val := decode .fp32 c

/-- Counts that roundings make (R81). -/
structure Tally where
  lost : Nat
  flush : Nat
  exceed : Nat
  deriving DecidableEq, Repr

def Tally.zero : Tally := ⟨0, 0, 0⟩

def Tally.add (t : Tally) (e : Enc) : Tally :=
  ⟨t.lost + e.lost.toNat, t.flush + e.flush.toNat, t.exceed + e.exceed.toNat⟩

def Tally.join (a b : Tally) : Tally := ⟨a.lost + b.lost, a.flush + b.flush, a.exceed + b.exceed⟩

/-- One rounded addition in FP32, counting (R81). -/
def fadd32 (t : Tally) (a b : Val) : Val × Tally :=
  let e := round32 (a.add b)
  (val32 e.code, t.add e)

/-- One rounded multiplication in FP32, counting. -/
def fmul32 (t : Tally) (a b : Val) : Val × Tally :=
  let e := round32 (a.mul b)
  (val32 e.code, t.add e)

/-- a·b + c in FP32 with one rounding, counting (R61). -/
def ffma32 (t : Tally) (a b c : Val) : Val × Tally :=
  let e := round32 ((a.mul b).add c)
  (val32 e.code, t.add e)

/-- The correctly rounded quotient of two FP32 codes by exact integer division, to nearest. -/
def quotient (a b : Val) : Val :=
  match a, b with
  | .nan, _ => .nan
  | _, .nan => .nan
  | .inf _, .inf _ => .nan
  | .inf s, .num t _ _ => .inf (s != t)
  | .num s _ _, .inf t => .num (s != t) 0 0
  | .num s m e, .num t n g =>
    if n = 0 then (if m = 0 then .nan else .inf (s != t))
    else
      let q := m * 2 ^ 600 / n
      let sticky := if m * 2 ^ 600 % n = 0 then 0 else 1
      .num (s != t) (2 * q + sticky) (e - g - 601)

/-- ⌊√n⌋ by bits from `k` down. -/
def isqrtFrom (n : Nat) : Nat → Nat → Nat
  | 0, acc => acc
  | k + 1, acc =>
    let t := acc + 2 ^ k
    isqrtFrom n k (if t * t ≤ n then t else acc)

/-- The square root of a non-negative value with 600 bits and a sticky bit: rounding it once rounds the root
correctly. -/
def sqrtVal : Val → Val
  | .nan => .nan
  | .inf s => if s then .nan else .inf false
  | .num s m e =>
    if m = 0 then .num s 0 0 else if s then .nan else
      let e2 := if e % 2 = 0 then e else e - 1
      let m2 := if e % 2 = 0 then m else 2 * m
      let n := m2 * 2 ^ 400
      let r := isqrtFrom n 400 0
      .num false (2 * r + (if r * r = n then 0 else 1)) (e2 / 2 - 201)

/-- The bin of an exponent histogram that a written value counts in (R78); 64 stands for `NAN_CNT`. -/
def histBin (base : Int) : Val → Nat
  | .nan => 64
  | .inf _ => 63
  | .num _ m e =>
    if m = 0 then 0 else
      let E := ilog2 m e
      if E < base then 0 else if base + 61 < E then 63 else (E - base + 1).toNat

/-- The scale exponent of a block whose finite magnitudes' largest is `a` (R60); L the largest positive value of
the element format. -/
def blockScale (f : Fmt) (a : Nat × Int) : Int :=
  if a.1 = 0 then -127 else
    match decode f (f.signed false (f.largest false)) with
    | .num _ m e =>
      let lg := ilog2 a.1 a.2 - ilog2 m e
      -- ⌈log₂(a/L)⌉ is lg or lg + 1: the least s with a ≤ L·2^s
      let s := if !magLt m (e + (lg - 1)) a.1 a.2 then lg - 1 else if !magLt m (e + lg) a.1 a.2 then lg else lg + 1
      max (-127) (min 127 s)
    | _ => -127

/-- The greatest finite magnitude among values (R60); (0, 0) where there is none. -/
def amax : List Val → Nat × Int
  | [] => (0, 0)
  | .num _ m e :: vs => let a := amax vs; if magLt a.1 a.2 m e then (m, e) else a
  | _ :: vs => amax vs

/-- Does a block take scale code 0xFF (R60)? -/
def blockNonFinite (vs : List Val) : Bool :=
  vs.any fun v => match v with | .num .. => false | _ => true

/-- The scale code and the element codes of a block written by R60; `r k` is the draw of the k-th element. -/
def encodeBlock (f : Fmt) (rnd ovf : Nat) (vs : List (Nat × Val)) : Nat × List Enc :=
  if blockNonFinite (vs.map (·.2)) then (0xFF, vs.map fun _ => ⟨0, false, false, false⟩)
  else
    let s := blockScale f (amax (vs.map (·.2)))
    ((s + 127).toNat, vs.map fun rv => encode f rnd ovf rv.1 (rv.2.scale (-s)))

/-! The stride generator (R82-R84). -/

/-- One round of R83. -/
def strideRound (ka kb : Quad) (i : Nat) (p : Quad × Quad) : Quad × Quad :=
  let rk := (if i % 2 = 0 then ka else kb) + BitVec.ofNat 64 (i * 0x9E3779B97F4A7C15)
  let y := p.2 + rk
  let x := p.1 ^^^ y
  let x := (x * 0xC2B53A7D19E6F04B#64).rotateLeft 29
  let y := y ^^^ x
  (x, (y * 0x8F146E2DB5C39A71#64).rotateLeft 23)

/-- The 64-bit output for a counter and a key (R83). -/
def stride (counter key : BitVec 128) : Quad :=
  let ka := key.extractLsb' 0 64
  let kb := key.extractLsb' 64 64
  let p := (List.range 8).foldl (fun p i => strideRound ka kb i p)
    (counter.extractLsb' 0 64, counter.extractLsb' 64 64)
  p.1 ^^^ p.2

/-- The counter of R82. -/
def strideCounter (stream step mb draw elem : Nat) : BitVec 128 :=
  BitVec.ofNat 128 (stream % 2 ^ 32 * 2 ^ 96 + step % 2 ^ 32 * 2 ^ 64 + mb % 2 ^ 16 * 2 ^ 48 + draw % 16 * 2 ^ 44
    + elem % 2 ^ 44)

end Sys2Proof.Machine
end

