-- ==== Sys2Proof/Machine/Optim.lean ====
section
/-!
DEFINITION. The optimiser arithmetic of the Harvest unit and its digest (11 R296-R298, R300, R305).
-/
namespace Sys2Proof.Machine

/-- Correctly rounded FP32 division, counting flushes (R296). -/
def fdiv32 (t : Tally) (a b : Val) : Val × Tally :=
  let e := round32 (quotient a b)
  (val32 e.code, t.add e)

/-- Correctly rounded FP32 square root (R296). -/
def fsqrt32 (t : Tally) (a : Val) : Val × Tally :=
  let e := round32 (sqrtVal a)
  (val32 e.code, t.add e)

/-- sign(x): +1, −1, or +0 for either zero (R296). -/
def signVal : Val → Val
  | .num s m _ => if m = 0 then .zero else .num s 1 0
  | .inf s => .num s 1 0
  | .nan => .nan

/-- The parameters of a bucket that the arithmetic takes (R287), with the quotients formed once (R296). -/
structure OptParams where
  cls : Nat
  scale : Nat
  gmul : Val
  q : Val
  lr : Val
  wd : Val
  b1 : Val
  b2 : Val
  omb1 : Val
  omb2 : Val
  eps : Val
  clipd : Val
  uclip : Bool
  hasM : Bool
  deriving DecidableEq, Repr

/-- One element's gradient (R297). -/
def gradOf (p : OptParams) (t : Tally) (g : Val) : Val × Tally :=
  let e := round32 (g.scale (127 - (p.scale : Int)))
  let a := fmul32 (t.add e) (val32 e.code) p.gmul
  fmul32 a.2 a.1 p.q

/-- What an element's update gives: moment, master, and whether R300 stops it. -/
structure OptOut where
  m : Val
  w : Val
  bad : Bool
  t : Tally

/-- Class 0 (R297). -/
def momentumSgd (p : OptParams) (t : Tally) (g m w : Val) : OptOut :=
  let mn := ffma32 t p.b1 m g
  let u := ffma32 mn.2 p.wd w mn.1
  let wn := ffma32 u.2 p.lr.neg u.1 w
  ⟨mn.1, wn.1, !(g.finite && mn.1.finite && u.1.finite && wn.1.finite), wn.2⟩

/-- Class 1 (R297). -/
def signMomentum (p : OptParams) (t : Tally) (g m w : Val) : OptOut :=
  let a := fmul32 t p.b1 m
  let c := ffma32 a.2 p.omb1 g a.1
  let u := ffma32 c.2 p.wd w (signVal c.1)
  let wn := ffma32 u.2 p.lr.neg u.1 w
  let b := fmul32 wn.2 p.b2 m
  let mn := ffma32 b.2 p.omb2 g b.1
  ⟨mn.1, wn.1, !(g.finite && c.1.finite && u.1.finite && mn.1.finite && wn.1.finite), mn.2⟩

/-- The state of a class-2 update: row and column sums as functions held in lists. -/
structure FactorVecs where
  rn : List Val
  cn : List Val
  rbar : Val
  k : Val
  bad : Bool
  t : Tally

/-- The i-th of some values; +0 beyond their end. -/
def nthVal (xs : List Val) (i : Nat) : Val := (xs[i]?).getD .zero

/-- Pass 1 of class 2: the sums over rows and columns, row-major (R298). -/
def factorSums (p : OptParams) (g : Nat → Nat → Val) (rows cols : Nat) (t : Tally) : List Val × List Val × Tally :=
  (List.range rows).foldl (fun acc i =>
    (List.range cols).foldl (fun (acc : List Val × List Val × Tally) j =>
      let x := ffma32 acc.2.2 (g i j) (g i j) p.eps
      let sr := fadd32 x.2 (nthVal acc.1 i) x.1
      let sc := fadd32 sr.2 (nthVal acc.2.1 j) x.1
      (acc.1.set i sr.1, acc.2.1.set j sc.1, sc.2)) acc)
    (List.replicate rows .zero, List.replicate cols .zero, t)

/-- A new vector of class 2: fma(1 − B2, s/n, B2·old) (R298). -/
def factorVec (p : OptParams) (s old : List Val) (n : Nat) (t : Tally) : List Val × Tally :=
  (s.zip (List.range s.length)).foldl (fun acc q =>
    let a := fdiv32 acc.2 q.1 (.num false n 0)
    let b := fmul32 a.2 p.b2 (nthVal old q.2)
    let c := ffma32 b.2 p.omb2 a.1 b.1
    (acc.1 ++ [c.1], c.2)) ([], t)

/-- upd(i, j) of R298. -/
def factorUpd (v : FactorVecs) (t : Tally) (g : Val) (i j : Nat) : Val × Tally :=
  let a := fmul32 t (nthVal v.rn i) (nthVal v.cn j)
  let b := fdiv32 a.2 a.1 v.rbar
  let c := fsqrt32 b.2 b.1
  fdiv32 c.2 g c.1

/-- The vectors and the clip factor of a class-2 update (R298). -/
def factorPasses (p : OptParams) (g : Nat → Nat → Val) (r c : List Val) (rows cols : Nat) (t : Tally) : FactorVecs :=
  let s := factorSums p g rows cols t
  let rn := factorVec p s.1 r cols s.2.2
  let cn := factorVec p s.2.1 c rows rn.2
  let sum := rn.1.foldl (fun acc x => fadd32 acc.2 acc.1 x) (Val.zero, cn.2)
  let rb := fdiv32 sum.2 sum.1 (.num false rows 0)
  let v : FactorVecs := ⟨rn.1, cn.1, rb.1, .one,
    !(rn.1.all Val.finite && cn.1.all Val.finite), rb.2⟩
  if !p.uclip then v else
    let q := (List.range rows).foldl (fun acc i => (List.range cols).foldl (fun (acc : Val × Tally) j =>
      let u := factorUpd v acc.2 (g i j) i j
      ffma32 u.2 u.1 u.1 acc.1) acc) (Val.zero, v.t)
    let n := fmul32 q.2 (.num false rows 0) (.num false cols 0)
    let a := fdiv32 n.2 q.1 n.1
    let b := fsqrt32 a.2 a.1
    let d := fdiv32 b.2 b.1 p.clipd
    { v with k := if d.1.isNan then d.1 else if d.1.lt .one then .one else d.1, t := d.2 }

/-- The last pass at an element (R298). -/
def factorElem (p : OptParams) (v : FactorVecs) (t : Tally) (g m w : Val) (i j : Nat) : OptOut :=
  let a := factorUpd v t g i j
  let u := fdiv32 a.2 a.1 v.k
  let b := fmul32 u.2 p.b1 m
  let mn := if p.hasM then ffma32 b.2 p.omb1 u.1 b.1 else (u.1, u.2)
  let x := ffma32 mn.2 p.wd w mn.1
  let wn := ffma32 x.2 p.lr.neg x.1 w
  ⟨mn.1, wn.1, !(g.finite && u.1.finite && mn.1.finite && x.1.finite && wn.1.finite), wn.2⟩

/-! CRC-64 with the ECMA-182 parameters (R305). -/

def crcBit (c : Quad) : Quad := if c.getMsbD 0 then (c <<< 1) ^^^ 0x42F0E1EBA9EA3693#64 else c <<< 1

def crcByte (c : Quad) (b : Byte) : Quad :=
  (List.range 8).foldl (fun c _ => crcBit c) (c ^^^ (b.zeroExtend 64 <<< 56))

/-- The digest of some bytes. -/
def crc64 (bs : List Byte) : Quad := bs.foldl crcByte 0

end Sys2Proof.Machine
end

