-- ==== Sys2Proof/Config.lean ====
section
/-!
DEFINITION. What one implementation fixes and the spec leaves open: constants without a body, so that no proof can
see a value of them. The assumption log names the row of each.
-/
namespace Sys2Proof.Config

/-- The n-th free value a run draws (log 3): an undefined byte, word or field takes bits of it. -/
opaque freeWord : Nat → BitVec 64

/-- The FP32 result code of a VXE function (R71: the spec gives bounds, no bit pattern): function code, first and
second operand codes (log 14). -/
opaque vfunc : Nat → BitVec 32 → BitVec 32 → BitVec 32

/-- The FP32 code that the row engine forms for a value within its bound (R70, R209, R213): operation, everything the
row's results depend on, an index into its values (log 14). -/
opaque rowValue : Nat → List Int → Nat → BitVec 32

/-- Flushes among the internal roundings of one row of a row operation (R81: counted, but the roundings inside exp, log
and the reciprocal are the unit's own; log 14). -/
opaque rowFlush : Nat → List Int → Nat

/-- 2⁶⁴ times the normal variate z that V_RAND_N forms within its bound from u₁ and u₂, each in units of 2⁻²⁴ (R197,
log 14). -/
opaque randN : Nat → Nat → Int

/-- The order in which the seven levels of the reduction tree pair lanes (R69: fixed, not stated): a number whose
remainder modulo 5040 selects the permutation of the lane-index bits (log 15). -/
opaque treeOrder : Nat

/-- SHAKE256 (FIPS 202, R500): message bytes and output length in bytes (log 16). -/
opaque shake256 : List (BitVec 8) → Nat → List (BitVec 8)

/-- Ed448 verification (RFC 8032, R497): key, message, signature (log 16). -/
opaque ed448Verify : List (BitVec 8) → List (BitVec 8) → List (BitVec 8) → Bool

/-- Ed448 signing with a secret of the device (R501, log 16). -/
opaque ed448Sign : List (BitVec 8) → List (BitVec 8) → List (BitVec 8)

/-- The Ed448 public key of a secret (R496, log 16). -/
opaque ed448Public : List (BitVec 8) → List (BitVec 8)

/-- The budget in 0.01 W that an island group has on a device at the cap: cap in W, group (R456: not stated; log 30). -/
opaque fullBudget : Nat → Nat → Nat

/-- The estimated power of a site in 0.01 W at an operating point and at the activity measured there: site, point,
measurement (R451, R452; log 30). -/
opaque sitePower : Nat → Nat → Nat → Nat

/-- Rating in W of the auxiliary stage with n phases working (R447: 40 A at rail voltages that are not stated; log 31). -/
opaque auxRating : Nat → Nat

/-- The FP32 code that stands for the chroma of a picture without any (R374: `OUTCS` 1 and 2 write it, and the spec states
no value): plane, code of the luma value (log 17). -/
opaque noChroma : Nat → BitVec 32 → BitVec 32

/-- The HVU that counts the roundings of a bucket which belong to no parameter (R81, R286: not stated): bucket number and its
record (log 56). -/
opaque sharedHvu : Nat → BitVec 1024 → Nat

/-- `CONTRIB` of a reduction whose included contributions exceed 65,535 (R287, R334: no value): their number (log 56). -/
opaque contribOver : Nat → Nat

/-- Do two devices belong to the same data-parallel replica of a job (R335)? The run record names devices, and nothing in it
says which of them form a replica (log 68). -/
opaque sameReplica : Nat → Nat → Bool

/-- A byte of the module flash as delivered (R494: contents by the maker; log 32). -/
opaque flashByte : Nat → BitVec 8

/-- Fuses as delivered: the serial number, the digest of each key slot and the device secret (R496, R500; log 32). -/
opaque serial : List (BitVec 8)
opaque keyDigest : Nat → List (BitVec 8)
opaque deviceSecret : List (BitVec 8)

/-- Bytes that the maker writes into a platform descriptor record, an X.509 certificate or a version answer whose
format the spec leaves to the standard: what, number, index (R500, R505; log 33). -/
opaque makerByte : Nat → Nat → Nat → BitVec 8

/-- Length of such a record: what, number (log 33). -/
opaque makerLen : Nat → Nat → Nat

/-- The X.509 certificate of an alias key, signed with the device key: public key (R500; log 33). -/
opaque aliasCert : List (BitVec 8) → List (BitVec 8)

/-- Where anchor firmware keeps the lists of the other devices of its group (R425: it sets them; their place is not
stated): device and entry number give the entry's local address there (log 44). -/
opaque partAddr : Nat → Nat → Nat

/-- Bytes that a section of a schedule state record takes (R487: contents listed, their layout is not stated): section type
and lap (log 45). -/
opaque recordLen : Nat → Nat → Nat

end Sys2Proof.Config
end

