-- ==== Sys2Proof/Machine/Tensor.lean ====
section
/-!
DEFINITION. Tensor descriptors: their fields, their checks, and where an element lies (04 R98-R113, 02 R33, R54-R56).
-/
namespace Sys2Proof.Machine

/-- The bits `[hi:lo]` of the 64-bit word at byte offset `off` of a descriptor. -/
def dfld {w : Nat} (d : BitVec w) (off hi lo : Nat) : Nat := fld d (8 * off + hi) (8 * off + lo)

/-- Bit `i` of the 64-bit word at byte offset `off`. -/
def dbit {w : Nat} (d : BitVec w) (off i : Nat) : Bool := bit d (8 * off + i)

/-- A bit vector of the bytes at consecutive addresses, least significant first. -/
def bitsOf (w : Nat) (bs : List Byte) : BitVec w := BitVec.ofNat w (leNat bs)

/-- A tensor descriptor (R98). `resv` says that a reserved field is not zero. -/
structure Tensor where
  spd : Bool
  base : Nat
  scaleBase : Nat
  fmtCode : Nat
  cols : Nat
  rows : Nat
  sdir : Nat
  bs : Nat
  pitch : Nat
  kaxis : Bool
  layout : Nat
  batchM1 : Nat
  bstride : Nat
  resv : Bool
  deriving DecidableEq, Repr

/-- The fields of the 32 bytes of a descriptor (R98). -/
def Tensor.ofBits (d : BitVec 256) : Tensor where
  spd := dbit d 0 63
  base := dfld d 0 55 0
  scaleBase := dfld d 8 55 0
  fmtCode := dfld d 0x10 31 28
  cols := dfld d 0x10 23 0
  rows := dfld d 0x10 55 32
  sdir := dfld d 0x10 60 59
  bs := dfld d 0x10 58 56
  pitch := dfld d 0x18 31 19
  kaxis := dbit d 0x18 18
  layout := dfld d 0x18 17 16
  batchM1 := dfld d 0x18 15 0
  bstride := dfld d 0x18 63 32
  resv := dfld d 0 62 56 != 0 || dfld d 8 63 56 != 0 || dfld d 0x10 27 24 != 0 || dfld d 0x10 63 61 != 0

/-- The 32 bytes of a descriptor with the given fields, reserved fields 0. -/
def Tensor.toBits (t : Tensor) : BitVec 256 :=
  BitVec.ofNat 256 (t.spd.toNat * 2 ^ 63 + t.base % 2 ^ 56 + t.scaleBase % 2 ^ 56 * 2 ^ 64
    + (t.fmtCode % 16 * 2 ^ 28 + t.cols % 2 ^ 24) * 2 ^ 128
    + (t.sdir % 4 * 2 ^ 27 + t.bs % 8 * 2 ^ 24 + t.rows % 2 ^ 24) * 2 ^ 160
    + (t.pitch % 2 ^ 13 * 2 ^ 19 + t.kaxis.toNat * 2 ^ 18 + t.layout % 4 * 2 ^ 16 + t.batchM1 % 2 ^ 16) * 2 ^ 192
    + t.bstride % 2 ^ 32 * 2 ^ 224)

/-- The format; FP32 stands in where the code names none, which R53 has refused already. -/
def Tensor.fmt (t : Tensor) : Fmt := (Fmt.ofCode t.fmtCode).getD .fp32

/-- The block size of a `BS` code (R55). -/
def blockSize : Nat → Nat
  | 1 => 8 | 2 => 16 | 3 => 32 | 4 => 64 | 5 => 128 | _ => 1

/-- Rows that share one scale (R56, R107). -/
def Tensor.rowDiv (t : Tensor) : Nat :=
  if t.bs = 0 then 1 else
  if t.sdir = 2 || (t.sdir = 1 && !t.kaxis) || (t.sdir = 0 && t.kaxis) then blockSize t.bs else 1

/-- Columns that share one scale (R56, R107). -/
def Tensor.colDiv (t : Tensor) : Nat :=
  if t.bs = 0 then 1 else
  if t.sdir = 2 || (t.sdir = 0 && !t.kaxis) || (t.sdir = 1 && t.kaxis) then blockSize t.bs else 1

def Tensor.gridRows (t : Tensor) : Nat := cdiv t.rows t.rowDiv
def Tensor.gridCols (t : Tensor) : Nat := cdiv t.cols t.colDiv

/-- Bytes of one matrix's scale grid (R107). -/
def Tensor.gridBytes (t : Tensor) : Nat := t.gridRows * t.gridCols

/-- G of R107. -/
def Tensor.gridPitch (t : Tensor) : Nat := roundUp t.gridBytes 64

/-- Natural row pitch in bytes (R102). -/
def Tensor.naturalPitch (t : Tensor) : Nat := cdiv (cdiv (t.cols * t.fmt.width) 8) 256 * 256

def Tensor.rowPitch (t : Tensor) : Nat := if t.pitch = 0 then t.naturalPitch else t.pitch * 256

/-- Bytes of one square tile: 512 × width (R103). -/
def Tensor.tileBytes (t : Tensor) : Nat := 512 * t.fmt.width

/-- One matrix's footprint in bytes (R102, R103). -/
def Tensor.matrixBytes (t : Tensor) : Nat :=
  if t.layout = 1 then t.rows * t.rowPitch else cdiv t.rows 64 * cdiv t.cols 64 * t.tileBytes

/-- The length of the footprint of R112. -/
def Tensor.footprint (t : Tensor) : Nat :=
  (if t.batchM1 = 0 then 0 else t.batchM1 * t.bstride * 4096) + t.matrixBytes

/-- The length of the scale tensor's footprint (R112). -/
def Tensor.scaleFootprint (t : Tensor) : Nat := t.batchM1 * t.gridPitch + t.gridBytes

/-- The bit address of element (b, r, c), 8 × byte address plus the place in the byte (R102, R103, R33). -/
def Tensor.elemBit (t : Tensor) (b r c : Nat) : Nat :=
  let m := t.base + (if t.batchM1 = 0 then 0 else b * t.bstride * 4096)
  let w := t.fmt.width
  if t.layout = 1 then 8 * (m + r * t.rowPitch) + c * w
  else
    let tile := (r / 64) * cdiv t.cols 64 + c / 64
    let i := r % 64 / 8
    let j := c % 64 / 8
    let slot := i * 8 + (j ^^^ i)
    let e := (r % 8) * 8 + c % 8
    8 * (m + tile * (512 * w) + slot * 8 * w) + e * w

/-- The linear index of an element (R101). -/
def Tensor.elemIndex (t : Tensor) (b r c : Nat) : Nat := (b * t.rows + r) * t.cols + c

/-- The address of the scale code of element (b, r, c) (R56, R107). -/
def Tensor.scaleAddr (t : Tensor) (b r c : Nat) : Nat :=
  t.scaleBase + b * t.gridPitch + (r / t.rowDiv) * t.gridCols + c / t.colDiv

/-- `BAD_FORMAT` of a tensor descriptor (R53-R55); E8M0 is judged by its user (R38). -/
def Tensor.badFormat (t : Tensor) : Bool :=
  (Fmt.ofCode t.fmtCode).isNone ||
  (t.bs != 0 && (t.bs ≥ 6 || t.sdir = 3 || (t.sdir = 2 && t.bs ≥ 4) ||
    t.fmt == .fp32 || t.fmt == .bf16 || t.fmt == .fp16 || t.fmt == .e8m0))

/-- R34: the innermost extent of packed formats. -/
def Tensor.packBad (t : Tensor) : Bool :=
  (t.fmt.width == 4 && t.cols % 2 != 0) || (t.fmt.width == 6 && t.cols % 4 != 0)

/-- `BAD_DESCRIPTOR` of a tensor descriptor (R99, R111). -/
def Tensor.badDescriptor (t : Tensor) : Bool :=
  t.resv || (t.spd && (2 ^ 21 ≤ t.base || (t.bs != 0 && 2 ^ 21 ≤ t.scaleBase))) || t.layout ≥ 2 ||
  t.rows = 0 || t.cols = 0 || decide (2 ^ 44 < (t.batchM1 + 1) * t.rows * t.cols) ||
  ((Fmt.ofCode t.fmtCode).isSome && (t.packBad ||
    (t.layout = 1 && t.pitch != 0 && decide (t.pitch * 256 < cdiv (t.cols * t.fmt.width) 8)) ||
    (t.batchM1 != 0 && decide (t.bstride * 4096 < t.matrixBytes)))) ||
  (t.layout = 0 && t.pitch != 0) ||
  (t.base % (if t.layout = 1 then 64 else 256) != 0) || (t.bs != 0 && t.scaleBase % 64 != 0)

/-- SPD spans offsets 0 to 0x17_FFFF (R117). -/
def spdSize : Nat := 0x180000

/-- Does the span from `a` of length `n` leave SPD? -/
def outsideSpd (a n : Nat) : Bool := decide (spdSize < a + n)

/-- `TENSOR_BOUNDS` of a tensor that lies in SPD (R112). -/
def Tensor.spdBounds (t : Tensor) : Bool :=
  outsideSpd t.base t.footprint || (t.bs != 0 && outsideSpd t.scaleBase t.scaleFootprint)

/-- A fault and the address where it arose, 0 where it has none (R145). -/
structure FaultAt where
  code : FaultCode
  addr : Nat
  spd : Bool
  deriving DecidableEq, Repr

/-- A fault with no address. -/
def FaultAt.plain (c : FaultCode) : FaultAt := ⟨c, 0, false⟩

/-- A fault at an SPD offset. -/
def FaultAt.atSpd (c : FaultCode) (a : Nat) : FaultAt := ⟨c, a, true⟩

/-- The list with the fault where the condition holds. -/
def faultIf (b : Bool) (f : FaultAt) : List FaultAt := if b then [f] else []

/-- The faults of a tensor that an engine needs in SPD (R53-R55, R99, R111, R112, R156, R181, R203); `e8` allows
E8M0 (R38). A tensor that is refused makes no extent check. -/
def Tensor.spdFaults (t : Tensor) (e8 : Bool) : List FaultAt :=
  faultIf (t.badFormat || (!e8 && t.fmtCode == 10)) (.plain .badFormat) ++
  faultIf (t.badDescriptor || !t.spd) (.plain .badDescriptor) ++
  faultIf (!t.badFormat && !t.badDescriptor && t.spd && t.spdBounds) (.atSpd .tensorBounds t.base)

/-- May extent checks be made on this tensor? -/
def Tensor.sound (t : Tensor) : Bool := !t.badFormat && !t.badDescriptor

/-- The first in the order of R143 of some faults. -/
def firstFault : List FaultAt → Option FaultAt
  | [] => none
  | f :: fs => match firstFault fs with
    | none => some f
    | some g => if g.code.rank < f.code.rank then some g else some f

end Sys2Proof.Machine
end

