-- ==== Sys2Proof/Machine/CoreState.lean ====
section
/-!
DEFINITION. The state of one core site: sequencer, dependency counters, histogram bank, accumulator banks, row engine
side memory, stream contexts and SPD (05 R114-R153, 06 R163-R180, 08 R214-R224, 09 R225-R247).
-/
namespace Sys2Proof.Machine

/-- One active level of the loop stack (R133, R151). -/
structure LoopLevel where
  body : Nat
  start : Nat
  iter : Nat
  index : Nat
  deriving DecidableEq, Repr

/-- A level whose words are all 0. -/
def LoopLevel.zero : LoopLevel := ⟨0, 0, 0, 0⟩

/-- What an issued descriptor is doing: `run` may complete, `wait` waits for something outside it, and the other three
have ended. -/
inductive EntryState where
  | run | wait | done | faulted | cancelled
  deriving DecidableEq, Repr

/-- The core cycles (`Core.clk`) in which a descriptor begins, gives its place in its engine and its bank to the next,
and ends; the cycles that the array held it for its bank, and those it loaded for it alone (R165, R174-R176; log 76). -/
structure Slot where
  begins : Nat
  frees : Nat
  ends : Nat
  stall : Nat
  loads : Nat
  deriving DecidableEq, Repr

/-- An issued descriptor (R122). `unit`: 0 sequencer, 1 array, 2 VXE, 3 ROW, 4 STU, 5 bank unit (R166); `cls`: 0
neutral or ring, 1 compute, 2 load (R139). -/
structure InFlight where
  serial : Nat
  idx : Nat
  desc : BitVec 512
  unit : Nat
  cls : Nat
  loops : List LoopLevel
  /-- the bank it names and its accumulation group (R165) -/
  bank : Option (Nat × Nat)
  st : EntryState
  /-- faults found while it runs, to be raised (R143) -/
  faults : List FaultAt
  /-- device time of its issue (R136) -/
  since : Nat
  /-- where it stands in time, as its engine and its bank let it run (R165, R174, R175) -/
  slot : Slot
  /-- bytes that it leaves undefined where it is cancelled after it began (R178) -/
  spoils : List Nat
  deriving DecidableEq, Repr

/-- The list states of R151. -/
inductive ListState where
  | idle | running | halted | stoppedFault | stoppedReq
  deriving DecidableEq, Repr

def ListState.code : ListState → Nat
  | .idle => 0 | .running => 1 | .halted => 2 | .stoppedFault => 3 | .stoppedReq => 4

/-- The fault record (R143, R145) with the faulting descriptor's words. -/
structure FaultRec where
  code : Nat
  opcode : Nat
  engine : Nat
  also : Nat
  addr : Nat
  spd : Bool
  index : Nat
  /-- `DONE`, bit k − 1 for the k-th descriptor issued after the stop point -/
  done : List Bool
  desc : BitVec 512
  deriving DecidableEq, Repr

def FaultRec.clear : FaultRec := ⟨0, 0, 0, 0, 0, false, 0, [], 0⟩

/-- The sequencer (R121-R151). -/
structure Sequencer where
  base : Nat
  baseSpd : Bool
  st : ListState
  cursor : Nat
  /-- a fault has been raised and the list is stopping (R142) -/
  faultStop : Bool
  /-- a STOP is in progress (R147) -/
  reqStop : Bool
  /-- an ABANDON is in progress (R146) -/
  abandoning : Bool
  serial : Nat
  window : List InFlight
  /-- marks of the descriptors still ahead in the walk of RESUME: true = completed before the stop (R146) -/
  walk : List Bool
  loops : List LoopLevel
  /-- the words that a level of the loop stack holds while it is not active (R151, R153) -/
  spare : Store LoopLevel
  frec : FaultRec
  haltCode : Nat
  eventCode : Nat
  deriving DecidableEq, Repr

def Sequencer.reset : Sequencer :=
  ⟨0, false, .idle, 0, false, false, false, 0, [], [], [], [], FaultRec.clear, 0, 0⟩

/-- One accumulator element: running span sum and the compensated pair (R163). -/
structure BankElem where
  run : Val
  hi : Val
  lo : Val
  deriving DecidableEq, Repr

def BankElem.zero : BankElem := ⟨.zero, .zero, .zero⟩

/-- One accumulator bank (R163-R166, R180). `st`: 0 EMPTY, 1 HELD, 2 MASKED. `tst`, `tspk`: the state it will hold once
every descriptor issued so far has run without a fault (R159). -/
structure Bank where
  st : Nat
  spk : Nat
  tst : Nat
  tspk : Nat
  agrp : Nat
  spanK : Nat
  groups : Nat
  elems : Store BankElem
  deriving DecidableEq, Repr

def Bank.empty (agrp : Nat) : Bank := ⟨0, 0, 0, 0, agrp, 0, 0, []⟩

/-- An open statistics tag (R215): `start`, `run` the entries it holds. `kind`: 0 softmax, 1 layer norm, 2 RMS norm. -/
structure RowTag where
  tag : Nat
  kind : Nat
  scap : Nat
  spill : Nat
  start : Nat
  run : Nat
  deriving DecidableEq, Repr

/-- R = min(SCAP, length of the run) (R215). -/
def RowTag.resident (t : RowTag) : Nat := min t.scap t.run

/-- Statistics side memory and tag directory (R214-R219). -/
structure RowState where
  tags : List RowTag
  side : Store Quad
  written : Store Bool
  poison : Store Bool
  deriving DecidableEq, Repr

/-- Where a stream descriptor lies: an SPD offset or a near-tier offset (R226). -/
structure StreamLoc where
  spd : Bool
  off : Nat
  deriving DecidableEq, Repr

/-- State of a tile: `queued` tiles of an S_LOAD or S_STORE have not been started; a faulted one says whether its
fault has been delivered (R243). -/
inductive TileState where
  | queued | moving | moved | faulted (c : FaultCode) (delivered : Bool)
  deriving DecidableEq, Repr

/-- A tile in flight, or not yet handed over in tile order (R233, R234). `slot` counts the tiles since the context was
armed from IDLE; `owner` is the serial of the S_LOAD or S_STORE it belongs to. `counted` says that its increment of R237
has been made. `held` says it was counted as held on a block under repair (R242). -/
structure Tile where
  sd : BitVec 256
  idx : Nat
  slot : Nat
  spd : Nat
  order : Bool
  owner : Option Nat
  st : TileState
  counted : Bool
  held : Bool
  /-- the context was allowed the access when it was checked, at the tile's start (R532) -/
  admitted : Bool
  deriving DecidableEq, Repr

/-- A stream context is IDLE, ACTIVE or DISARMING (R225). -/
inductive StuState where
  | idle | active | disarming
  deriving DecidableEq, Repr

/-- One stream context (R225-R247). -/
structure StuCtx where
  st : StuState
  /-- the stream descriptor whose tiles start next; none while a fetch is pending or the pass has no tile left -/
  cur : Option (BitVec 256)
  /-- next tile to start within `cur` -/
  pos : Nat
  /-- fetch in flight for the pass: place, and the S_ARM's serial where it is an INDIR arm -/
  fetch : Option (StreamLoc × Option Nat)
  /-- the chained descriptor already fetched -/
  ahead : Option (BitVec 256)
  /-- a chained descriptor that was refused, where it lies (R243) -/
  refused : Option (StreamLoc × FaultCode)
  shadow : Option (BitVec 256)
  /-- an INDIR fetch that holds the shadow slot, with its S_ARM's serial -/
  shadowFetch : Option (StreamLoc × Nat)
  /-- the first descriptor of the current pass (R228, R230) -/
  first : BitVec 256
  tail : Nat
  acq : Nat
  head : Nat
  /-- fills or drains started since the context was armed from IDLE -/
  started : Nat
  /-- slots named by S_RELEASE so far, effective or not (R236) -/
  relRec : Nat
  tiles : List Tile
  faultCode : Nat
  faultTile : Nat
  /-- serial of the S_DISARM that waits, if one put the context in DISARMING -/
  disarmer : Option Nat
  deriving DecidableEq, Repr

def StuCtx.idle : StuCtx :=
  ⟨.idle, none, 0, none, none, none, none, none, 0, 0, 0, 0, 0, 0, [], 0, 0, none⟩

/-- Return to IDLE with all pointers at 0; the last faulted tile stays shown (R238, R247). -/
def StuCtx.toIdle (x : StuCtx) : StuCtx := { StuCtx.idle with faultCode := x.faultCode, faultTile := x.faultTile }

/-- One core site. `cnt` holds the counters of the core page by register offset. `poison` marks the 8-byte words of SPD
with an uncorrectable error (R119). -/
structure Core where
  /-- cycles of its clock while its list ran, not wrapped (the model's own; log 76) -/
  clk : Nat
  ctxValid : Bool
  ctx : Nat
  epoch : Nat
  seq : Sequencer
  dep : Store Nat
  hist : Store Nat
  histBase : Store Int
  bank0 : Bank
  bank1 : Bank
  row : RowState
  stu : Store StuCtx
  spd : Store Byte
  poison : Store Bool
  cnt : Store Nat
  /-- images that HIST_STORE has taken and merges into another device's memory, by serial (R137) -/
  images : List (Nat × List Byte)
  deriving DecidableEq, Repr

def Core.reset : Core :=
  ⟨0, false, 0, 0, Sequencer.reset, [], [], [], Bank.empty 0, Bank.empty 0, ⟨[], [], [], []⟩, [], [], [], [], []⟩

/-! Small accessors, each with one home. -/

def Core.bank (c : Core) (b : Nat) : Bank := if b = 0 then c.bank0 else c.bank1

def Core.setBank (c : Core) (b : Nat) (x : Bank) : Core := if b = 0 then { c with bank0 := x } else { c with bank1 := x }

/-- Value of a dependency counter (R128). -/
def Core.depCtr (c : Core) (k : Nat) : Nat := Store.get 0 c.dep k

/-- Add to a dependency counter, modulo 65,536 (R128). -/
def Core.addDep (c : Core) (k v : Nat) : Core := { c with dep := Store.set 0 c.dep k ((c.depCtr k + v) % 65536) }

/-- A counter has reached a value (R128). -/
def reached (ctr v : Nat) : Bool := decide ((ctr + 65536 - v % 65536) % 65536 < 32768)

def Core.counter (c : Core) (off : Nat) : Nat := Store.get 0 c.cnt off

/-- Add to a saturating counter of the core page. -/
def Core.countSat (c : Core) (off n : Nat) : Core :=
  { c with cnt := Store.set 0 c.cnt off (satAdd32 (c.counter off) n) }

/-- Add to a counter of the core page that wraps at 32 bits. -/
def Core.countWrap (c : Core) (off n : Nat) : Core :=
  { c with cnt := Store.set 0 c.cnt off ((c.counter off + n) % 2 ^ 32) }

def Core.setCounter (c : Core) (off n : Nat) : Core := { c with cnt := Store.set 0 c.cnt off n }

/-- The conversions of a descriptor count in CORE_NAN_LOST and CORE_FLUSH (R81, R151). -/
def Core.tally (c : Core) (t : Tally) : Core := (c.countSat 0x134 t.lost).countSat 0x138 t.flush

def Core.stuCtx (c : Core) (k : Nat) : StuCtx := Store.get StuCtx.idle c.stu k

def Core.setStu (c : Core) (k : Nat) (x : StuCtx) : Core := { c with stu := Store.set StuCtx.idle c.stu k x }

/-- Issued descriptors that have not ended (R122). -/
def InFlight.incomplete (e : InFlight) : Bool := e.st = .run || e.st = .wait

def Sequencer.inflight (q : Sequencer) : Nat := (q.window.filter InFlight.incomplete).length

/-- The first entry of the window with a serial. -/
def Sequencer.entry (q : Sequencer) (n : Nat) : Option InFlight := q.window.find? (·.serial = n)

/-- Change the entry with a serial. -/
def Sequencer.onEntry (q : Sequencer) (n : Nat) (f : InFlight → InFlight) : Sequencer :=
  { q with window := q.window.map fun e => if e.serial = n then f e else e }

/-- Let an entry that waited run to its completion. -/
def Core.readyEntry (c : Core) (n : Nat) : Core :=
  { c with seq := c.seq.onEntry n fun e => if e.st = .wait then { e with st := .run } else e }

/-- Let an entry that waited end with a fault to be raised. -/
def Core.faultEntry (c : Core) (n : Nat) (f : FaultAt) : Core :=
  { c with seq := c.seq.onEntry n fun e =>
      if e.st = .wait then { e with st := .run, faults := e.faults ++ [f] } else e }

/-- The phase of R139: 0 IDLE, 1 COMPUTE, 2 LOAD. -/
def Sequencer.phase (q : Sequencer) : Nat :=
  if q.window.any (fun e => e.incomplete && e.cls = 1) then 1
  else if q.window.any (fun e => e.incomplete && e.cls = 2) then 2 else 0

/-! SPD (R117, R119). -/

def Core.byte (c : Core) (a : Nat) : Byte := Store.get 0 c.spd a

def Core.bytes (c : Core) (a n : Nat) : List Byte := (List.range n).map fun i => c.byte (a + i)

/-- Is a word of the span in SPD uncorrectable (R119)? -/
def Core.spdPoison (c : Core) (a n : Nat) : Bool :=
  if c.poison.isEmpty || n = 0 then false
  else (List.range ((a + n - 1) / 8 + 1 - a / 8)).any fun i => Store.get false c.poison (a / 8 + i)

def Core.setByte (c : Core) (a : Nat) (v : Byte) : Core := { c with spd := Store.set 0 c.spd a v }

/-- Clear the uncorrectable mark of each 8-byte word that a write covers whole. -/
def Core.cleanWords (c : Core) (a n : Nat) : Core :=
  if c.poison.isEmpty then c
  else { c with poison := (List.range n).foldl (fun p i =>
      if (a + i) % 8 = 0 && i + 8 ≤ n then Store.set false p ((a + i) / 8) false else p) c.poison }

/-- Write bytes one after another. -/
def Core.putBytes (c : Core) (a : Nat) : List Byte → Core
  | [] => c
  | b :: bs => Core.putBytes (c.setByte a b) (a + 1) bs

/-- A write of consecutive bytes to SPD. -/
def Core.write (c : Core) (a : Nat) (bs : List Byte) : Core := (c.putBytes a bs).cleanWords a bs.length

/-- The number in `n` consecutive bytes. -/
def Core.num (c : Core) (a n : Nat) : Nat := leNat (c.bytes a n)

/-- Entry i of the tensor table (R100, R117). -/
def Core.tensor (c : Core) (i : Nat) : Tensor := Tensor.ofBits (bitsOf 256 (c.bytes (0x17E000 + 32 * i) 32))

/-- Is the table entry unreadable (R119)? -/
def Core.tensorPoison (c : Core) (i : Nat) : Bool := c.spdPoison (0x17E000 + 32 * i) 32

end Sys2Proof.Machine
end

