-- ==== Sys2Proof/Machine/Elem.lean ====
section
/-!
DEFINITION. Elements of tensors in SPD, the writing of results, and the histogram bank
(02 R49, R57, R60, 03 R77-R81, 04 R104).
-/
namespace Sys2Proof.Machine

/-! Reading. -/

/-- Bytes that an element touches, from a bit address. -/
def spanBytes (bitAddr w : Nat) : Nat := cdiv (bitAddr % 8 + w) 8

/-- The code of element (b, r, k). -/
def Core.code (c : Core) (t : Tensor) (b r k : Nat) : Nat :=
  let a := t.elemBit b r k
  c.num (a / 8) (spanBytes a t.fmt.width) / 2 ^ (a % 8) % 2 ^ t.fmt.width

/-- An element's exact value with its block scale (R39, R57). -/
def Core.value (c : Core) (t : Tensor) (b r k : Nat) : Val :=
  let v := decode t.fmt (c.code t b r k)
  if t.bs = 0 then v else
    let s := c.num (t.scaleAddr b r k) 1
    if s = 0xFF then .nan else v.scale ((s : Int) - 127)

/-- Is a byte of the element or of its scale uncorrectable (R119)? -/
def Core.elemPoison (c : Core) (t : Tensor) (b r k : Nat) : Bool :=
  if c.poison.isEmpty then false else
    let a := t.elemBit b r k
    c.spdPoison (a / 8) (spanBytes a t.fmt.width) || (t.bs != 0 && c.spdPoison (t.scaleAddr b r k) 1)

/-- The byte addresses of an element. -/
def Tensor.elemBytes (t : Tensor) (b r k : Nat) : List Nat :=
  let a := t.elemBit b r k
  (List.range (spanBytes a t.fmt.width)).map (a / 8 + ·)

/-! Writing. -/

/-- Replace `w` bits at a bit address. -/
def Core.setBits (c : Core) (bitAddr w v : Nat) : Core :=
  let a := bitAddr / 8
  let n := spanBytes bitAddr w
  let old := c.num a n
  let lo := old % 2 ^ (bitAddr % 8)
  let hi := old / 2 ^ (bitAddr % 8 + w)
  c.write a (natLe n (lo + v % 2 ^ w * 2 ^ (bitAddr % 8) + hi * 2 ^ (bitAddr % 8 + w)))

/-- Store the code of an element. -/
def Core.setCode (c : Core) (t : Tensor) (b r k v : Nat) : Core := c.setBits (t.elemBit b r k) t.fmt.width v

/-- Give bytes undefined contents: free values (log 3). -/
def Core.scramble (c : Core) (free : Nat) : List Nat → Core
  | [] => c
  | a :: as => Core.scramble (c.setByte a ((Config.freeWord free).truncate 8)) (free + 1) as

/-! The histogram bank: index 68·slot + bin, then 64 NAN_CNT, 65 SAT_CNT, 66 FLUSH_CNT, 67 TOTAL (R80). -/

def Core.histCount (c : Core) (slot i : Nat) : Nat := Store.get 0 c.hist (68 * slot + i)

def Core.histAdd (c : Core) (slot i n : Nat) : Core :=
  { c with hist := Store.set 0 c.hist (68 * slot + i) (satAdd32 (c.histCount slot i) n) }

def Core.histBaseOf (c : Core) (slot : Nat) : Int := Store.get (-40) c.histBase slot

/-- Count one written element (R78, R79): its value and the events of its rounding. -/
def Core.histWritten (c : Core) (slot : Nat) (v : Val) (e : Enc) : Core :=
  let c := c.histAdd slot (histBin (c.histBaseOf slot) v) 1
  let inf := match v with | .inf _ => true | _ => false
  let c := if e.exceed || inf then c.histAdd slot 65 1 else c
  let c := if e.flush then c.histAdd slot 66 1 else c
  c.histAdd slot 67 1

/-- All counts of a slot to 0 (R132). -/
def Core.histClear (c : Core) (slot : Nat) : Core :=
  { c with hist := (List.range 68).foldl (fun h i => Store.set 0 h (68 * slot + i) 0) c.hist }

/-- The 320-byte image of a slot (R80). -/
def Core.histImage (c : Core) (slot : Nat) : List Byte :=
  ((List.range 68).map fun i => natLe 4 (c.histCount slot i)).flatten
    ++ natLe 4 ((c.histBaseOf slot) % 512).toNat ++ List.replicate 44 0

/-- What a result element takes: a value to be rounded, or a code that passes as it stands. -/
inductive Item where
  | val (v : Val)
  | raw (code : Nat)
  deriving DecidableEq, Repr

/-- How a descriptor writes its results: rounding, overflow, draw of the stochastic rounding by linear index, and the
histogram slot (R84, R137). -/
structure Writer where
  rnd : Nat
  ovf : Nat
  r12 : Nat → Nat
  slot : Option Nat

/-- A core after some writes, with the counts of its roundings. -/
abbrev Written := Core × Tally

/-- Count an element that was written. -/
def countElem (w : Writer) (x : Written) (v : Val) (e : Enc) : Written :=
  (match w.slot with | some k => x.1.histWritten k v e | none => x.1, x.2.add e)

/-- Write one element of a tensor without block scale. -/
def writeElem (w : Writer) (t : Tensor) (b r k : Nat) (x : Written) (i : Item) : Written :=
  match i with
  | .val v =>
    let e := encode t.fmt w.rnd w.ovf (w.r12 (t.elemIndex b r k)) v
    countElem w (x.1.setCode t b r k e.code, x.2) (decode t.fmt e.code) e
  | .raw q => countElem w (x.1.setCode t b r k q, x.2) (decode t.fmt q) ⟨q, false, false, false⟩

/-- The value an item stands for. -/
def Item.value (t : Tensor) : Item → Val
  | .val v => v
  | .raw q => decode t.fmt q

/-- Write the elements of one block with the scale of R60. -/
def writeBlock (w : Writer) (t : Tensor) (b : Nat) (cells : List (Nat × Nat × Item)) (x : Written) : Written :=
  match cells with
  | [] => x
  | (r0, k0, _) :: _ =>
    let p := encodeBlock t.fmt w.rnd w.ovf
      (cells.map fun q => (w.r12 (t.elemIndex b q.1 q.2.1), q.2.2.value t))
    let x : Written := (x.1.write (t.scaleAddr b r0 k0) [BitVec.ofNat 8 p.1], x.2)
    (cells.zip p.2).foldl (fun x q =>
      let v := if p.1 = 0xFF then Val.nan else (decode t.fmt q.2.code).scale ((p.1 : Int) - 127)
      countElem w (x.1.setCode t b q.1.1 q.1.2.1 q.2.code, x.2) v q.2) x

/-- The block of a cell. -/
def Tensor.blockOf (t : Tensor) (q : Nat × Nat × Item) : Nat × Nat := (q.1 / t.rowDiv, q.2.1 / t.colDiv)

/-- Write result elements (r, c, item) of matrix b, in order; a block-scaled tensor block by block. -/
def writeCells (w : Writer) (t : Tensor) (b : Nat) (cells : List (Nat × Nat × Item)) (c : Core) : Written :=
  if t.bs = 0 then cells.foldl (fun x q => writeElem w t b q.1 q.2.1 x q.2.2) (c, .zero)
  else
    ((cells.map t.blockOf).eraseDups).foldl
      (fun x k => writeBlock w t b (cells.filter fun q => t.blockOf q = k) x) (c, .zero)

/-- The cells of the padding of an edge tile (R104). -/
def Tensor.paddingOf (t : Tensor) (tr tc : Nat) : List (Nat × Nat) :=
  ((List.range 64).map fun i => (List.range 64).filterMap fun j =>
    let r := 64 * tr + i
    let k := 64 * tc + j
    if t.rows ≤ r || t.cols ≤ k then some (r, k) else none).flatten

/-- Write +0 codes into the padding of a tile (R104); padding is not counted (R170). -/
def Core.padTile (c : Core) (t : Tensor) (b tr tc : Nat) : Core :=
  (t.paddingOf tr tc).foldl (fun c q => c.setCode t b q.1 q.2 0) c

/-- Pad each edge tile of a square-tile tensor whose elements a region writes whole (R104). -/
def Core.padRegion (c : Core) (t : Tensor) (b r0 nr c0 nc : Nat) : Core :=
  if t.layout = 1 || nr = 0 || nc = 0 then c else
  (List.range (cdiv t.rows 64)).foldl (fun c tr =>
    (List.range (cdiv t.cols 64)).foldl (fun c tc =>
      if (t.rows < 64 * tr + 64 || t.cols < 64 * tc + 64)
          && r0 ≤ 64 * tr && min t.rows (64 * tr + 64) ≤ r0 + nr
          && c0 ≤ 64 * tc && min t.cols (64 * tc + 64) ≤ c0 + nc
      then c.padTile t b tr tc else c) c) c

/-- What running a descriptor gives: the core, the faults found in execution or at completion, and how many free
values were drawn. -/
structure RunRes where
  core : Core
  faults : List FaultAt
  drawn : Nat

def RunRes.ok (c : Core) : RunRes := ⟨c, [], 0⟩

/-- A run that ends with `POISON_INPUT`: the bytes it would have written are undefined (R143, R201). -/
def RunRes.poisoned (c : Core) (free addr : Nat) (bytes : List Nat) : RunRes :=
  ⟨c.scramble free bytes, [.atSpd .poisonInput addr], bytes.length⟩

/-- Fault of R45: raised once at completion. -/
def ovfFaults (ovf : Nat) (t : Tally) : List FaultAt := faultIf (ovf == 2 && t.exceed != 0) (.plain .ovfFault)

/-- The first poisoned element among some, as its byte address. -/
def firstPoison (c : Core) (t : Tensor) (b : Nat) (cells : List (Nat × Nat)) : Option Nat :=
  if c.poison.isEmpty then none else
  (cells.find? fun q => c.elemPoison t b q.1 q.2).map fun q => t.elemBit b q.1 q.2 / 8

/-- The rows × columns of a region. -/
def regionCells (r0 nr c0 nc : Nat) : List (Nat × Nat) :=
  ((List.range nr).map fun i => (List.range nc).map fun j => (r0 + i, c0 + j)).flatten

/-- Bytes of both lists. -/
def overlapBytes (a b : List Nat) : List Nat := a.filter fun x => b.contains x

/-- Every byte of a region of a tensor, its scales among them. -/
def Tensor.regionBytes (t : Tensor) (b : Nat) (cells : List (Nat × Nat)) : List Nat :=
  ((cells.map fun q => t.elemBytes b q.1 q.2 ++ (if t.bs = 0 then [] else [t.scaleAddr b q.1 q.2])).flatten).eraseDups

/-- The spans of a tensor: its footprint and, where it is block-scaled, its scale tensor's (R112). -/
def Tensor.spans (t : Tensor) : List (Nat × Nat) :=
  (t.base, t.footprint) :: (if t.bs = 0 then [] else [(t.scaleBase, t.scaleFootprint)])

/-- Does a byte lie in the tensor or its scales? -/
def Tensor.holds (t : Tensor) (x : Nat) : Bool := t.spans.any fun p => p.1 ≤ x && x < p.1 + p.2

/-- May two tensors share bytes? -/
def Tensor.mayOverlap (t u : Tensor) : Bool :=
  t.spans.any fun p => u.spans.any fun q => p.1 < q.1 + q.2 && q.1 < p.1 + p.2

end Sys2Proof.Machine
end

