-- ==== Sys2Proof/Machine/Desc.lean ====
section
/-!
DEFINITION. The common header and tail of a work descriptor and the checks every opcode makes at issue (05 R125-R131).
-/
namespace Sys2Proof.Machine

/-- A work descriptor: 64 bytes, little-endian (R125). -/
abbrev Desc := BitVec 512

namespace Dsc
def opcode (d : Desc) : Nat := dfld d 0 7 0
def ver (d : Desc) : Nat := dfld d 0 11 8
def wctr (d : Desc) : Nat := dfld d 0 19 16
def wen (d : Desc) : Bool := dbit d 0 20
def sen (d : Desc) : Bool := dbit d 0 21
def hen (d : Desc) : Bool := dbit d 0 22
def sctr (d : Desc) : Nat := dfld d 0 27 24
def hslot (d : Desc) : Nat := dfld d 0 31 28
def wval (d : Desc) : Nat := dfld d 0 47 32
def lmask (d : Desc) : Nat := dfld d 0 53 50
def llvl (d : Desc) : Nat := dfld d 0 55 54
def lstep (d : Desc) : Nat := dfld d 0 63 56
def sid (d : Desc) : Nat := dfld d 0x38 31 0
def sidv (d : Desc) : Bool := dbit d 0x38 32
def rnd (d : Desc) : Nat := dfld d 0x38 34 33
def ovf (d : Desc) : Nat := dfld d 0x38 36 35
end Dsc

/-- A field of a descriptor: offset of its 64-bit word, high bit, low bit. -/
abbrev Field := Nat × Nat × Nat

/-- The bits of some fields, as a mask. -/
def fieldMask (fs : List Field) : Nat := fs.foldl (fun m f => m ||| ((2 ^ (f.2.1 + 1 - f.2.2) - 1) <<< (8 * f.1 + f.2.2))) 0

/-- Header and tail fields of R125. -/
def headerFields : List Field := [(0, 63, 50), (0, 47, 24), (0, 22, 16), (0, 11, 0), (0x38, 36, 0)]

/-- Is a reserved bit set, `fs` being the fields the opcode defines in bytes 0x08 to 0x37 (R125, R127)? -/
def reservedSet (d : Desc) (fs : List Field) : Bool :=
  d.toNat &&& fieldMask (headerFields ++ fs) != d.toNat

/-- The iteration index that steps the tensor indices, where enough loops are active (R126). -/
def stepIndex (d : Desc) (loops : List LoopLevel) : Option Nat := (loops.reverse[Dsc.llvl d]?).map (·.index)

/-- `BAD_DESCRIPTOR` of R126: `tis` are the tensor-index fields the opcode has. -/
def lmaskBad (d : Desc) (loops : List LoopLevel) (tis : List Nat) : Bool :=
  Dsc.lmask d != 0 &&
    ((stepIndex d loops).isNone || (List.range 4).any fun j => (Dsc.lmask d).testBit j && !tis.contains j)

/-- The index of tensor field TIj (R126); the fields lie at offset 0x08, bits 8j+7:8j. -/
def tensorIndex (d : Desc) (loops : List LoopLevel) (j : Nat) : Nat :=
  let ti := dfld d 8 (8 * j + 7) (8 * j)
  if (Dsc.lmask d).testBit j then (ti + Dsc.lstep d * (stepIndex d loops).getD 0) % 256 else ti

/-- The checks of the header and the tail that every opcode shares, assigned or not (R125). -/
def headBad (d : Desc) : Bool := Dsc.ver d != 3 || reservedSet d [(8, 383, 0)]

/-- The `BAD_DESCRIPTOR` checks every opcode makes (R125-R127). -/
def commonBad (d : Desc) (loops : List LoopLevel) (fs : List Field) (tis : List Nat) (writes : Bool) : Bool :=
  Dsc.ver d != 3 || reservedSet d fs || lmaskBad d loops tis ||
  (writes && (Dsc.rnd d == 3 || Dsc.ovf d == 3 || (Dsc.rnd d == 2 && !Dsc.sidv d))) ||
  (!writes && Dsc.hen d)

/-- What a descriptor sees beside its core: the loop stack at its issue, the stride generator (stream, draw, element),
and the free values it may take. -/
structure Env where
  loops : List LoopLevel
  draw : Nat → Nat → Nat → Quad
  free : Nat

/-- The tensor that field TIj names (R100). -/
def Core.ti (c : Core) (e : Env) (d : Desc) (j : Nat) : Tensor := c.tensor (tensorIndex d e.loops j)

/-- Is the table entry of TIj uncorrectable? Returns its offset (R119). -/
def tiPoison (c : Core) (e : Env) (d : Desc) (js : List Nat) : Option Nat :=
  (js.map fun j => tensorIndex d e.loops j).find? c.tensorPoison |>.map fun i => 0x17E000 + 32 * i

/-- How a descriptor writes: R84, R137. -/
def writerOf (e : Env) (d : Desc) : Writer where
  rnd := Dsc.rnd d
  ovf := Dsc.ovf d
  r12 := fun i => (e.draw (Dsc.sid d) 15 i).toNat % 4096
  slot := if Dsc.hen d then some (Dsc.hslot d) else none

/-- The bank an MXE descriptor names: BANK and AGRP at 0x20 (R157, R167, R169). -/
def mxeBank (d : Desc) : Nat × Nat := (dfld d 0x20 4 4, dfld d 0x20 3 0)

/-- Does an incomplete descriptor name the bank with another accumulation group (R165)? -/
def accConflict (c : Core) (b : Nat × Nat) : Bool :=
  c.seq.window.any fun e => e.incomplete && match e.bank with
    | some k => k.1 = b.1 && k.2 != b.2
    | none => false

/-- Does it name the bank (R165)? -/
def InFlight.names (e : InFlight) (b : Nat) : Bool := match e.bank with | some k => k.1 = b | none => false

/-- Is an incomplete descriptor naming the bank ahead (R165)? -/
def bankBusy (c : Core) (b : Nat) : Bool := c.seq.window.any fun e => e.incomplete && e.names b

/-- The first cycle in which an engine has given up every descriptor ahead (R166). -/
def Core.engineFree (c : Core) (unit : Nat) : Nat :=
  ((c.seq.window.filter fun e => e.incomplete && e.unit = unit).map fun e => e.slot.frees).foldl max c.clk

/-- The first cycle in which a bank lets the next descriptor begin. Behind a product, one that is `late` waits for its
end and any other for its last row only (R165, R185). -/
def Core.bankOpens (c : Core) (b : Nat) (late : Bool) : Nat :=
  ((c.seq.window.filter fun e => e.incomplete && e.names b).map fun e =>
    if late && e.unit = 1 then e.slot.ends else e.slot.frees).foldl max c.clk

/-- Does a descriptor wait for its bank when its engine could take it (R165, R180; log 76)? -/
def Core.heldForBank (c : Core) (unit b : Nat) (late : Bool) : Bool := c.engineFree unit < c.bankOpens b late

/-- A descriptor that runs `cyc` cycles from when its engine and its bank are free, and ends `lat` later (R165, R175). -/
def Core.slotFor (c : Core) (unit : Nat) (bank : Option Nat) (late : Bool) (cyc lat : Nat) : Slot :=
  let o := max (c.engineFree unit) (match bank with | some b => c.bankOpens b late | none => c.clk)
  ⟨o, o + cyc, o + cyc + lat, 0, 0⟩

end Sys2Proof.Machine
end

