-- ==== Sys2Proof/Machine/Codec.lean ====
section
/-!
DEFINITION. How the outer tier stores data: placement, the Reed–Solomon code, the sector map byte and the block
codec (10 R248-R262); the snapshot digest's CRC-64 is beside the unit that uses it.
-/
namespace Sys2Proof.Machine

/-- Group, group-local block number and byte offset of a local outer-tier address (R249). -/
def place (hta : Bool) (a : Nat) : Nat × Nat × Nat :=
  let b := a / 4096
  if hta then (2 * ((b ^^^ (b / 2) ^^^ (b / 4) ^^^ (b / 8)) % 2), b / 2, a % 4096)
  else ((b ^^^ (b / 4) ^^^ (b / 16) ^^^ (b / 64)) % 4, b / 4, a % 4096)

/-- Channel of sector s of a block (R249). -/
def sectorChannel (s : Nat) : Nat := s % 4

/-- Channel-local number of sector s of group-local block L (R249). -/
def channelSector (L s : Nat) : Nat := 4 * L + s / 4

/-! RS(144,128) over GF(2⁸) (R250). -/

/-- Multiplication in GF(2⁸) by the polynomial x⁸ + x⁴ + x³ + x² + 1. -/
def gfMul (a b : Nat) : Nat :=
  ((List.range 8).foldl (fun (p : Nat × Nat) i =>
    (if b.testBit i then p.1 ^^^ p.2 else p.1,
      if p.2 < 128 then 2 * p.2 else (2 * p.2) ^^^ 0x11D)) (0, a)).1

/-- α^i. -/
def gfPow (i : Nat) : Nat := (List.range i).foldl (fun x _ => gfMul x 2) 1

/-- Multiply a polynomial, highest power first, by x − c. -/
def polyTimes (p : List Nat) (c : Nat) : List Nat :=
  List.zipWith (· ^^^ ·) (p ++ [0]) (0 :: p.map (gfMul c))

/-- g(x) = (x − α⁰)…(x − α¹⁵), highest power first (R250). -/
def rsGenerator : List Nat := (List.range 16).foldl (fun p i => polyTimes p (gfPow i)) [1]

/-- One step of the division: the remainder after taking in a message symbol. -/
def rsStep (rem : List Nat) (m : Nat) : List Nat :=
  let f := m ^^^ rem.headD 0
  List.zipWith (fun r g => r ^^^ gfMul f g) (rem.drop 1 ++ [0]) (rsGenerator.drop 1)

/-- The 16 check symbols of a 128-symbol message, highest power first (R250). -/
def rsCheck (msg : List Nat) : List Nat := msg.foldl rsStep (List.replicate 16 0)

/-- Message k of a 256-byte sector: the bytes b with b mod 2 = k (R250). -/
def sectorMessage (s : List Byte) (k : Nat) : List Nat :=
  (List.range 128).map fun i => ((s[2 * i + k]?).getD 0).toNat

/-- The 32 bytes of package 8 for a sector (R250). -/
def sectorCheck (s : List Byte) : List Byte :=
  let c0 := rsCheck (sectorMessage s 0)
  let c1 := rsCheck (sectorMessage s 1)
  (List.zipWith (fun a b => [BitVec.ofNat 8 a, BitVec.ofNat 8 b]) c0 c1).flatten

/-- The 288 bytes that the nine packages hold of a sector: 32 of each, package 8 the check symbols (R248, R250). The check
symbols are a function of the data, so State holds the data alone (log 41). -/
def sectorStored (s : List Byte) : List Byte := s ++ sectorCheck s

/-- Symbol i of codeword k of a stored sector, the coefficient of x^(143 − i) (R250). -/
def codewordSymbol (stored : List Byte) (k i : Nat) : Byte := (stored[2 * i + k]?).getD 0

/-- Package that holds symbol i of a codeword (R250). -/
def symbolPackage (i : Nat) : Nat := i / 16

/-! The sector map byte (R255). -/

def mapRepair (m : Byte) : Bool := m.getLsbD 6
def mapPoison (m : Byte) : Bool := m.getLsbD 5
def mapWritten (m : Byte) : Bool := m.getLsbD 4
def mapNsec (m : Byte) : Nat := m.toNat % 16 + 1

/-- A map byte with its fields. -/
def mapByte (repair poison written : Bool) (nsec : Nat) : Byte :=
  BitVec.ofNat 8 (repair.toNat * 64 + poison.toNat * 32 + written.toNat * 16 + (nsec - 1) % 16)

/-! The block codec (R259-R262). -/

/-- Put signed values into fields of w bits, from bit 0 of the first byte up (R260). -/
def putBits (w : Nat) (ds : List Int) : List Byte :=
  let n := (ds.zip (List.range ds.length)).foldl (fun s p => s + (p.1 % ((2 ^ w : Nat) : Int)).toNat * 2 ^ (w * p.2)) 0
  natLe (cdiv (ds.length * w) 8) n

/-- Read n signed fields of w bits. -/
def getBits (w n : Nat) (bs : List Byte) : List Int :=
  let v := leNat bs
  (List.range n).map fun i => signedOf w (v / 2 ^ (w * i) % 2 ^ w)

/-- The differences of values to a base, modulo a power of two, as signed numbers. -/
def deltas (wmod base : Nat) (vs : List Nat) : List Int :=
  vs.map fun v => signedOf wmod ((v + 2 ^ wmod - base % 2 ^ wmod) % 2 ^ wmod)

/-- Do all deltas fit w bits? -/
def fits (w : Nat) (ds : List Int) : Bool :=
  ds.all fun d => decide (-((2 ^ (w - 1) : Nat) : Int) ≤ d) && decide (d < ((2 ^ (w - 1) : Nat) : Int))

/-- The 32 words of a line. -/
def lineWords (x : List Byte) : List Nat :=
  (List.range 32).map fun j => ((x[2 * j]?).getD 0).toNat + 256 * ((x[2 * j + 1]?).getD 0).toNat

def lineLow (x : List Byte) : List Byte := (List.range 32).map fun j => (x[2 * j]?).getD 0
def lineHigh (x : List Byte) : List Byte := (List.range 32).map fun j => (x[2 * j + 1]?).getD 0

/-- The payload of a line under a code, where the code can hold it (R260). -/
def codeLine (x : List Byte) (c : Nat) : Option (List Byte) :=
  if c ≤ 7 then
    let ws := lineWords x
    let ds := deltas 16 (ws.headD 0) (ws.drop 1)
    if fits (2 * c) ds then some (natLe 2 (ws.headD 0) ++ putBits (2 * c) ds) else none
  else
    let hs := (lineHigh x).map (·.toNat)
    let ds := deltas 8 (hs.headD 0) (hs.drop 1)
    if fits (c - 7) ds then some (lineLow x ++ natLe 1 (hs.headD 0) ++ putBits (c - 7) ds) else none

/-- The best coding of a line: smallest payload, ties to the lowest code (R262). -/
def bestLine (x : List Byte) : Nat × List Byte :=
  if x.all (· = 0) then (0, []) else
  ((List.range 14).map (· + 1)).foldl (fun best c =>
    match codeLine x c with
    | some b => if b.length < best.2.length then (c, b) else best
    | none => best) (15, x)

/-- Line i of a block. -/
def blockLine (x : List Byte) (i : Nat) : List Byte := (x.drop (64 * i)).take 64

/-- The stream of a block and its number of sectors (R262). -/
def encodeStored (x : List Byte) : List Byte × Nat :=
  let ls := (List.range 64).map fun i => bestLine (blockLine x i)
  let pay := (ls.map (·.2)).flatten
  let total := 40 + pay.length
  let n := cdiv total 256
  if 15 < n then (x, 16) else
    let codes := ls.map (·.1)
    let hdr := natLe 1 1 ++ natLe 1 n ++ natLe 2 total ++ natLe 4 0 ++
      (List.range 32).map fun j => BitVec.ofNat 8 ((codes[2 * j]?).getD 0 + 16 * (codes[2 * j + 1]?).getD 0)
    let s := hdr ++ pay
    (s ++ List.replicate (256 * n - s.length) 0, n)

/-- One line of a stored stream at byte p: its bytes and the place after it (R261). -/
def decodeLine (s : List Byte) (c p : Nat) : List Byte × Nat :=
  if c = 0 then (List.replicate 64 0, p)
  else if c = 15 then ((s.drop p).take 64, p + 64)
  else if c ≤ 7 then
    let base := leNat ((s.drop p).take 2)
    let n := cdiv (31 * (2 * c)) 8
    let ds := getBits (2 * c) 31 ((s.drop (p + 2)).take n)
    (((base :: ds.map fun d => (((base : Int) + d) % 65536).toNat).map (natLe 2)).flatten, p + 2 + n)
  else
    let lo := (s.drop p).take 32
    let base := leNat ((s.drop (p + 32)).take 1)
    let n := cdiv (31 * (c - 7)) 8
    let hi := base :: (getBits (c - 7) 31 ((s.drop (p + 33)).take n)).map fun d => (((base : Int) + d) % 256).toNat
    ((List.zipWith (fun l h => [l, BitVec.ofNat 8 h]) lo hi).flatten, p + 33 + n)

/-- The block of a stored stream; none where it is corrupt (R261). -/
def decodeStored (s : List Byte) (nsec : Nat) : Option (List Byte) :=
  if nsec = 16 then some s else
    let total := leNat ((s.drop 2).take 2)
    if leNat (s.take 1) != 1 || leNat ((s.drop 1).take 1) != nsec || leNat ((s.drop 4).take 4) != 0
        || total < 40 || 256 * nsec < total then none
    else
      let r := (List.range 64).foldl (fun (acc : List Byte × Nat) i =>
        let c := ((s[8 + i / 2]?).getD 0).toNat / 16 ^ (i % 2) % 16
        let q := decodeLine s c acc.2
        (acc.1 ++ q.1, q.2)) ([], 40)
      if r.2 != total || (s.drop total).any (· != 0) || r.1.length != 4096 then none else some r.1

end Sys2Proof.Machine
end

