-- ==== Sys2Proof/Machine/DevState.lean ====
section
/-!
DEFINITION. Device-wide state: identity, time, latches, runs and their claims, transactions on the links, and what
the part has sent to the outside (00 R1-R12, 01 R22-R29, 15 R398-R404, 16 R429-R432).
-/
namespace Sys2Proof.Machine

/-- A span of local addresses. -/
structure Range where
  base : Nat
  len : Nat
  deriving DecidableEq, Repr

/-- What a run holds on this device (R26, R429). -/
structure Claims where
  cores : List Nat
  /-- outer-tier ranges owned -/
  owned : List Range
  /-- owned ranges offered to readers (R532) -/
  shares : List Range
  /-- ranges granted for reading, each with the context that owns it (R532) -/
  grants : List (Range × Nat)
  /-- pool pages pinned -/
  pins : List Nat
  hurdles : List Nat
  chans : List Nat
  /-- KV sequence contexts, first and last -/
  kv : List (Nat × Nat)
  sch : Bool
  hvu : Bool
  kvd : Bool
  pacer : Bool
  mde : Bool
  sau : Bool
  pipes : List Nat
  /-- media and sensor stream contexts, first and last -/
  mstreams : List (Nat × Nat)
  sstreams : List (Nat × Nat)
  timers : List Nat
  /-- stride generator keys: stream set and key (R83) -/
  keys : List (Nat × BitVec 128)
  deriving DecidableEq, Repr

def Claims.none : Claims :=
  ⟨[], [], [], [], [], [], [], [], false, false, false, false, false, false, [], [], [], [], []⟩

/-- Identity of the device as latched and in effect (R7, R86-R88). -/
structure Dev where
  variant : Variant
  strapGroup : BitVec 5
  strapSlot : BitVec 6
  anchor : Bool
  group : BitVec 5
  slot : BitVec 6
  /-- nanoseconds since the module left reset (R22) -/
  time : Nat
  /-- DEV_TIME_HI, PWC_ENERGY_HI and DEV_TCAP_HI as latched, by 16·register + requester (R22) -/
  latches : Store Word
  /-- nJ drawn (R467) -/
  energy : Nat
  /-- DEV_TIME at the last capture (R519) -/
  tcap : Nat
  /-- physical site of each logical core (R115) -/
  coreMap : Store Nat
  deriving DecidableEq, Repr

/-- Whose request a link or host transaction is. -/
inductive Client where
  | tile (site ctx slot : Nat)
  | store (site serial : Nat)
  | bucketWrite (bucket owner : Nat)
  | gather (bucket rank : Nat)
  | buddy (bucket : Nat)
  | digestFix (bucket rank : Nat)
  | repair (group slot : Nat)
  | pacer (entry : Nat)
  | media (sample : Nat)
  | mediaOut
  | sensor (stream : Nat)
  | host
  | bus
  | relay (src : BitVec 11) (tag : BitVec 12) (ctx : BitVec 3)
  | firmware (what : Nat)
  deriving DecidableEq, Repr

/-- A read or write that this device has sent and that is not answered yet (R398, R404). `dst` is the device named,
2048 for the host behind this anchor, where `addr` is an offset in the host window. `parts` holds the bytes that came,
by address, and `crd` the pieces of compressed blocks. `wait` counts the acknowledgements to come; `status`: 0 no fault. -/
structure Txn where
  tag : Nat
  client : Client
  dst : Nat
  addr : Nat
  len : Nat
  write : Bool
  parts : List (Nat × List Byte)
  crd : List (Nat × List Byte)
  wait : Nat
  done : Bool
  status : Nat
  since : Nat
  deriving DecidableEq, Repr

/-- A signal on its way to a counter (R135). `sender` is the core site that sends it, or 136 for the Pacer, 137 for the
control cores, 138 for the MDE and 139 for the SAU (R20). `src` is the site and descriptor serial that it waits behind
(R130). -/
structure Signal where
  sender : Nat
  lcore : Nat
  ctr : Nat
  add : Nat
  after : Bool
  src : Option (Nat × Nat)
  deriving DecidableEq, Repr

/-- What the part sends to the outside, oldest first (log 4). -/
inductive Sent where
  /-- a packet that leaves over a port -/
  | packet (port : Nat) (k : Packet)
  | hostRead (tag addr len : Nat)
  | hostWrite (addr : Nat) (data : List Byte)
  /-- completion of a host access: 0 successful, 1 Unsupported Request, 2 Completer Abort, 3 Request Retry, 4 data marked
  poisoned -/
  | hostReply (status : Nat) (data : List Byte)
  | msix (vec : Nat)
  /-- the answer of a register access to a control core or the MGC; none where it aborts -/
  | regReply (v : Option Word)
  /-- the bytes of a read, or the fault code it ended with -/
  | readReply (data : List Byte) (fault : Nat)
  | linkctl (port : Nat) (m : LinkMsg)
  /-- a `DATA` frame sent again from the relay (R403) -/
  | replay (port : Nat) (fseq : Nat)
  /-- a management response: completion code and body -/
  | mgmt (code : Nat) (body : List Byte)
  /-- a platform event to the event receiver -/
  | platformEvent (kind value : Nat)
  | tdo (value : Nat)
  /-- a home block of another device, or of the host window (device 2048), that a write-back marks poisoned (R267); R398 has
  no packet that says so (log 24) -/
  | poison (dst addr : Nat)
  deriving DecidableEq, Repr

/-- The part of a group run on another device (R431): its device, the number of its entry in that device's list, and the
header word 0x20 that it answered with. -/
structure RunPart where
  device : Nat
  seq : Nat
  answer : Option Nat
  deriving DecidableEq, Repr

/-- A run in a context (R429-R432). -/
structure Run where
  list : Nat
  entry : Nat
  /-- where the entry lies -/
  addr : Nat
  claims : Claims
  stepno : Nat
  /-- the entry has become `ACCEPTED`; a group run waits for its parts first -/
  accepted : Bool
  /-- 0 active; 1 an END entry waits for the lists; 2 ending after ABORT or a fault -/
  ending : Nat
  /-- the status that the end reports, with its `DETAIL`, `DEVICE`, `LCORE` and `LINDEX` -/
  status : Nat
  detail : Nat
  device : Nat
  lcore : Nat
  lindex : Nat
  parts : List RunPart
  since : Nat
  deriving DecidableEq, Repr

end Sys2Proof.Machine
end

