-- ==== Sys2Proof/Machine/InputState.lean ====
section
/-!
DEFINITION. The state of the KVD, the MDE and the SAU beyond their registers and the memory they use (13 R348-R368,
14 R369-R392).
-/
namespace Sys2Proof.Machine

/-- A move in flight (R362): a spill copies the group's slots to the backing, a promotion copies the backing into `slots`. -/
structure KvdMove where
  seq : Nat
  group : Nat
  spill : Bool
  slots : List Nat
  deriving DecidableEq, Repr

/-- The KVD. `dir` is the directory by sequence context (R350). `phase`: 0 idle, 1 admission, 3 maintenance (R367; the fold
of `STEP_END` is one step of this model). `cursor` and `seen` are the place in the batch list and the sequences that came
before it. `stepped` holds each stepped sequence with its old `LEN` and `NEW`. `due`: the admitted step's walk is to be
emitted, and `starts` names the sites whose lists it starts (R361). `walked` holds the sequences that a walk has read
since the last `STEP_END` (R362). `slots`: 0 free, 1 taken, 2 freed at the next `STEP_END`, 3 free once no stream
context holds its page. -/
structure Kvd where
  dir : Store (BitVec 256)
  phase : Nat
  clearing : Bool
  cursor : Nat
  seen : List Nat
  stepped : List (Nat × Nat × Nat)
  due : Bool
  starts : List Nat
  walked : List Nat
  slots : Store Nat
  moves : List KvdMove
  deriving DecidableEq, Repr

def Kvd.reset : Kvd := ⟨[], 0, false, 0, [], [], false, [], [], [], []⟩

/-- What has become of a sample position or of an alignment (R376-R380). `tries` counts the attempts made, the current
one included; `reason` is that of the first rejection, `rsv` the reserve index of the current attempt, 0xFFFF for none.
`st`: 0 waits for a pipe, 1 in a pipe, 2 accepted, 3 rejected, 4 written as zeros by replay. -/
structure Attempt where
  pos : Nat
  tries : Nat
  reason : Nat
  rsv : Nat
  st : Nat
  diverge : Bool
  deriving DecidableEq, Repr

/-- An MDE job in the queue: its 128 bytes, its context, its position in the push order of its lap, the next position
to start and the next to commit. -/
structure MdeJob where
  serial : Nat
  bits : BitVec 1024
  ctx : Nat
  order : Nat
  next : Nat
  commit : Nat
  atts : List Attempt
  /-- an element overflowed under `OVF` 2 -/
  ovf : Bool
  deriving DecidableEq, Repr

/-- A decode pipe at work, since a device time. `sctx` is the stream context of the sample: it holds that sample's headers
while the decode lasts, and nothing from one sample to the next (R370). -/
structure MdePipe where
  job : Nat
  pos : Nat
  since : Nat
  sctx : Nat
  head : MediaHeader
  deriving DecidableEq, Repr

/-- An SAU job in the queue (R383). `asked`: record arrays of other devices have been asked for (R389). -/
structure SauJob where
  bits : BitVec 768
  ctx : Nat
  att : Option Attempt
  asked : Bool
  deriving DecidableEq, Repr

/-- The MDE and the SAU. `means` holds `MDE_MEANk` by 8·context + k, and `bank` the context that a register access
reaches. `owner` and `releasing` are `MDE_STAGE` (R382). -/
structure Input where
  jobs : List MdeJob
  pipes : Store (Option MdePipe)
  serial : Nat
  pushed : Store Nat
  means : Store Word
  bank : Nat
  sau : List SauJob
  owner : Nat
  releasing : Bool
  /-- job faults that firmware has not answered yet: run context and fault code (R373, R432) -/
  faults : List (Nat × Nat)
  deriving DecidableEq, Repr

def Input.reset : Input := ⟨[], [], 0, [], [], 0, [], 0, false, []⟩

end Sys2Proof.Machine
end

