-- ==== Sys2Proof/Machine/LinkState.lean ====
section
/-!
DEFINITION. The state of the Flaip ports: lanes, sequence numbers, credits, relays, and write transactions that arrive
(15 R393-R408).
-/
namespace Sys2Proof.Machine

/-- A `DATA` frame in the relay: its sequence number, how often it was sent, and the packet it carries (R403, log 40). -/
structure RelayFrame where
  fseq : Nat
  sends : Nat
  pkt : Packet
  deriving DecidableEq, Repr

/-- One Flaip port. `st` is `FL_STATE.STATE`: 0 DISABLED, 1 DOWN, 2 TRAINING, 3 ACTIVE, 4 RESHAPE. -/
structure Port where
  st : Nat
  /-- active lanes -/
  lanes : Nat
  peerPort : Nat
  peerId : Nat
  /-- step of the training timeline in progress, 1 to 5 (R406), and whether it is a retrain (R407) -/
  step : Nat
  retrain : Bool
  /-- device time at which the step, or the wait for an acknowledgement, began -/
  since : Nat
  txSeq : Nat
  rxNext : Nat
  nacking : Bool
  /-- codeword count that comes next, 16 before the first (R395) -/
  rxLcnt : Nat
  /-- relay position that the partner named in the exchange (R406 step 4) -/
  peerAck : Nat
  /-- credits held, by 2·channel + class (R401) -/
  credits : Store Nat
  /-- credits to be returned, by 2·channel + class -/
  owed : Store Nat
  relay : List RelayFrame
  /-- packets that wait for credit, for room in the relay or for the port -/
  queue : List Packet
  /-- corrected symbols of each lane in the 1 ms window, and the window's start (R408) -/
  window : Store Nat
  winStart : Nat
  deriving DecidableEq, Repr

def Port.reset : Port := ⟨0, 0, 0, 0, 0, false, 0, 0, 0, false, 16, 0, [], [], [], [], [], 0⟩

/-- A write transaction whose data arrives (R398). -/
structure Inbound where
  src : BitVec 11
  tag : BitVec 12
  addr : Nat
  data : List Byte
  deriving DecidableEq, Repr

/-- The ports and the transactions that arrive over them. -/
structure Links where
  ports : Store Port
  inbound : List Inbound
  /-- requests for this device in the receive buffers of the ports, which wait for room for responses (R402) -/
  stalled : List (Nat × Packet)
  deriving DecidableEq, Repr

def Links.reset : Links := ⟨[], [], []⟩

end Sys2Proof.Machine
end

