-- ==== Sys2Proof/Machine/TierState.lean ====
section
/-!
DEFINITION. The state of the memory tiers, the Pacer and the host-window translation (04 R94-R96, 10 R248-R285).
-/
namespace Sys2Proof.Machine

/-- The state of a pool page (R268): `st` 0 FREE, 1 PINNED, 2 RESIDENT, 3 KV; `ctx` the context it is held for. -/
structure PoolPage where
  st : Nat
  ctx : Nat
  age : Nat
  deriving DecidableEq, Repr

def PoolPage.free : PoolPage := ⟨0, 0, 0⟩

/-- Who waits for a held access: the bus, a link transaction by tag, source and run context, the host through BAR2, or a
unit that tries again. -/
inductive HeldFor where
  | bus
  | link (tag : BitVec 12) (src : BitVec 11) (ctx : BitVec 3)
  | host
  | unit
  deriving DecidableEq, Repr

/-- An access that a repair slot holds (R282). -/
structure HeldAccess where
  whom : HeldFor
  write : Bool
  cls : TierClass
  addr : Nat
  len : Nat
  data : List Byte
  deriving DecidableEq, Repr

/-- A repair slot (R281, R284): `st` 0 free, 1 awaiting source, 2 fetching, 3 rewriting. -/
structure RepairSlot where
  st : Nat
  /-- block number of the local outer tier -/
  block : Nat
  held : List HeldAccess
  /-- device time of step 1 -/
  since : Nat
  deriving DecidableEq, Repr

def RepairSlot.free : RepairSlot := ⟨0, 0, [], 0⟩

/-- An entry of the tier schedule that the Pacer promotes or holds (R276-R278): its 96 bytes, the pages of its
layout, and what happened to it. -/
structure PacerEntry where
  idx : Nat
  bits : BitVec 768
  page : Nat
  pages : Nat
  /-- pages that hold `W` and its scales -/
  wpages : Nat
  pinned : Bool
  /-- a `W` page was written since promotion (R278) -/
  written : Bool
  /-- a demotion has been asked for and waits for held pages (R278) -/
  leaving : Bool
  /-- the demotion is an eviction (R271) -/
  evicted : Bool
  /-- the write-back to a home outside the device has been sent, and its answers are awaited (R270, R278) -/
  backing : Bool
  deriving DecidableEq, Repr

/-- The Pacer (R272-R280). `waiting`: device time since which the next entry waits for pages, and whether the stall
event was raised for it (R279). `stopped`: a bad entry stopped the walk (R274). -/
structure Pacer where
  entry : Nat
  cursor : Nat
  promoting : List PacerEntry
  resident : List PacerEntry
  waiting : Option (Nat × Bool)
  stopped : Bool
  /-- the run that held the Pacer has ended and its entries are being demoted (R280) -/
  ending : Bool
  deriving DecidableEq, Repr

def Pacer.reset : Pacer := ⟨0, 0, [], [], none, false, false⟩

/-- The tiers of the device. `near` and `outer` hold bytes by offset in their range; `map` the sector map byte of each
block, by block number; `nearPoison` the 8-byte words of the near tier with an uncorrectable error; `slots` the repair
slots, by 16·group + slot; `lost` the lost package of each group, 15 for none (R252). -/
structure Tiers where
  near : Store Byte
  nearPoison : Store Bool
  pages : Store PoolPage
  outer : Store Byte
  map : Store Byte
  slots : Store RepairSlot
  lost : Store Nat
  /-- spare rows of a near-tier slice in use (R474) -/
  spareRows : Store Nat
  pacer : Pacer
  /-- periods of 65,536 ns of `DEV_TIME` that the page ages have counted (R271) -/
  aged : Nat
  deriving DecidableEq, Repr

def Tiers.reset : Tiers := ⟨[], [], [], [], [], [], [], [], Pacer.reset, 0⟩

/-- The host-window translation (R94-R96): entries the HBR caches, and the invalidation in progress. -/
structure Xlat where
  cache : Store (Option Quad)
  busy : Bool
  all : Bool
  indexes : List Nat
  deriving DecidableEq, Repr

def Xlat.reset : Xlat := ⟨[], false, false, []⟩

end Sys2Proof.Machine
end

