-- ==== Sys2Proof/Machine/TrainState.lean ====
section
/-!
DEFINITION. The state of the Harvest units and of the schedule unit beyond their registers (11 R286-R312, 12 R313-R347).
-/
namespace Sys2Proof.Machine

/-- A bucket update in hand (R301). `phase`: 1 verdicts, 3 passes to run, 4 passes run, 5 publishing with slot bytes on
their way to the buddy, 6 publishing with everything sent. `spare` is the slot chosen at step 2. -/
structure HvuJob where
  bucket : Nat
  phase : Nat
  spare : Nat
  /-- an update stopped by a fault of the HVU or a takeover, which REQUEUE or ABANDON resolves (R303) -/
  interrupted : Bool
  deriving DecidableEq, Repr

/-- A digest of a shard that a member reported (R306). -/
structure DigestRec where
  bucket : Nat
  shard : Nat
  rank : Nat
  value : Quad
  deriving DecidableEq, Repr

/-- An own shard that lost a comparison and is fetched from the winner (R306): the value that won, the member that holds it,
and the other losers that receive it next. -/
structure Mend where
  bucket : Nat
  win : Nat
  holder : Nat
  losers : List Nat
  deriving DecidableEq, Repr

/-- The HVUs, acting as one (R286). -/
structure Hvu where
  queue : List Nat
  job : Option HvuJob
  /-- verdicts received in this lap: bucket, rank, verdict (R294) -/
  verdicts : List (Nat × Nat × Nat)
  /-- reductions closed and waiting for their reduce pass, in order of closing (R334) -/
  reduceQ : List Nat
  digests : List DigestRec
  /-- digests that this device sends after the lap's commits: bucket, shard, value (R306) -/
  ownDigests : List DigestRec
  /-- digest comparisons of the lap still to be made as owner (R306) -/
  toCompare : List Nat
  /-- buckets of the lap a buddy write of which failed (R308) -/
  snapLost : List Nat
  /-- stamps and record laps that the buddy holds and has acknowledged, by 2·bucket + copy; 0: none since `EN`, or being
  written, else one more than the value (R307, R309) -/
  buddyStamp : Store Nat
  buddyLap : Store Nat
  /-- the same of the writes on their way -/
  stampSent : Store Nat
  lapSent : Store Nat
  /-- the first copies of R307 step 1 are on their way -/
  seeding : Bool
  /-- own shards on their way back from the member that holds the winning copy (R306) -/
  mends : List Mend
  deriving DecidableEq, Repr

def Hvu.reset : Hvu :=
  { queue := [], job := none, verdicts := [], reduceQ := [], digests := [], ownDigests := [], toCompare := [],
    snapLost := [], buddyStamp := [], buddyLap := [], stampSent := [], lapSent := [], seeding := false, mends := [] }

/-- One slot of a lap's run order (R316, R317, R320). -/
structure SlotRec where
  mb : Nat
  part : Nat
  npart : Nat
  nsamp : Nat
  first : Nat
  choff : Nat
  tokens : Nat
  bwd : Bool
  heat : Nat
  chunk : Bool
  lastp : Bool
  deriving DecidableEq, Repr

/-- A launch entry (R319). -/
structure Launch where
  lcore : Nat
  spd : Bool
  base : Nat
  deriving DecidableEq, Repr

/-- A baton that waits in the receive queue (R324-R326): `ahead` says that it waits for its sequence number, and
`gap` that its gap was reported. -/
structure HeldBaton where
  b : Baton
  since : Nat
  ahead : Bool
  gap : Bool
  deriving DecidableEq, Repr

/-- A hurdle (R136, R330, R346). -/
structure Hurdle where
  valid : Bool
  ctx : Nat
  ndev : Nat
  root : Nat
  gen : Nat
  cmask : BitVec 128
  /-- local participants arrived in the generation -/
  arrived : List Nat
  /-- devices counted at the root -/
  devices : List Nat
  /-- HURDLE_ARRIVE of the generation has been sent -/
  sent : Bool
  /-- local participants whose HURDLE timed out and has not been issued again (R136) -/
  late : List Nat
  deriving DecidableEq, Repr

def Hurdle.reset : Hurdle := ⟨false, 0, 0, 0, 0, 0, [], [], false, []⟩

/-- A baton channel (R327, R346). -/
structure Chan where
  valid : Bool
  ctx : Nat
  count : Nat
  value : Word
  deriving DecidableEq, Repr

def Chan.reset : Chan := ⟨false, 0, 0, 0⟩

/-- A bucket's reduction in this lap (R332): when its deadline started, the owners whose partial has been announced,
and the carry to be decided at the lap advance (R333). -/
structure BktRun where
  start : Option Nat
  partSent : List Nat
  counts : List (Nat × Nat)
  nodata : List Nat
  closedOwners : List Nat
  gathered : List Nat
  scaleChanged : Bool
  deriving DecidableEq, Repr

def BktRun.reset : BktRun := ⟨none, [], [], [], [], [], false⟩

/-- The schedule unit (R313-R347). -/
structure Sch where
  order : List SlotRec
  slot : Nat
  isOpen : Bool
  /-- a slot has been opened in this lap -/
  begun : Bool
  /-- slot 0 may open: patches written and run order built (R340) -/
  ready : Bool
  toLaunch : List Launch
  launched : List Nat
  lapwait : Bool
  withdrawn : Bool
  faulted : Bool
  children : List Nat
  sendNo : Store Nat
  expectNo : Store Nat
  held : List HeldBaton
  losses : List (Nat × Word)
  lossLog : Store Word
  /-- bucket-local batons accepted from a core and not yet acted on: bucket, count (R332 step 1) -/
  locals : List (Nat × Nat)
  /-- batons that wait in a port's buffer for a place in the receive queue: 2·port + class, baton (R326, R401) -/
  waiting : List (Nat × Baton)
  /-- the present lap opened under a new epoch: what waits for a change of the epoch may be done until its first slot opens
  (R345) -/
  fresh : Bool
  /-- the heat of the open slot, as it was read and checked (R321) -/
  heat : BitVec 256
  hurdles : Store Hurdle
  chans : Store Chan
  bkts : Store BktRun
  deriving DecidableEq, Repr

def Sch.reset : Sch :=
  { order := [], slot := 0, isOpen := false, begun := false, ready := false, toLaunch := [], launched := [],
    lapwait := false, withdrawn := false, faulted := false, children := [], sendNo := [], expectNo := [], held := [],
    losses := [], lossLog := [], locals := [], waiting := [], fresh := false, heat := 0, hurdles := [], chans := [], bkts := [] }

end Sys2Proof.Machine
end

