-- ==== Sys2Proof/Machine/RecordState.lean ====
section
/-!
DEFINITION. The schedule state record of a lap, and a restore in progress (18 R484-R489).
-/
namespace Sys2Proof.Machine

/-- What a schedule state record holds (R486, R487): the lap, the place and length of the copy, the registers of the units
of the run, the states of the SCH, the cores, the Pacer, the KVD and the input unit, spans of memory (page tables, mass
vectors, reduction records), and the keys. The order of the contents within a section is not stated (log 45). -/
structure Snapshot where
  lap : Nat
  addr : Nat
  len : Nat
  regs : Store Word
  sch : Sch
  /-- by logical core -/
  cores : List (Nat × Core)
  coreMap : Store Nat
  entry : Nat
  cursor : Nat
  kvd : Kvd
  input : Input
  spans : List (Nat × List Byte)
  keys : List (Nat × BitVec 128)
  /-- the stream position at the capture: `STEP` and `MB` (R82, R85) -/
  place : Nat × Nat
  deriving DecidableEq, Repr

/-- A restore in progress (R484): the device lost, the run, the last lap t whose snapshot completed, and the restore point,
none until the buckets in hand have committed. -/
structure Restore where
  device : Nat
  ctx : Nat
  last : Nat
  point : Option Nat
  deriving DecidableEq, Repr

end Sys2Proof.Machine
end

