-- ==== Sys2Proof/Machine/SysState.lean ====
section
/-!
DEFINITION. The state of the power controller and the module pins, the event hubs, the fault manager, the trust block
and the management controller beyond their registers (16 R433-R443, 17 R445-R470, 18 R471-R493, 19 R494-R511,
20 R512-R526).
-/
namespace Sys2Proof.Machine

/-- Power, clocks and the module's pins. `mod` is the module state of R463: 0 OFF, 1 STANDBY, 2 ACTIVE, 3 FROST. -/
structure Power where
  mod : Nat
  /-- input in mV -/
  vin : Nat
  /-- `SB_STRAP` and the standby rails are up (R522 step 1) -/
  standby : Bool
  /-- `MOD_RESET_N` is low -/
  resetLow : Bool
  /-- `MOD_PWR_EN` is high -/
  pwrEn : Bool
  /-- `MOD_PWR_GOOD` is high -/
  good : Bool
  /-- an orderly shut-down is in progress (R463) -/
  stopping : Bool
  /-- `HOST_PERST_N` is low (R515) -/
  perst : Bool
  /-- a wake source has asked for the thaw of the module (R463) -/
  wake : Bool
  /-- `PWC_MODULE` flags -/
  capActive : Bool
  capUnmet : Bool
  fast : Bool
  lowv : Bool
  therm : Bool
  emerg : Bool
  /-- device time at which a fast throttle ends (R459) -/
  fastUntil : Nat
  /-- k of R457 as the cap controller holds it; a critical temperature holds at least 8 (R465) -/
  stop16 : Nat
  /-- operating point of each site (R449) -/
  points : Store Nat
  /-- points that a hot sensor takes off the highest one of a site (R464) -/
  lowered : Store Nat
  /-- sites held at or below point 6 for a failed sensor (R465) -/
  held6 : List Nat
  /-- ageing margin of each island in mV, and the slowing already answered in percent (R454) -/
  margins : Store Nat
  slowed : Store Nat
  /-- reference trims of the island regulators (R454) -/
  trims : Store Quad
  /-- weight of the power estimate against the measured current, in 1/65536 (R452) -/
  weight : Nat
  /-- droop episodes of a half within the present telemetry period (R453) -/
  droops : Store Nat
  /-- default trims are in use (R455) -/
  calDefault : Bool
  /-- phases shed, by stage: 0 bus converter, 1 and 2 core rails of half 0 and 1, 3 auxiliary (R447) -/
  shed : List (Nat × Nat)
  /-- cause latched for the MGC (R465, R511); kept through a module reset -/
  trip : Word
  deriving DecidableEq, Repr

def Power.reset : Power :=
  { mod := 1, vin := 72000, standby := true, resetLow := false, pwrEn := false, good := false, stopping := false,
    perst := false, wake := false, capActive := false, capUnmet := false, fast := false, lowv := false, therm := false,
    emerg := false, fastUntil := 0, stop16 := 0, points := [], lowered := [], held6 := [], margins := [], slowed := [],
    trims := [], weight := 65536, droops := [], calDefault := false, shed := [], trip := 0 }

/-- The event hubs (R433-R442). Source configuration and the sticky lost bits are in `EVH_SRCn`. -/
structure Evh where
  /-- sources pending, in rising order -/
  pend : List Nat
  /-- in-service stack of each target: source and priority, top first -/
  serving : Store (List (Nat × Nat))
  frozen : Store Bool
  /-- hubs in frost, and the sources latched there (R439) -/
  frost : Store Bool
  latched : List Nat
  /-- a thaw of the hub has been asked for -/
  thaw : Store Bool
  /-- pending host sources whose message has been sent or held (R438) -/
  told : List Nat
  /-- a comparator that is not periodic has raised its source for the present compare time (R440) -/
  tmrHit : Store Bool
  deriving DecidableEq, Repr

def Evh.reset : Evh := ⟨[], [], [], [], [], [], [], []⟩

/-- A step in flight of a STEP entry, or an END or ABORT entry that waits for its run (R431). -/
structure OpenEntry where
  /-- where the entry lies -/
  addr : Nat
  /-- 2 `STEP`, 3 `END`, 4 `ABORT` -/
  kind : Nat
  ctx : Nat
  /-- sites whose lists the step launched -/
  sites : List Nat
  /-- for a step of a run that holds the KVD, `KVD_STEP` before its fold -/
  fold : Option Nat
  deriving DecidableEq, Repr

/-- Control-core firmware (R424-R432, R478-R480): entries in progress, cores halted by a takeover, and migrations
asked for. -/
structure Ctl where
  opens : List OpenEntry
  /-- control cores out of reset (R497 step 5) -/
  released : Bool
  failed : List Nat
  /-- cores whose duties each control core carries besides its own -/
  carries : List (Nat × Nat)
  /-- lists whose watched header line has been written and not read yet (R428) -/
  watch : List Nat
  /-- entries written into the lists of each other device (R431) -/
  partSeq : Store Nat
  deriving DecidableEq, Repr

def Ctl.reset : Ctl := ⟨[], false, [], [], [], []⟩

/-- One windowed counter (R472): kind, resource and the times it holds, newest first. -/
structure FlmCounter where
  kind : Nat
  res : Nat
  times : List Nat
  deriving DecidableEq, Repr

/-- The fault manager (R471-R493). `log` is the fault log in the module flash, newest first (R491); it and the
retirements outlive a module reset (R477). -/
structure Flm where
  counters : List FlmCounter
  log : List (List Byte)
  retired : List Nat
  portsOff : List Nat
  pkgsLost : List (Nat × Nat)
  /-- sites whose retirement waits for the lap boundary (R478) -/
  toRetire : List Nat
  /-- migrations asked for that wait for a lap boundary: logical core and site (R16, R116) -/
  toMigrate : List (Nat × Nat)
  /-- control cores whose planned takeover waits for the lap boundary (R480) -/
  toTakeOver : List Nat
  /-- ports to be disabled at the lap boundary (kind 4) -/
  toDisable : List Nat
  telemetry : List Byte
  /-- the devices wait for `FLM_CMD.RELEASE` (R484, R490) -/
  hold : Bool
  /-- lap that the restored job replays, with `MDE_DIVERGE` as it stood at the restore -/
  replay : Option (Nat × Nat)
  /-- the two copies of the schedule state record (R486) -/
  records : List Snapshot
  restore : Option Restore
  /-- kind of the last lasting fault of a site: 1 or 2 (R473) -/
  lastKind : Store Nat
  /-- the device is to be replaced at the next lap boundary (R476) -/
  toReplace : Bool
  /-- device time at which the present scrub pass began: by TRE, and 4 for the near tier (R481) -/
  scrubAt : Store Nat
  deriving DecidableEq, Repr

def Flm.reset : Flm := ⟨[], [], [], [], [], [], [], [], [], [], false, none, [], none, [], false, []⟩

/-- The trust block (R494-R503). `flash` holds bytes of the module flash written since delivery; a byte not listed reads
as delivered. `fuseF` and `revoked` are fuses; both outlive a reset. -/
structure Trb where
  flash : Store (Option Byte)
  fuseF : Nat
  revoked : List Nat
  bootCount : Nat
  svn : Nat
  slotB : Bool
  fallback : Bool
  calOk : Bool
  noImage : Bool
  /-- image of the running slot: key slot and revocations it asks for -/
  kslot : Nat
  revoke : Nat
  /-- current challenge (R503) -/
  challenge : Option (List Byte)
  /-- debug is unlocked, and the scope unlocked -/
  debug : Bool
  scope : Nat
  booted : Bool
  deriving DecidableEq, Repr

def Trb.reset : Trb := ⟨[], 0, [], 0, 0, false, false, false, false, 0, 0, none, false, 0, false⟩

/-- The management controller (R504-R511). -/
structure Mgc where
  /-- slot of the MGC image that runs (slot B?); none where neither is valid (R497) -/
  running : Option Bool
  eid : Byte
  eidValid : Bool
  /-- address that platform events go to; none while they are disabled -/
  receiver : Option Byte
  /-- state of the update: 0 idle, 1 learn components, 2 download, 3 verify, 4 apply, 5 ready to activate (R511) -/
  update : Nat
  listed : List Nat
  comp : Nat
  size : Nat
  /-- bytes of the image drawn into staging -/
  drawn : Nat
  verified : Bool
  /-- components copied and waiting for activation -/
  applied : List Nat
  /-- platform events that wait for a receiver: sensor and value; `SMB_ALERT_N` is asserted while there is one -/
  events : List (Nat × Nat)
  deriving DecidableEq, Repr

def Mgc.reset : Mgc := ⟨some false, 0, false, none, 0, [], 0, 0, 0, false, [], []⟩

/-- GPX pins (R519): the level each one carries. -/
structure Pins where
  gpx : Store Bool
  deriving DecidableEq, Repr

def Pins.reset : Pins := ⟨[]⟩

end Sys2Proof.Machine
end

