-- ==== Sys2Proof/Machine/State.lean ====
section
/-!
DEFINITION. The state of the L9 as plain data, and the state after reset.
-/
namespace Sys2Proof.Machine

/-- Why a command can stop the model. -/
inductive Fault where
  /-- Raised by no command: one whose operands break the form that `Instr.wf` checks has no effect, or the answer the
  spec names (log 52). Safe. -/
  | illFormed
  deriving DecidableEq, Repr

/-- Why the model has no meaning for a command. -/
inductive Refusal where
  /-- A command whose meaning is not written, by the name of its row. Safe. -/
  | notModelled (mnemonic : String)
  /-- A debug path of R503 that a token has unlocked is used over the 1149.1 port: the spec names the paths and says
  nothing of what they do. Safe. Raised by BOUNDARY_SCAN. -/
  | debugPathUnspecified
  deriving DecidableEq, Repr

/-- The state of the block. `pending`, `free` and `sent` are the model's own (logs 3 and 4). `regs` holds the registers
without a typed home, by 16384·page + offset/4; a register not listed reads as its reset value. `islands` holds the
state of each island by page: 0 ON, 1 shutting down, 2 OFF, 3 powering up, 4 RETENTION (R460, R462), and `busyAt` the
device time at which it was last seen busy (R461). `raised` holds event sources raised and not yet delivered. `sites`
holds the retirement state of each site: 0 usable, 2 retired. -/
structure State where
  pending : List Instr
  free : Nat
  sent : List Sent
  dev : Dev
  regs : Store Word
  raised : List Nat
  signals : List Signal
  txns : List Txn
  nextTag : Nat
  sites : Store Nat
  cores : Store Core
  tiers : Tiers
  xlat : Xlat
  links : Links
  hvu : Hvu
  sch : Sch
  kvd : Kvd
  input : Input
  runs : Store (Option Run)
  islands : Store Nat
  busyAt : Store Nat
  power : Power
  evh : Evh
  ctl : Ctl
  flm : Flm
  trb : Trb
  mgc : Mgc
  pins : Pins
  deriving DecidableEq, Repr

/-- Identity after reset (logs 5 and 6). -/
def Dev.reset : Dev :=
  { variant := .l9TA, strapGroup := 0, strapSlot := 0, anchor := true, group := 0, slot := 0, time := 0, latches := [],
    energy := 0, tcap := 0, coreMap := [] }

/-- The machine right after `MOD_RESET_N` is released with the standby rails up: STANDBY (R522 step 2). -/
def State.reset : State :=
  { pending := [], free := 0, sent := [], dev := Dev.reset, regs := [], raised := [], signals := [], txns := [],
    nextTag := 0, sites := [], cores := [], tiers := Tiers.reset, xlat := Xlat.reset, links := Links.reset, hvu := Hvu.reset,
    sch := Sch.reset, kvd := Kvd.reset, input := Input.reset, runs := [], islands := [], busyAt := [], power := Power.reset, evh := Evh.reset,
    ctl := Ctl.reset, flm := Flm.reset, trb := Trb.reset, mgc := Mgc.reset, pins := Pins.reset }

end Sys2Proof.Machine
end

