-- ==== Sys2Proof/Machine/Ops.lean ====
section
/-!
DEFINITION. Named operations over the state that every family shares: registers, error bits, events, cores, the
address map, the near and outer tiers, ownership, free values, and sending (00 R9-R12, 04 R86-R113, 10 R248-R271,
21 R527-R531).
-/
namespace Sys2Proof.Machine

/-! Register pages (R527). -/

def pgDev : Nat := 0
def pgEvh (h : Nat) : Nat := 1 + h
def pgPwc (i : Nat) : Nat := 4 + i
def pgTrb : Nat := 8
def pgMgc : Nat := 9
def pgFlm : Nat := 10
def pgCtl (k : Nat) : Nat := 0x10 + k
def pgFl (n : Nat) : Nat := 0x20 + n
def pgRoute : Nat := 0x30
def pgHbr : Nat := 0x31
def pgTre (g : Nat) : Nat := 0x40 + g
def pgHvu (g : Nat) : Nat := 0x44 + g
def pgMde : Nat := 0x50
def pgSau : Nat := 0x51
def pgKvd : Nat := 0x52
def pgSch : Nat := 0x60
def pgCore (n : Nat) : Nat := 0x100 + n

/-- `EVENT_BASE` of a page (R527). -/
def eventBase (p : Nat) : Nat :=
  if p = 0 then 0x300
  else if p = 1 then 0x304 else if p = 2 then 0x30C
  else if 4 ≤ p && p ≤ 7 then 0x314 + 4 * (p - 4)
  else if p = 8 then 0x324 else if p = 9 then 0x328 else if p = 10 then 0x32C
  else if 0x10 ≤ p && p ≤ 0x17 then 0x330 + 4 * (p - 0x10)
  else if 0x20 ≤ p && p ≤ 0x2F then 0x350 + 4 * (p - 0x20)
  else if p = 0x30 then 0x390 else if p = 0x31 then 0x394
  else if 0x40 ≤ p && p ≤ 0x43 then 0x398 + 4 * (p - 0x40)
  else if 0x44 ≤ p && p ≤ 0x47 then 0x3A8 + 4 * (p - 0x44)
  else if p = 0x50 then 0x3B8 else if p = 0x51 then 0x3BC else if p = 0x52 then 0x3C0
  else if p = 0x60 then 0x3C4
  else if 0x100 ≤ p && p ≤ 0x187 then 4 * (p - 0x100) else 0

/-- Is the page assigned to a block (R527)? -/
def pageAssigned (p : Nat) : Bool :=
  p ≤ 2 || (4 ≤ p && p ≤ 10) || (0x10 ≤ p && p ≤ 0x17) || (0x20 ≤ p && p ≤ 0x31) || (0x40 ≤ p && p ≤ 0x47) ||
    (0x50 ≤ p && p ≤ 0x52) || p = 0x60 || (0x100 ≤ p && p ≤ 0x187)

/-- Does the device hold the block of an assigned page (R2, R3, R527)? -/
def State.present (s : State) (p : Nat) : Bool :=
  pageAssigned p && !(
    (s.dev.variant == .l9HTA && (p = 0x41 || p = 0x43 || p = 0x45 || p = 0x47)) ||
    (s.dev.variant == .l9TB && (p = 0x50 || p = 0x51)) || (p = 0x31 && !s.dev.anchor))

def regKey (p off : Nat) : Nat := 16384 * p + off / 4

/-- Is the island of an assigned page one that `ENABLE` powers (R462)? -/
def powersIsland (p : Nat) : Bool := (0x44 ≤ p && p ≤ 0x47) || (0x50 ≤ p && p ≤ 0x52) || p = 0x60 || 0x100 ≤ p

/-- `ENABLE` after reset (R528): 0 on the pages of HVU, SCH, KVD, MDE and SAU, and on core pages whose site is not in
use; the sites in use are those of log 7. -/
def enableReset (p : Nat) : Bool :=
  !((0x44 ≤ p && p ≤ 0x47) || (0x50 ≤ p && p ≤ 0x52) || p = 0x60 || (0x140 ≤ p && p ≤ 0x143) || 0x184 ≤ p)

/-- Reset values that are not 0, by block. -/
def flmThrReset (k : Nat) : Nat :=
  match k with
  | 0 => 3 * 2 ^ 20 + 86400 | 1 => 15 * 2 ^ 20 + 86400 | 3 => 1023 * 2 ^ 20 + 3600 | 4 => 7 * 2 ^ 20 + 3600
  | 5 => 15 * 2 ^ 20 + 86400 | 7 => 2 * 2 ^ 20 + 3600 | _ => 0

/-- The reset value of a register (R284, R346, R367, R390, R421, R442, R467-R469, R473, R492, R524, R525, R528). -/
def resetNat (p off : Nat) : Nat :=
  if off = 0x8 || off = 0xC then (if pageAssigned p && enableReset p then 1 else 0)
  else if off < 0x100 then 0
  else if p = 0 then (if off = 0x180 then 0x30000000 else if off = 0x1E0 then 1800 else 0)
  else if p = 1 || p = 2 then (if off = 0x100 then 0xF else 0)
  else if p = 4 then
    (if off = 0x100 then 1800 else if off = 0x11C then 0x6010100C else if off = 0x128 then 1000 else 0)
  else if p = 5 || p = 6 then (if off = 0x100 then 1900 else if off = 0x104 then 1 else 0)
  else if p = 7 then (if off = 0x100 then 95 else 0)
  else if p = 0xA then
    (if off = 0x100 then 2 else if off = 0x108 then 10 else if off = 0x120 then 0x404 else if off = 0x130 then 100
     else if 0x200 ≤ off && off < 0x240 && off % 8 = 0 then flmThrReset ((off - 0x200) / 8) else 0)
  else if 0x20 ≤ p && p ≤ 0x2F then (if off = 0x108 then 65536 else 0)
  else if p = 0x31 then (if 0x8000 ≤ off && off < 0x8400 && off % 16 = 12 then 1 else 0)
  else if 0x40 ≤ p && p ≤ 0x43 then
    (if off = 0x100 then 0x0002040A else if off = 0x104 then 0xF else if off = 0x118 then 2000
     else if off = 0x300 then 0x200 else 0)
  else if p = 0x50 then (if off = 0x11C then 4096 else if off = 0x120 then 16 else if off = 0x124 then 50000 else 0)
  else if p = 0x52 then (if off = 0x114 then 0x3F800000 else if off = 0x118 then 64 else 0)
  else if p = 0x60 then (if off = 0x134 then 5000 else if off = 0x138 then 10000 else 0)
  else 0

def resetOf (p off : Nat) : Word := BitVec.ofNat 32 (resetNat p off)

/-- The stored value of a register. -/
def State.reg (s : State) (p off : Nat) : Word := Store.get (resetOf p off) s.regs (regKey p off)

def State.setReg (s : State) (p off : Nat) (v : Word) : State :=
  { s with regs := Store.set (resetOf p off) s.regs (regKey p off) v }

/-- Add to a saturating 32-bit counter register. -/
def State.countReg (s : State) (p off n : Nat) : State :=
  s.setReg p off (BitVec.ofNat 32 (satAdd32 (s.reg p off).toNat n))

/-- Add to a 32-bit counter register that wraps. -/
def State.wrapReg (s : State) (p off n : Nat) : State := s.setReg p off (s.reg p off + BitVec.ofNat 32 n)

/-- Set bit i of a register. -/
def State.setRegBit (s : State) (p off i : Nat) (b : Bool) : State :=
  s.setReg p off (setFld (s.reg p off) i i b.toNat)

/-- Set a bit of `ERR_STATUS` unless `ERR_MASK` keeps it (R528). -/
def State.errSet (s : State) (p i : Nat) : State :=
  if bit (s.reg p 0x14) i then s else s.setRegBit p 0x10 i true

/-- Count in `ERR_COUNT` (R528). -/
def State.errCount (s : State) (p n : Nat) : State := s.countReg p 0x18 n

/-- Raise an event source; an absent unit's sources never raise (R4). -/
def State.raise (s : State) (p i : Nat) : State :=
  if s.present p then { s with raised := s.raised ++ [eventBase p + i] } else s

/-- `PAGE_CTRL.ENABLE` and `PAGE_STATUS.ENABLED` of a page, as stored bits 0 (R528). -/
def State.enabled (s : State) (p : Nat) : Bool := bit (s.reg p 0xC) 0

/-! The fault log (R491) and the service flags (R492). -/

/-- One bit step of the CRC-16 of R397. -/
def crc16Bit (c : BitVec 16) : BitVec 16 := if c.getMsbD 0 then (c <<< 1) ^^^ 0x1021#16 else c <<< 1

def crc16Byte (c : BitVec 16) (b : Byte) : BitVec 16 :=
  (List.range 8).foldl (fun c _ => crc16Bit c) (c ^^^ (b.zeroExtend 16 <<< 8))

/-- CRC-16: polynomial 0x1021, initial value 0xFFFF, no reflection, no final XOR (R397). -/
def crc16 (bs : List Byte) : Nat := (bs.foldl crc16Byte 0xFFFF#16).toNat

/-- The 4 MiB of the fault log hold 131,072 entries; the oldest erase block of 64 KiB goes when they are full (R491). -/
def logRoom : Nat := 131072

/-- The lap counter, or all ones outside a run. -/
def State.lapWord (s : State) : Nat := if bit (s.reg 0x60 0x100) 31 then (s.reg 0x60 0x104).toNat else 0xFFFFFFFF

/-- Write a log entry of action 1 to 4 (R491, R493). `ERR_COUNT` counts those of action 2. -/
def State.flmLog (s : State) (kind action res detail : Nat) : State :=
  let body := natLe 8 s.dev.time ++ natLe 4 (s.reg 0xA 0x128).toNat ++ natLe 4 s.lapWord ++
    natLe 1 kind ++ natLe 1 action ++ natLe 2 res ++ natLe 8 detail ++ natLe 2 0
  let log := (body ++ natLe 2 (crc16 body)) :: s.flm.log
  let s1 := { s with flm := { s.flm with log := if logRoom < log.length then log.take (logRoom - 2047) else log } }
  let s2 := s1.wrapReg 0xA 0x128 1
  if action = 2 then s2.errCount 0xA 1 else s2

/-- A platform event of the MGC for a change of a state sensor (R504, R505): sent to the event receiver, or pending while
there is none (log 51). -/
def State.platformEvent (s : State) (sensor value : Nat) : State :=
  if s.mgc.receiver.isSome then { s with sent := s.sent ++ [.platformEvent sensor value] }
  else { s with mgc := { s.mgc with events := s.mgc.events ++ [(sensor, value)] } }

/-- Set a bit of `FLM_SERVICE`; the first time raises the service event (R492, R493). -/
def State.service (s : State) (i : Nat) : State :=
  if bit (s.reg 0xA 0x11C) i then s
  else
    let t := ((s.setRegBit 0xA 0x11C i true).errSet 0xA 1).raise 0xA 1
    t.platformEvent 0x201 (t.reg 0xA 0x11C).toNat

/-! Cores. -/

def State.core (s : State) (n : Nat) : Core := Store.get Core.reset s.cores n

def State.setCore (s : State) (n : Nat) (c : Core) : State := { s with cores := Store.set Core.reset s.cores n c }

/-- Change one core. -/
def State.onCore (s : State) (n : Nat) (f : Core → Core) : State := s.setCore n (f (s.core n))

/-- Change every core that is not as after reset. -/
def State.mapCores (s : State) (f : Core → Core) : State :=
  { s with cores := s.cores.foldl (fun m c => Store.set Core.reset m c.1 (f c.2)) [] }

/-- The site that runs a logical core (R115). -/
def State.siteOf (s : State) (l : Nat) : Nat := Store.get (if l < 64 then l else l + 4) s.dev.coreMap l

/-- The logical core a site runs (R115). -/
def State.lcoreOf (s : State) (site : Nat) : Option Nat := (List.range 128).find? fun l => s.siteOf l = site

/-- Is the page of a site mapped? -/
def State.mapped (s : State) (site : Nat) : Bool := (s.lcoreOf site).isSome

/-! Identity and addresses (R86-R93). -/

/-- The 11-bit effective ID (R88). -/
def State.ownId (s : State) : Nat := s.dev.group.toNat * 64 + s.dev.slot.toNat

/-- The global address of a local address of this device (R89). -/
def State.ownAddr (s : State) (a : Nat) : Nat := s.ownId * 2 ^ 45 + a % 2 ^ 45

/-- Device named by a global address, and the local part (R89). -/
def gDev (a : Nat) : Nat := a / 2 ^ 45 % 2048
def gLocal (a : Nat) : Nat := a % 2 ^ 45

/-- The ranges of R91. -/
inductive Space where
  | outer | near | regs | host | none
  deriving DecidableEq, Repr

def nearBase : Nat := 0x010000000000
def nearSize : Nat := 0x180000000
def regBase : Nat := 0x011000000000
def hostBase : Nat := 0x012000000000
def hostSize : Nat := 0x2000000000

/-- Bytes of the populated outer tier (R1, R2). -/
def outerSize (v : Variant) : Nat := if v = .l9HTA then 0x8000000000 else 0x10000000000

/-- The range in which a local span lies whole, for a device of the given outer size (R91). -/
def spaceOf (osize a n : Nat) : Space :=
  if a + n ≤ osize then .outer
  else if nearBase ≤ a && a + n ≤ nearBase + nearSize then .near
  else if regBase ≤ a && a + n ≤ regBase + 0x4000000 then .regs
  else if hostBase ≤ a && a + n ≤ hostBase + hostSize then .host
  else .none

/-- Where a transfer's footprint lies: on this device, on another, or in a host window (R90-R93, R112). -/
inductive Target where
  | outer (a : Nat)
  | near (off : Nat)
  | far (dev a : Nat)
  | host (a : Nat)
  | bad
  deriving DecidableEq, Repr

/-- The device of a target outside the own tiers (2048 for the host window), and the address there. -/
def Target.away : Target → Nat × Nat
  | .far d a => (d, a)
  | .host a => (2048, a)
  | _ => (0, 0)

/-- The target k bytes further on. -/
def Target.plus (t : Target) (k : Nat) : Target :=
  match t with
  | .outer a => .outer (a + k)
  | .near a => .near (a + k)
  | .far d a => .far d (a + k)
  | .host a => .host (a + k)
  | .bad => .bad

/-- The target of a global span (R92, R112). A far outer tier is taken as the full TiB: its device checks (R112). -/
def State.target (s : State) (a n : Nat) : Target :=
  let l := gLocal a
  if gDev a = s.ownId then
    match spaceOf (outerSize s.dev.variant) l n with
    | .outer => .outer l
    | .near => .near (l - nearBase)
    | .host => .host (l - hostBase)
    | _ => .bad
  else
    match spaceOf 0x10000000000 l n with
    | .outer => .far (gDev a) l
    | .host => .far (gDev a) l
    | _ => .bad

/-- Is a span covered by some ranges? -/
def covered (rs : List Range) : Nat → Nat → Nat → Bool
  | 0, _, _ => false
  | f + 1, a, n =>
    if n = 0 then true else
      match rs.find? fun r => r.base ≤ a && a < r.base + r.len with
      | none => false
      | some r => covered rs f (r.base + r.len) (n - (r.base + r.len - a))

/-- The run of a context (R25, R429). -/
def State.run (s : State) (ctx : Nat) : Option Run := Store.get none s.runs ctx

def State.claims (s : State) (ctx : Nat) : Claims := match s.run ctx with | some r => r.claims | none => .none

/-- Is any run active on the device (R530)? -/
def State.runActive (s : State) : Bool := (List.range 8).any fun c => (s.run c).isSome

/-- Grants that have not lapsed: those of an owner that ends are taken away (R532, `State.lapseGrants`). -/
def State.liveGrants (s : State) (ctx : Nat) : List Range := (s.claims ctx).grants.map (·.1)

/-- May the context read or write a span of the own outer tier (R27, R532)? -/
def State.mayOuter (s : State) (ctx a n : Nat) (write : Bool) : Bool :=
  let own := (s.claims ctx).owned
  let rs := if write then own else own ++ s.liveGrants ctx
  covered rs (rs.length + 1) a n

def Tiers.page (t : Tiers) (k : Nat) : PoolPage := Store.get PoolPage.free t.pages k

/-- Pages pinned device-wide: those of run records and those of entries with `PIN` (R269). -/
def Tiers.pinnedPages (t : Tiers) : Nat :=
  (t.pages.filter fun x => x.2.st = 1).length +
    ((t.pacer.promoting ++ t.pacer.resident).map fun e => if e.pinned then e.pages else 0).sum

/-- FREE pages, and the longest run of them (R284). -/
def Tiers.freePages (t : Tiers) : Nat := 3072 - (t.pages.filter fun x => x.2.st != 0).length

/-- The longest gap between used pages: `last` is the page after the last used one. -/
def longestGap (last best : Nat) : List Nat → Nat
  | [] => max best (3072 - last)
  | k :: ks => longestGap (k + 1) (max best (k - last)) ks

def Tiers.longestRun (t : Tiers) : Nat := longestGap 0 0 ((t.pages.filter fun x => x.2.st != 0).map (·.1))

/-- May the context use a pool page (R268)? -/
def State.mayPage (s : State) (ctx k : Nat) : Bool :=
  let p := s.tiers.page k
  p.st != 0 && p.ctx = ctx

/-- Pool pages of a span of the near tier. -/
def pagesOf (off n : Nat) : List Nat :=
  if n = 0 then [] else (List.range ((off + n - 1) / 0x200000 + 1 - off / 0x200000)).map (off / 0x200000 + ·)

def State.mayNear (s : State) (ctx off n : Nat) : Bool := (pagesOf off n).all fun k => s.mayPage ctx k

/-- The fault of a footprint at issue: `TENSOR_BOUNDS` of R92 and R112, `CONTEXT_VIOLATION` of R27. Far and host
footprints are checked at their target (R112). -/
def State.spanFault (s : State) (ctx a n : Nat) (write : Bool) : Option FaultCode :=
  match s.target a n with
  | .bad => some .tensorBounds
  | .outer l => if s.mayOuter ctx l n write then none else some .contextViolation
  | .near o => if s.mayNear ctx o n then none else some .contextViolation
  | _ => none

/-! Free values (log 3). -/

/-- Draw one free value. -/
def State.draw (s : State) : Quad × State := (Config.freeWord s.free, { s with free := s.free + 1 })

/-- n free bytes. -/
def State.freeBytes (s : State) (n : Nat) : List Byte × State :=
  ((List.range n).map fun i => (Config.freeWord (s.free + i)).truncate 8, { s with free := s.free + n })

/-! The near tier (R267-R271). -/

def Tiers.nearBytes (t : Tiers) (off n : Nat) : List Byte := (List.range n).map fun i => Store.get 0 t.near (off + i)

def Tiers.nearBad (t : Tiers) (off n : Nat) : Bool :=
  if t.nearPoison.isEmpty || n = 0 then false
  else (List.range ((off + n - 1) / 8 + 1 - off / 8)).any fun i => Store.get false t.nearPoison (off / 8 + i)

/-- An access returns the page's age to 0 (R271). -/
def Tiers.touch (t : Tiers) (off n : Nat) : Tiers :=
  { t with pages := (pagesOf off n).foldl (fun ps k =>
      Store.set PoolPage.free ps k { Store.get PoolPage.free ps k with age := 0 }) t.pages }

/-- Write bytes into a bank of bytes, one after another. -/
def putBytes (m : Store Byte) (a : Nat) : List Byte → Store Byte
  | [] => m
  | b :: bs => putBytes (Store.set 0 m a b) (a + 1) bs

/-- Mark the listed 8-byte words good or uncorrectable. -/
def markWords (m : Store Bool) (b : Bool) (ws : List Nat) : Store Bool := ws.foldl (fun p w => Store.set false p w b) m

/-- The 8-byte words that a span touches. -/
def wordsOf (off n : Nat) : List Nat :=
  if n = 0 then [] else (List.range ((off + n - 1) / 8 + 1 - off / 8)).map (off / 8 + ·)

/-- The 8-byte words that a span covers whole. -/
def wholeWords (off n : Nat) : List Nat := (wordsOf off n).filter fun w => off ≤ 8 * w && 8 * w + 8 ≤ off + n

/-- Note a write of pages of an entry of the Pacer (R278). -/
def PacerEntry.wrote (ks : List Nat) (e : PacerEntry) : PacerEntry :=
  if ks.any (fun k => e.page ≤ k && k < e.page + e.wpages) then { e with written := true } else e

/-- Write bytes to the near tier; an uncorrectable word that is written whole is good again. -/
def Tiers.nearWrite (t : Tiers) (off : Nat) (bs : List Byte) : Tiers :=
  let t1 := t.touch off bs.length
  { t1 with
    near := putBytes t.near off bs
    nearPoison := if t.nearPoison.isEmpty then t.nearPoison else markWords t.nearPoison false (wholeWords off bs.length)
    pacer := { t.pacer with resident := t.pacer.resident.map (PacerEntry.wrote (pagesOf off bs.length)) } }

/-- Mark the words of a span of the near tier uncorrectable (R283). -/
def Tiers.nearSpoil (t : Tiers) (off n : Nat) : Tiers :=
  { t with nearPoison := markWords t.nearPoison true (wordsOf off n) }

/-! The outer tier (R248-R258). -/

def Tiers.mapOf (t : Tiers) (b : Nat) : Byte := Store.get 0 t.map b

/-- The 4,096 bytes of a block; unwritten ones read 0 (R256). -/
def Tiers.block (t : Tiers) (b : Nat) : List Byte := (List.range 4096).map fun i => Store.get 0 t.outer (4096 * b + i)

/-- Bytes of the outer tier. -/
def Tiers.outerBytes (t : Tiers) (a n : Nat) : List Byte := (List.range n).map fun i => Store.get 0 t.outer (a + i)

/-- The blocks of a span. -/
def blocksOf (a n : Nat) : List Nat :=
  if n = 0 then [] else (List.range ((a + n - 1) / 4096 + 1 - a / 4096)).map (a / 4096 + ·)

/-- Is a block of the span under repair (R281)? -/
def Tiers.repairing (t : Tiers) (a n : Nat) : Bool := !t.map.isEmpty && (blocksOf a n).any fun b => mapRepair (t.mapOf b)

/-- Is a block of the span poisoned (R282)? -/
def Tiers.poisoned (t : Tiers) (a n : Nat) : Bool := !t.map.isEmpty && (blocksOf a n).any fun b => mapPoison (t.mapOf b)

/-- The group of a block (R249). -/
def State.groupOf (s : State) (b : Nat) : Nat := (place (s.dev.variant == .l9HTA) (4096 * b)).1

/-- The counter that a class charges (R284). -/
def classReg : TierClass → Nat
  | .read => 0x150 | .write => 0x154 | .remote => 0x158 | .background => 0x15C

/-- Charge sectors of a block's group to a class (R257, R266). -/
def State.charge (s : State) (cls : TierClass) (b n : Nat) : State :=
  if n = 0 then s else s.wrapReg (pgTre (s.groupOf b)) (classReg cls) n

/-- Sectors that a read of n bytes at a moves from its block (R257). -/
def Tiers.sectorsRead (t : Tiers) (b a n : Nat) : Nat :=
  let m := t.mapOf b
  if !mapWritten m then 0
  else if mapNsec m < 16 then mapNsec m
  else
    let lo := max a (4096 * b) - 4096 * b
    let hi := min (a + n) (4096 * b + 4096) - 4096 * b
    (hi + 255) / 256 - lo / 256

/-- Charge a read of a span (R256, R257). -/
def State.chargeRead (s : State) (cls : TierClass) (a n : Nat) : State :=
  (blocksOf a n).foldl (fun s b => s.charge cls b (s.tiers.sectorsRead b a n)) s

/-- Store bytes into the outer tier. -/
def Tiers.putOuter (t : Tiers) (a : Nat) (bs : List Byte) : Tiers :=
  { t with outer := putBytes t.outer a bs }

def Tiers.setMap (t : Tiers) (b : Nat) (m : Byte) : Tiers := { t with map := Store.set 0 t.map b m }

/-- The header line of entry `NEXT` of an enabled list, which a line-watch slot watches (R428). -/
def State.watchLine (s : State) (k : Nat) : Option Nat :=
  let cfg := s.reg 0 (0x608 + 16 * k)
  if bit cfg 31 then
    some (fld (s.reg 0 (0x604 + 16 * k)) 12 0 * 2 ^ 32 + (s.reg 0 (0x600 + 16 * k)).toNat +
      512 * (fld (s.reg 0 (0x60C + 16 * k)) 31 16 % max 1 (fld cfg 12 0)))
  else none

/-- A write of a watched line fires its slot (R428). -/
def State.watchWrite (s : State) (a n : Nat) : State :=
  if !s.ctl.released then s else
  let hit := fun k => match s.watchLine k with | some l => a < l + 64 && l < a + n | none => false
  let ks := (List.range 8).filter fun k => hit k && !s.ctl.watch.contains k
  if ks = [] then s else { s with ctl := { s.ctl with watch := s.ctl.watch ++ ks } }

/-- Apply one write to one block (R258, R282): the bytes at offset `a` within the outer tier, all of block b. The
result says whether the block was poisoned and the write partial. -/
def State.writeBlock (s : State) (cls : TierClass) (b a : Nat) (bs : List Byte) : State × Bool :=
  let m := s.tiers.mapOf b
  let whole := bs.length = 4096
  if mapPoison m && !whole then (s, true)
  else
    let s1 := if !whole && mapWritten m then s.charge (if cls = .remote then .remote else .write) b (mapNsec m) else s
    let t := s1.tiers.putOuter a bs
    let n := (encodeStored (t.block b)).2
    (({ s1 with tiers := t.setMap b (mapByte false false true n) }.charge cls b n).watchWrite a bs.length, false)

/-- Split a span of bytes at block boundaries: pieces (block, address, bytes). -/
def splitBlocks (a : Nat) (bs : List Byte) : List (Nat × Nat × List Byte) :=
  (blocksOf a bs.length).map fun b =>
    let lo := max a (4096 * b)
    let hi := min (a + bs.length) (4096 * b + 4096)
    (b, lo, (bs.drop (lo - a)).take (hi - lo))

/-- Write a span of the own outer tier (R258); true where a poisoned block refused a partial write (R282). -/
def State.writeOuter (s : State) (cls : TierClass) (a : Nat) (bs : List Byte) : State × Bool :=
  (splitBlocks a bs).foldl (fun x p =>
    let y := x.1.writeBlock cls p.1 p.2.1 p.2.2
    (y.1, x.2 || y.2)) (s, false)

/-- Read a span of the own outer tier: the bytes, and whether a block of it is poisoned (R256, R282). -/
def State.readOuter (s : State) (cls : TierClass) (a n : Nat) : List Byte × Bool × State :=
  (s.tiers.outerBytes a n, s.tiers.poisoned a n, s.chargeRead cls a n)

/-- A number in the outer tier, without a charge: for structures that an engine keeps beside its registers. -/
def Tiers.outerNum (t : Tiers) (a n : Nat) : Nat := leNat (t.outerBytes a n)

/-- Bytes of a local address in the near or the outer tier. -/
def Tiers.localBytes (t : Tiers) (a n : Nat) : List Byte :=
  if nearBase ≤ a then t.nearBytes (a - nearBase) n else t.outerBytes a n

def Tiers.localNum (t : Tiers) (a n : Nat) : Nat := leNat (t.localBytes a n)

/-- Is a span at a local address uncorrectable? -/
def Tiers.localBad (t : Tiers) (a n : Nat) : Bool :=
  if nearBase ≤ a then t.nearBad (a - nearBase) n else t.poisoned a n

/-- Store bytes at a local address of the near or the outer tier. -/
def State.localWrite (s : State) (a : Nat) (bs : List Byte) : State :=
  if nearBase ≤ a then { s with tiers := s.tiers.nearWrite (a - nearBase) bs } else (s.writeOuter .write a bs).1

/-! The canonical form of the addressed memories: near tier, outer tier with its sector map, and the cores' SPD. -/

def Tiers.wf (t : Tiers) : Bool :=
  Store.wf 0 t.near && Store.wf false t.nearPoison && Store.wf 0 t.outer && Store.wf 0 t.map

def Core.wf (c : Core) : Bool := Store.wf 0 c.spd && Store.wf false c.poison

def Memory.wf (s : State) : Bool := s.tiers.wf && s.cores.all fun c => c.2.wf

/-! Sending. -/

def State.emit (s : State) (x : Sent) : State := { s with sent := s.sent ++ [x] }

/-- Transactions of a client that are not answered. -/
def State.waitingOn (s : State) (p : Client → Bool) : Bool := s.txns.any fun t => p t.client && !t.done

end Sys2Proof.Machine
end

