-- ==== Sys2Proof/Machine/Bound.lean ====
section
/-!
DEFINITION. Results that the spec gives by a bound: the exact real result to far more bits than FP32 holds, by integer
arithmetic, and the choice of a value that meets the bound (03 R70, R71, 07 R190, R197, 08 R208-R213; log 14).
-/
namespace Sys2Proof.Machine

/-! Fixed-point numbers: an integer n stands for n · 2⁻⁵¹². -/

def fixBits : Nat := 512
def fixOne : Int := 2 ^ fixBits
def toFix (q : ℚ) : Int := q.num * fixOne / q.den
def ofFix (n : Int) : ℚ := mkRat n (2 ^ fixBits)
def fixMul (a b : Int) : Int := a * b / fixOne

/-- The first `fuel` terms of a series from term k on: `step` gives the next power, `weigh` the term of one. -/
def fixSum (step weigh : Nat → Int → Int) : Nat → Nat → Int → Int → Int
  | 0, _, _, s => s
  | f + 1, k, t, s => fixSum step weigh f (k + 1) (step k t) (s + weigh k t)

/-- ± by the parity of a term. -/
def alternate (k : Nat) (t : Int) : Int := if k % 2 = 0 then t else -t

/-- artanh(1/n) and arctan(1/n). -/
def artanhInv (n : Int) : Int := fixSum (fun _ t => t / (n * n)) (fun k t => t / (2 * k + 1)) 200 0 (fixOne / n) 0
def arctanInv (n : Int) : Int :=
  fixSum (fun _ t => t / (n * n)) (fun k t => alternate k (t / (2 * k + 1))) 200 0 (fixOne / n) 0

def fixLn2 : Int := 18 * artanhInv 26 - 2 * artanhInv 4801 + 8 * artanhInv 8749
def fixPi : Int := 16 * arctanInv 5 - 4 * arctanInv 239

/-- eʳ for 0 ≤ r < 1. -/
def fixExpSmall (r : Int) : Int := fixSum (fun k t => fixMul t r / (k + 1)) (fun _ t => t) 120 0 fixOne 0

/-- eˣ. -/
def fixExp (x : Int) : Int :=
  let k := x / fixLn2
  let t := fixExpSmall (x - k * fixLn2)
  if 0 ≤ k then t * 2 ^ k.toNat else t / 2 ^ (-k).toNat

/-- sin r and cos r for |r| ≤ 2. -/
def fixSin (r : Int) : Int :=
  fixSum (fun k t => fixMul (fixMul t r) r / ((2 * k + 2) * (2 * k + 3))) (fun k t => alternate k t) 80 0 r 0
def fixCos (r : Int) : Int :=
  fixSum (fun k t => fixMul (fixMul t r) r / ((2 * k + 1) * (2 * k + 2))) (fun k t => alternate k t) 80 0 fixOne 0

/-- ∫₀ʸ exp(−t²) dt for |y| ≤ 12. -/
def fixErfInt (y : Int) : Int :=
  fixSum (fun k t => fixMul (fixMul t y) y / (k + 1)) (fun k t => alternate k (t / (2 * k + 1))) 700 0 y 0

/-! The same on rationals. -/

/-- ⌊log₂ |q|⌋ of a non-zero rational. -/
def ratLog2 (q : ℚ) : Int :=
  let k : Int := (Nat.log2 q.num.natAbs : Int) - Nat.log2 q.den
  if (2 : ℚ) ^ k ≤ |q| then k else k - 1

def sqrtR (q : ℚ) : ℚ := mkRat (Nat.sqrt (q.num.natAbs * q.den * 4 ^ fixBits)) (q.den * 2 ^ fixBits)

/-- eˣ; beyond ±300 the result lies far outside FP32 and stands for any such. -/
def expR (x : ℚ) : ℚ := if 300 < x then 2 ^ 400 else if x < -300 then 1 / 2 ^ 400 else ofFix (fixExp (toFix x))

/-- ln q of a positive rational. -/
def lnR (q : ℚ) : ℚ :=
  let k := ratLog2 q
  let m := q / 2 ^ k
  let t := toFix ((m - 1) / (m + 1))
  ofFix (2 * fixSum (fun _ p => fixMul (fixMul p t) t) (fun k p => p / (2 * k + 1)) 170 0 t 0 + k * fixLn2)

/-- sin x and cos x: the quarter turns are taken off first. -/
def sinCosR (x : ℚ) : ℚ × ℚ :=
  let n := toFix x
  let q := (2 * n + fixPi / 2) / fixPi
  let r := n - q * fixPi / 2
  let s := ofFix (fixSin r)
  let c := ofFix (fixCos r)
  match (q % 4).toNat with
  | 0 => (s, c)
  | 1 => (c, -s)
  | 2 => (-s, -c)
  | _ => (-c, s)

def sigmoidR (x : ℚ) : ℚ := 1 / (1 + expR (-x))

def tanhR (x : ℚ) : ℚ :=
  if 100 < x then 1 else if x < -100 then -1 else let e := expR (2 * x); (e - 1) / (e + 1)

/-- 2/√π · ∫₀ʸ exp(−t²) dt. -/
def erfR (y : ℚ) : ℚ :=
  if 12 < y then 1 else if y < -12 then -1 else 2 * ofFix (fixErfInt (toFix y)) / sqrtR (ofFix fixPi)

/-- x · Φ(x); below −16 the result lies under every FP32 subnormal. -/
def geluR (x : ℚ) : ℚ := if 16 < x then x else if x < -16 then -1 / 2 ^ 400 else x * (1 + erfR (x / sqrtR 2)) / 2

/-! The choice of a result. -/

/-- The rational that a finite value is; 0 for the others. -/
def Val.rat : Val → ℚ
  | .num s m e => (if s then -1 else 1) * m * (2 : ℚ) ^ e
  | _ => 0

/-- A rational as a value: 600 bits and a sticky bit, so that rounding it once rounds the rational correctly. -/
def ratVal (q : ℚ) : Val := quotient (.num (decide (q < 0)) q.num.natAbs 0) (.num false q.den 0)

/-- A real number, an infinity or NaN: what a formula of R208 and R209 gives before any rounding. -/
inductive Ext where
  | nan
  | inf (neg : Bool)
  | fin (q : ℚ)

def Val.ext : Val → Ext
  | .nan => .nan
  | .inf s => .inf s
  | v => .fin v.rat

def Ext.neg : Ext → Ext
  | .nan => .nan | .inf s => .inf (!s) | .fin q => .fin (-q)

def Ext.add : Ext → Ext → Ext
  | .nan, _ => .nan
  | _, .nan => .nan
  | .inf a, .inf b => if a = b then .inf a else .nan
  | .inf a, .fin _ => .inf a
  | .fin _, .inf b => .inf b
  | .fin a, .fin b => .fin (a + b)

def Ext.sub (a b : Ext) : Ext := a.add b.neg

def Ext.mul : Ext → Ext → Ext
  | .nan, _ => .nan
  | _, .nan => .nan
  | .inf a, .inf b => .inf (a != b)
  | .inf a, .fin q => if q = 0 then .nan else .inf (a != decide (q < 0))
  | .fin q, .inf b => if q = 0 then .nan else .inf (b != decide (q < 0))
  | .fin a, .fin b => .fin (a * b)

def Ext.div : Ext → Ext → Ext
  | .nan, _ => .nan
  | _, .nan => .nan
  | .inf _, .inf _ => .nan
  | .inf a, .fin q => .inf (a != decide (q < 0))
  | .fin _, .inf _ => .fin 0
  | .fin a, .fin b => if b = 0 then (if a = 0 then .nan else .inf (decide (a < 0))) else .fin (a / b)

def Ext.exp : Ext → Ext
  | .nan => .nan
  | .inf s => if s then .fin 0 else .inf false
  | .fin q => .fin (expR q)

/-- |x|; 0 where x is no number. -/
def Ext.mag : Ext → ℚ
  | .fin q => |q|
  | _ => 0

def Ext.sum (xs : List Ext) : Ext := xs.foldl Ext.add (.fin 0)

/-- A unit in the last place of FP32 at a real number. -/
def ulp32 (x : ℚ) : ℚ := (2 : ℚ) ^ (if x = 0 then -149 else max (ratLog2 x - 23) (-149))

/-- The FP32 result of a unit for the exact result `x` within `err` of it: the unit's own code `w` where that lies within
the bound, and `x` rounded where it does not. A result beyond FP32 follows `OVF` and one below 2⁻¹⁴⁹ flushes (R71). -/
def within (x err : ℚ) (w : BitVec 32) : Val :=
  let s := decide (x < 0)
  if x = 0 then .zero
  else if |x| < (2 : ℚ) ^ (-149 : Int) then .num s 1 (-256)
  else
    let v := val32 w.toNat
    if v.finite && decide (|v.rat - x| ≤ err) then (if v.isZero then .num s 1 (-256) else v)
    else
      let e := round32 (ratVal x)
      if (val32 e.code).finite then val32 e.code else .num s 1 256

/-- The same of a formula that may give an infinity or NaN. -/
def Ext.within (x : Ext) (err : ℚ) (w : BitVec 32) : Val :=
  match x with
  | .nan => .nan
  | .inf s => .inf s
  | .fin q => Machine.within q err w

/-- What tells a value from every other, for the inputs of a unit's own choice. -/
def Val.key : Val → List Int
  | .nan => [0]
  | .inf s => [1, s.toNat]
  | .num s m e => [2, s.toNat, m, e]

end Sys2Proof.Machine
end

