-- ==== Sys2Proof/Machine/Mxe.lean ====
section
/-!
DEFINITION. The matrix engine: products, spans, banks, spill, resume and drain (06 R154-R180, 03 R62-R76).
-/
namespace Sys2Proof.Machine

/-- An accumulator value: 24-bit significand, exact below that, to nearest even (R62, R163). A zero is +0. -/
def round24 : Val → Val
  | .num s m e =>
    if m = 0 then .zero else
      let n := Nat.log2 m
      if n ≤ 23 then .num s (m * 2 ^ (23 - n)) (e - (23 - n : Nat))
      else
        let d := n - 23
        let q := m / 2 ^ d
        let q := if roundUpBit 0 0 q (m % 2 ^ d) d then q + 1 else q
        if q = 2 ^ 24 then .num s (2 ^ 23) (e + d + 1) else .num s q (e + d)
  | v => v

/-- The BF16 pieces of an FP32 operand (R66). -/
def pieces (v : Val) : List Val :=
  match v with
  | .num .. =>
    let a0 := decode .bf16 (encode .bf16 0 0 0 v).code
    let r1 := v.sub a0
    let a1 := decode .bf16 (encode .bf16 0 0 0 r1).code
    let a2 := decode .bf16 (encode .bf16 0 0 0 (r1.sub a1)).code
    [a0, a1, a2]
  | _ => [v, .zero, .zero]

/-- The passes of a SPLIT level, as pairs of piece numbers (R66). -/
def passes : Nat → List (Nat × Nat)
  | 2 => [(0, 0), (0, 1), (1, 0)]
  | 3 => [(0, 0), (0, 1), (1, 0), (1, 1), (0, 2), (2, 0)]
  | _ => [(0, 0)]

/-- Piece k of an operand in format f (R66, R68): only FP32 is split. -/
def piece (f : Fmt) (v : Val) (k : Nat) : Val :=
  if f = .fp32 then (pieces v)[k]?.getD .zero else if k = 0 then v else .zero

/-- Close a span: the run folds into the pair by a two-sum and is renormalised (R63; log 20). -/
def BankElem.close (x : BankElem) : BankElem :=
  let t := x.hi.add x.run
  match t with
  | .num .. =>
    let s := round24 t
    let l := round24 (x.lo.add (t.sub s))
    let u := s.add l
    let h := round24 u
    ⟨.zero, h, round24 (u.sub h)⟩
  | _ => ⟨.zero, t, .zero⟩

/-- The exact value of an element, open span included (R170, R185). -/
def BankElem.value (x : BankElem) : Val :=
  match (x.hi.add x.lo).add x.run with
  | .num s m e => if m = 0 then .zero else .num s m e
  | v => v

/-- Element (r, k) of a bank. -/
def Bank.at (x : Bank) (r k : Nat) : BankElem := Store.get .zero x.elems (64 * r + k)

/-- Close the open span of every element (R162). -/
def Bank.close (x : Bank) : Bank :=
  { x with elems := x.elems.foldl (fun m p => Store.set .zero m p.1 p.2.close) [], spanK := 0, groups := 0 }

/-- SPILL_K / 256 of an MM (R157). -/
def mmSpk (d : Desc) : Nat := let v := dfld d 0x20 24 16; if v = 0 then 16 else v

/-- What an MM or MM_DW names (R157, R158). -/
structure MmArgs where
  x : Tensor
  w : Tensor
  xb : Nat
  wb : Nat
  k0 : Nat
  klen : Nat
  mt : Nat
  nt : Nat
  split : Nat
  xt : Bool
  init : Bool
  mmode : Nat
  maskOff : Nat
  deriving DecidableEq, Repr

def mmArgs (c : Core) (e : Env) (d : Desc) : MmArgs where
  x := c.ti e d 0
  w := c.ti e d 1
  xb := dfld d 8 47 32
  wb := dfld d 8 63 48
  k0 := dfld d 0x10 23 0
  klen := dfld d 0x10 47 24
  mt := dfld d 0x18 17 0
  nt := dfld d 0x18 49 32
  split := dfld d 0x20 9 8
  xt := dbit d 0x20 6
  init := dbit d 0x20 5
  mmode := dfld d 0x28 1 0
  maskOff := dfld d 0x28 52 32

def MmArgs.m (a : MmArgs) : Nat := if a.xt then a.x.cols else a.x.rows
def MmArgs.xk (a : MmArgs) : Nat := if a.xt then a.x.rows else a.x.cols

/-- X[m, k] (R158). -/
def MmArgs.xAt (a : MmArgs) (c : Core) (m k : Nat) : Val :=
  if a.xt then c.value a.x a.xb k m else c.value a.x a.xb m k

/-- Bytes of the mask bitmap (R160). -/
def MmArgs.maskBytes (a : MmArgs) : Nat :=
  if a.mmode = 1 then cdiv a.m 8 else if a.mmode = 2 then cdiv (cdiv a.m 64 * cdiv a.w.cols 64) 8 else 0

/-- A bit of an SPD bitmap. -/
def Core.bitAt (c : Core) (off i : Nat) : Bool := (c.byte (off + i / 8)).getLsbD (i % 8)

/-- Is output row m masked (R160)? -/
def MmArgs.rowMasked (a : MmArgs) (c : Core) (m : Nat) : Bool := a.mmode = 1 && c.bitAt a.maskOff m

/-- Is the output tile masked (R160)? -/
def MmArgs.tileMasked (a : MmArgs) (c : Core) : Bool :=
  a.mmode = 2 && c.bitAt a.maskOff (a.mt * cdiv a.w.cols 64 + a.nt)

/-- Fields of MM and MM_DW (R157). -/
def mmFields (dw : Bool) : List Field :=
  [(8, 63, 32), (8, 15, 0), (0x10, 47, 0), (0x18, 49, 32), (0x18, 17, 0), (0x20, 24, 16), (0x20, 9, 8), (0x20, 6, 0)]
    ++ (if dw then [(0x28, 52, 32), (0x28, 1, 0)] else [])

/-- MXE operands must be in the square-tile layout (R106, R156). -/
def mxeTensor (t : Tensor) : List FaultAt :=
  t.spdFaults false ++ faultIf (t.sound && t.layout != 0) (.plain .badDescriptor)

/-- The faults of MM and MM_DW at issue (R125-R127, R156, R159, R165, R68). -/
def mmFaults (dw : Bool) (c : Core) (e : Env) (d : Desc) : List FaultAt :=
  let a := mmArgs c e d
  let b := c.bank (mxeBank d).1
  faultIf (commonBad d e.loops (mmFields dw) [0, 1] false) (.plain .badDescriptor) ++
  mxeTensor a.x ++ mxeTensor a.w ++
  faultIf (a.k0 % 16 != 0 || a.klen = 0 || a.split = 0 || dfld d 0x20 24 16 > 256 ||
    (dw && (a.mmode = 3 || (a.mmode != 0 && a.maskOff % 8 != 0))) ||
    (a.split ≥ 2 && (a.x.fmtCode != 0 || a.w.fmtCode != 0)) ||
    (!a.init && b.tst = 1 && b.tspk != mmSpk d)) (.plain .badDescriptor) ++
  faultIf (a.x.sound && a.w.sound &&
    (a.m ≤ 64 * a.mt || a.w.cols ≤ 64 * a.nt || a.xk < a.k0 + a.klen || a.w.rows < a.k0 + a.klen ||
      a.x.batchM1 < a.xb || a.w.batchM1 < a.wb || (dw && a.mmode != 0 && outsideSpd a.maskOff a.maskBytes)))
    (.plain .tensorBounds) ++
  faultIf (accConflict c (mxeBank d)) (.plain .accConflict)

/-- Width class of R154: 0 for 16-bit, 1 for 8-bit, 2 for 4-bit. -/
def widthClass (f : Fmt) : Nat := if 16 ≤ f.width then 0 else if f.width = 8 then 1 else 2

/-- Array cycles of R174. -/
def mmCycles (a : MmArgs) (mu : Nat) (tileMasked : Bool) : Nat :=
  if tileMasked then 1 else
    let cls := min (widthClass a.x.fmt) (widthClass a.w.fmt)
    let D := 64 * 2 ^ cls
    let q := 16 * 2 ^ cls
    let r := if a.klen ≤ q then 4 else if a.klen ≤ 2 * q then 2 else 1
    let cyc := ((List.range (cdiv a.klen D)).map fun b =>
      max (cdiv mu r) (cdiv (min D (a.klen - b * D) * a.w.fmt.width) 64)).foldl (· + ·) 0
    (passes a.split).length * cyc

/-- Output rows of the tile that lie within M (R158). -/
def MmArgs.rows (a : MmArgs) : Nat := min 64 (a.m - 64 * a.mt)

/-- Output columns of the tile that lie within N (R158). -/
def MmArgs.cols (a : MmArgs) : Nat := min 64 (a.w.cols - 64 * a.nt)

/-- The output rows that are streamed: within M and not row-masked (R161, R174). -/
def MmArgs.streamed (a : MmArgs) (c : Core) : List Nat :=
  (List.range a.rows).filter fun i => !a.rowMasked c (64 * a.mt + i)

/-- Cycles to load the first stationary block (R174). -/
def mmLoad (a : MmArgs) : Nat :=
  cdiv (min (64 * 2 ^ min (widthClass a.x.fmt) (widthClass a.w.fmt)) a.klen * a.w.fmt.width) 64

/-- When an MM or MM_DW runs: it waits for the array, then for its bank; what those waits leave of its first load comes
before its rows, and its last products land 12 cycles after the last row (R165, R174, R176; log 76). -/
def mmSlot (a : MmArgs) (c : Core) (d : Desc) : Slot :=
  let masked := a.tileMasked c
  let e := c.engineFree 1
  let o := max e (c.bankOpens (mxeBank d).1 false)
  let load := if masked then 0 else mmLoad a
  let b := o + (load - (o - c.clk))
  let f := b + mmCycles a (a.streamed c).length masked
  ⟨b, f, if masked then f else f + 12, o - e, load - (e - c.clk)⟩

/-- One group of at most 16 K indices into the running sum of an element, all passes (R62, R162, R163). -/
def mmGroup (a : MmArgs) (c : Core) (m n k len : Nat) (run : Val) : Val :=
  let terms := (List.range len).map fun i => (a.xAt c m (k + i), c.value a.w a.wb (k + i) n)
  (passes a.split).foldl (fun acc p =>
    let g := terms.foldl (fun s t => s.add ((piece a.x.fmt t.1 p.1).mul (piece a.w.fmt t.2 p.2))) .zero
    round24 (acc.add g)) run

/-- The groups of a K range with the span closings: for each group its first index, its length and whether the span
closes after it; `cnt` indices are in the open span (R162). -/
def mmPlan (spillK : Nat) : Nat → Nat → Nat → Nat → List (Nat × Nat × Bool)
  | 0, _, _, _ => []
  | f + 1, k, left, cnt =>
    if left = 0 then [] else
      let n := min 16 left
      let cl := decide (spillK ≤ cnt + n)
      (k, n, cl) :: mmPlan spillK f (k + n) (left - n) (if cl then 0 else cnt + n)

/-- Run a plan on one element. -/
def mmElem (a : MmArgs) (c : Core) (m n : Nat) (plan : List (Nat × Nat × Bool)) (x : BankElem) : BankElem :=
  plan.foldl (fun x g =>
    let x := { x with run := mmGroup a c m n g.1 g.2.1 x.run }
    if g.2.2 then x.close else x) x

/-- Indices and groups in the open span after a plan. -/
def spanAfter (plan : List (Nat × Nat × Bool)) (cnt grp : Nat) : Nat × Nat :=
  plan.foldl (fun p g => if g.2.2 then (0, 0) else (p.1 + g.2.1, p.2 + 1)) (cnt, grp)

/-- The mask bits that a descriptor consults: first bit and number (R160, R161). -/
def MmArgs.maskSpan (a : MmArgs) : Nat × Nat :=
  if a.mmode = 1 then (64 * a.mt, a.rows) else if a.mmode = 2 then (a.mt * cdiv a.w.cols 64 + a.nt, 1) else (0, 0)

/-- The first poisoned byte an MM or MM_DW reads (R119): under a tile mask nothing is streamed, and rows that a row mask
names are not (R161). -/
def mmPoison (a : MmArgs) (c : Core) (e : Env) (d : Desc) : Option Nat :=
  if c.poison.isEmpty then none else
  (tiPoison c e d [0, 1]).orElse fun _ =>
  let ms := a.maskSpan
  let mb := a.maskOff + ms.1 / 8
  (if c.spdPoison mb (spanBytes ms.1 ms.2) then some mb else none).orElse fun _ =>
  if a.tileMasked c then none else
  (firstPoison c a.w a.wb (regionCells a.k0 a.klen (64 * a.nt) a.cols)).orElse fun _ =>
  let ms := (regionCells 0 a.rows a.k0 a.klen).filter fun q => !a.rowMasked c (64 * a.mt + q.1)
  firstPoison c a.x a.xb (ms.map fun q => if a.xt then (q.2, 64 * a.mt + q.1) else (64 * a.mt + q.1, q.2))

/-- The elements of a bank with every open run closed, where a plan closes a span: spans are counted per bank, so those
that the descriptor adds nothing to close too (R162). -/
def Bank.closedBy (x : Bank) (plan : List (Nat × Nat × Bool)) : Store BankElem :=
  if plan.any (·.2.2) then x.close.elems else x.elems

/-- The bank after an MM or MM_DW that runs (R158-R164). A row mask sets the elements of its rows to +0 within N, and one
that masks every row makes the bank HELD as any other (log 76). -/
def mmBank (a : MmArgs) (c : Core) (d : Desc) : Bank :=
  let k := mxeBank d
  let old := if a.init then Bank.empty k.2 else { c.bank k.1 with agrp := k.2 }
  if a.tileMasked c then
    if a.init || old.st != 1 then { Bank.empty k.2 with st := 2, tst := 2 } else old
  else
    let spk := if old.st = 1 then old.spk else mmSpk d
    let start := if old.st = 1 then old else Bank.empty k.2
    let plan := mmPlan (256 * spk) (a.klen / 16 + 1) a.k0 a.klen start.spanK
    let elems := (regionCells 0 a.rows 0 a.cols).foldl (fun m q =>
      Store.set .zero m (64 * q.1 + q.2)
        (if a.rowMasked c (64 * a.mt + q.1) then .zero
         else mmElem a c (64 * a.mt + q.1) (64 * a.nt + q.2) plan (start.at q.1 q.2))) (start.closedBy plan)
    let sp := spanAfter plan start.spanK start.groups
    ⟨1, spk, 1, spk, k.2, sp.1, sp.2, elems⟩

/-- A descriptor that its bank holds although its engine could take it counts in `MXE_SERIAL` (R165, R180). -/
def Core.countSerial (c : Core) (unit b : Nat) (late : Bool) : Core :=
  if c.heldForBank unit b late then c.countSat 0x210 1 else c

/-- Run MM or MM_DW. `MXE_ARRAY_CYCLES` counts the rows it streams and the blocks it loads for itself, and
`MXE_STALL_CYCLES` its wait for the bank (R174, R176, R180). -/
def mmRun (c : Core) (e : Env) (d : Desc) : RunRes :=
  let a := mmArgs c e d
  let b := mmBank a c d
  let c1 := c.countSerial 1 (mxeBank d).1 false
  match mmPoison a c e d with
  | some addr =>
    ⟨c1.setBank (mxeBank d).1 { c.bank (mxeBank d).1 with tst := b.st, tspk := b.spk, agrp := (mxeBank d).2 },
      [.atSpd .poisonInput addr], 0⟩
  | none =>
    let t := mmSlot a c d
    let run := if a.tileMasked c then 0 else mmCycles a (a.streamed c).length false
    .ok (((c1.setBank (mxeBank d).1 b).countWrap 0x208 (run + t.loads)).countWrap 0x20C t.stall)

/-! ACC_CLEAR, ACC_SPILL, ACC_RESUME (R167, R168). -/

/-- Bytes of a spill buffer (R168). -/
def spillSize : Nat := 49216

def accFields (buf : Bool) : List Field := (0x20, 4, 0) :: (if buf then [(0x10, 20, 0)] else [])

/-- The header word of a spill buffer. -/
def spillHeader (c : Core) (buf : Nat) : BitVec 32 := BitVec.ofNat 32 (c.num (buf + 0xC000) 4)

/-- Faults of ACC_CLEAR, ACC_SPILL and ACC_RESUME at issue (R167). -/
def accFaults (buf resume : Bool) (c : Core) (e : Env) (d : Desc) : List FaultAt :=
  let off := dfld d 0x10 20 0
  let h := spillHeader c off
  faultIf (commonBad d e.loops (accFields buf) [] false || (buf && off % 64 != 0)) (.plain .badDescriptor) ++
  faultIf (resume && !outsideSpd off spillSize &&
      (fld h 17 16 = 3 || fld h 8 0 = 0 || 256 < fld h 8 0 || fld h 31 18 != 0 || fld h 15 9 != 0))
    (.plain .badDescriptor) ++
  faultIf (buf && outsideSpd off spillSize) (.atSpd .tensorBounds off) ++
  faultIf (accConflict c (mxeBank d)) (.plain .accConflict)

/-- When an ACC_SPILL, ACC_RESUME or ACC_CLEAR runs (R165, R175). -/
def accSlot (c : Core) (_ : Env) (d : Desc) : Slot :=
  let b := some (mxeBank d).1
  match Dsc.opcode d with
  | 0x13 => c.slotFor 5 b false 32 8
  | 0x14 => c.slotFor 5 b true 32 8
  | _ => c.slotFor 5 b true 2 0

def accClearRun (c : Core) (_ : Env) (d : Desc) : RunRes :=
  .ok ((c.countSerial 5 (mxeBank d).1 true).setBank (mxeBank d).1 (Bank.empty (mxeBank d).2))

/-- The stored word and exponent of one half of a pair (R168). -/
def spillWord (v : Val) : Nat × Int :=
  match v with
  | .num s m e =>
    if m = 0 then (0, 0) else
      let x := ilog2 m e
      ((encode .fp32 0 0 0 (.num s m (e - x))).code, x)
  | .inf s => (Fmt.fp32.infCode s, 0)
  | .nan => (0x7FC00000, 0)

/-- A 16-bit two's complement code. -/
def code16 (x : Int) : Nat := (x % 65536).toNat

/-- The image of a bank with its span closed (R168). -/
def spillImage (b : Bank) : List Byte :=
  let held := b.st = 1
  let el := fun i => if held then Store.get BankElem.zero b.elems i else .zero
  ((List.range 4096).map fun i => natLe 4 (spillWord (el i).hi).1 ++ natLe 4 (spillWord (el i).lo).1).flatten ++
  ((List.range 4096).map fun i =>
    natLe 2 (code16 (spillWord (el i).hi).2) ++ natLe 2 (code16 (spillWord (el i).lo).2)).flatten ++
  natLe 4 (b.st * 65536 + (if held then b.spk else 1)) ++ List.replicate 60 0

def accSpillRun (c : Core) (_ : Env) (d : Desc) : RunRes :=
  let k := mxeBank d
  let b := (c.bank k.1).close
  .ok (((c.countSerial 5 k.1 false).write (dfld d 0x10 20 0) (spillImage b)).setBank k.1 (Bank.empty k.2))

/-- The pair half that a spill buffer holds. -/
def resumeVal (word x : Nat) : Val := round24 ((val32 word).scale (signedOf 16 x))

/-- The bank that a spill buffer holds (R167, R168). -/
def resumeBank (c : Core) (off agrp : Nat) : Bank :=
  let h := spillHeader c off
  let st := fld h 17 16
  if st != 1 then { Bank.empty agrp with st := st, tst := st } else
  let elems := (List.range 4096).foldl (fun m i => Store.set .zero m i
    ⟨.zero, resumeVal (c.num (off + 8 * i) 4) (c.num (off + 0x8000 + 4 * i) 2),
      resumeVal (c.num (off + 8 * i + 4) 4) (c.num (off + 0x8002 + 4 * i) 2)⟩) []
  ⟨1, fld h 8 0, 1, fld h 8 0, agrp, 0, 0, elems⟩

def accResumeRun (c : Core) (_ : Env) (d : Desc) : RunRes :=
  let k := mxeBank d
  let off := dfld d 0x10 20 0
  let b := resumeBank c off k.2
  let c1 := c.countSerial 5 k.1 true
  if c.spdPoison off spillSize then
    ⟨c1.setBank k.1 { c.bank k.1 with tst := b.st, tspk := b.spk, agrp := k.2 }, [.atSpd .poisonInput off], 0⟩
  else .ok (c1.setBank k.1 b)

/-! ACC_DRAIN (R169-R173). -/

/-- What an ACC_DRAIN names (R169). -/
structure DrainArgs where
  dst : Tensor
  z : Tensor
  ti0 : Nat
  ti1 : Nat
  fb : Nat
  db : Nat
  mt : Nat
  nt : Nat
  sexp : Int
  fbc : Nat
  fuse : Nat
  pair : Bool
  keep : Bool
  deriving DecidableEq, Repr

def drainArgs (c : Core) (e : Env) (d : Desc) : DrainArgs where
  dst := c.ti e d 0
  z := c.ti e d 1
  ti0 := tensorIndex d e.loops 0
  ti1 := tensorIndex d e.loops 1
  fb := dfld d 8 63 48
  db := dfld d 8 47 32
  mt := dfld d 0x18 17 0
  nt := dfld d 0x18 49 32
  sexp := signedOf 8 (dfld d 0x20 23 16)
  fbc := dfld d 0x20 11 10
  fuse := dfld d 0x20 9 8
  pair := dbit d 0x20 7
  keep := dbit d 0x20 6

def drainFields : List Field := [(8, 63, 32), (8, 15, 0), (0x18, 49, 32), (0x18, 17, 0), (0x20, 23, 16), (0x20, 11, 6), (0x20, 4, 0)]

/-- Bank rows and columns that fall within the destination (R170, R172). -/
def DrainArgs.rows (a : DrainArgs) : Nat := min 64 (a.dst.rows - 64 * a.mt)
def DrainArgs.cols (a : DrainArgs) : Nat :=
  if a.pair then min 64 ((a.dst.cols + 1) / 2 - 64 * a.nt) else min 64 (a.dst.cols - 64 * a.nt)

/-- Row and column of the fused element of bank element (r, k) (R171). -/
def DrainArgs.zAt (a : DrainArgs) (r k : Nat) : Nat × Nat :=
  (if a.fbc = 1 then 0 else 64 * a.mt + r, if a.fbc = 2 then 0 else 64 * a.nt + k)

/-- Faults of ACC_DRAIN at issue (R172, R76, R113). -/
def drainFaults (c : Core) (e : Env) (d : Desc) : List FaultAt :=
  let a := drainArgs c e d
  let rows := a.rows
  let cols := a.cols
  let far := a.zAt (rows - 1) (cols - 1)
  faultIf (commonBad d e.loops drainFields [0, 1] true) (.plain .badDescriptor) ++
  mxeTensor a.dst ++ (if a.fuse = 0 then [] else mxeTensor a.z) ++
  faultIf (a.fuse = 3 || a.fbc = 3 || (a.fbc != 0 && a.fuse = 0) || (a.dst.sound && a.dst.bs = 5) ||
    (a.pair && ((a.dst.fmtCode != 0 && a.dst.fmtCode != 1) || Dsc.rnd d != 0 || a.dst.bs != 0 || a.fuse != 0)))
    (.plain .badDescriptor) ++
  faultIf (a.dst.sound && (a.dst.rows ≤ 64 * a.mt || a.dst.cols ≤ (if a.pair then 128 else 64) * a.nt ||
      a.dst.batchM1 < a.db)) (.plain .tensorBounds) ++
  faultIf (a.fuse != 0 && a.z.sound && a.dst.sound && rows != 0 && cols != 0 &&
      (a.z.rows ≤ far.1 || a.z.cols ≤ far.2 || a.z.batchM1 < a.fb)) (.plain .tensorBounds) ++
  faultIf (accConflict c (mxeBank d)) (.plain .accConflict)

/-- The exact result of bank element (r, k) before its rounding (R170). -/
def drainVal (a : DrainArgs) (c : Core) (b : Bank) (r k : Nat) : Val :=
  let v := (b.at r k).value.scale a.sexp
  let q := a.zAt r k
  if a.fuse = 1 then v.add (c.value a.z a.fb q.1 q.2)
  else if a.fuse = 2 then v.mul (c.value a.z a.fb q.1 q.2) else v

/-- The pair (h, l) of R74 and the events of h; l is a code of the destination format. -/
def pairOf (f : Fmt) (ovf : Nat) (v : Val) : Enc × Enc :=
  let h := encode f 0 ovf 0 v
  let noL := h.exceed || match decode f h.code with | .num .. => false | _ => true
  (h, if noL then ⟨0, false, false, false⟩ else encode f 0 0 0 (v.sub (decode f h.code)))

/-- Write the pairs of R75; a histogram slot counts h only (R76). -/
def writePairs (w : Writer) (a : DrainArgs) (cells : List (Nat × Nat × Val)) (c : Core) : Written :=
  cells.foldl (fun x q =>
    let p := pairOf a.dst.fmt w.ovf q.2.2
    let r := 64 * a.mt + q.1
    let k := 2 * (64 * a.nt + q.2.1)
    let x := countElem w (x.1.setCode a.dst a.db r k p.1.code, x.2) (decode a.dst.fmt p.1.code) p.1
    if k + 1 < a.dst.cols then (x.1.setCode a.dst a.db r (k + 1) p.2.code, x.2.add p.2) else x) (c, .zero)

/-- The destination bytes that an overlap with the fused operand's footprint, scales included, leaves undefined (R171). -/
def drainOverlap (a : DrainArgs) (cells : List (Nat × Nat)) : List Nat :=
  if a.fuse = 0 || (a.fbc = 0 && a.ti0 = a.ti1 && a.fb = a.db) || !a.dst.mayOverlap a.z then []
  else (a.dst.regionBytes a.db cells).filter fun x => a.z.holds x

/-- The bank after a fault-free drain (R173). -/
def drainedBank (b : Bank) (keep : Bool) (agrp : Nat) : Bank :=
  if keep then { b.close with agrp := agrp } else Bank.empty agrp

/-- When an ACC_DRAIN runs; `st` is the bank's state then (R165, R175). -/
def drainSlot (c : Core) (e : Env) (d : Desc) (st : Nat) : Slot :=
  let a := drainArgs c e d
  let b := some (mxeBank d).1
  if st = 2 then c.slotFor 5 b false 1 0
  else c.slotFor 5 b false (if a.pair then a.rows else cdiv a.rows 2) 8

/-- The destination elements of a drain (R170, R172). -/
def DrainArgs.cells (a : DrainArgs) : List (Nat × Nat) :=
  let cells := regionCells 0 a.rows 0 a.cols
  if a.pair then
    (cells.map fun q => [(64 * a.mt + q.1, 2 * (64 * a.nt + q.2)), (64 * a.mt + q.1, 2 * (64 * a.nt + q.2) + 1)]).flatten
      |>.filter fun q => q.2 < a.dst.cols
  else cells.map fun q => (64 * a.mt + q.1, 64 * a.nt + q.2)

/-- Run ACC_DRAIN. -/
def drainRun (c : Core) (e : Env) (d : Desc) : RunRes :=
  let a := drainArgs c e d
  let k := mxeBank d
  let c1 := c.countSerial 5 k.1 false
  let b := (c.bank k.1).close
  let after := drainedBank (c.bank k.1) a.keep k.2
  let fail : Bank := { c.bank k.1 with tst := after.st, tspk := after.spk, agrp := k.2 }
  if b.st = 2 then .ok (c1.setBank k.1 after)
  else
    let cells := regionCells 0 a.rows 0 a.cols
    let dcells := a.cells
    let zcells := if a.fuse = 0 then [] else cells.map fun q => a.zAt q.1 q.2
    match (tiPoison c e d (if a.fuse = 0 then [0] else [0, 1])).orElse fun _ => firstPoison c a.z a.fb zcells with
    | some addr => .poisoned (c1.setBank k.1 fail) e.free addr (a.dst.regionBytes a.db dcells)
    | none =>
      let w := writerOf e d
      let vals := cells.map fun q => (q.1, q.2, drainVal a c b q.1 q.2)
      let x := if a.pair then writePairs w a vals c1
        else writeCells w a.dst a.db (vals.map fun q => (64 * a.mt + q.1, 64 * a.nt + q.2.1, .val q.2.2)) c1
      let nts := if a.pair then [2 * a.nt, 2 * a.nt + 1] else [a.nt]
      let c2 := nts.foldl (fun c n => if 64 * n < a.dst.cols then c.padTile a.dst a.db a.mt n else c) x.1
      let lost := drainOverlap a dcells
      let c3 := (c2.scramble e.free lost).tally x.2
      let ovf := ovfFaults (Dsc.ovf d) x.2
      ⟨c3.setBank k.1 (if ovf.isEmpty then after else fail), ovf, lost.length⟩

/-- `MXE_BANKn` (R180). `OPEN_GROUPS` has 13 bits: a larger count reads 8,191 (log 76). -/
def bankWord (c : Core) (n : Nat) : Nat :=
  let b := c.bank n
  b.st * 2 ^ 30 + (bankBusy c n).toNat * 2 ^ 29 + b.agrp % 16 * 2 ^ 25 + (if b.st = 1 then b.spk else 0) * 2 ^ 16
    + min b.groups 8191

end Sys2Proof.Machine
end

