-- ==== Sys2Proof/Machine/Vxe.lean ====
section
/-!
DEFINITION. The vector engine (07 R181-R202).
-/
namespace Sys2Proof.Machine

/-- The vector opcodes of R188. -/
inductive VOp where
  | copy | add | sub | mul | fma | max | min | neg | abs | cmp | select | func | reduce | psum | perm | compress
  | expand | randU | randN | dropout | randBits
  deriving DecidableEq, Repr

/-- Byte 0 of the descriptor (R188). -/
def VOp.code : VOp → Nat
  | .copy => 0x20 | .add => 0x21 | .sub => 0x22 | .mul => 0x23 | .fma => 0x24 | .max => 0x25 | .min => 0x26
  | .neg => 0x27 | .abs => 0x28 | .cmp => 0x29 | .select => 0x2A | .func => 0x2B | .reduce => 0x2C | .psum => 0x2D
  | .perm => 0x2E | .compress => 0x2F | .expand => 0x30 | .randU => 0x31 | .randN => 0x32 | .dropout => 0x33
  | .randBits => 0x34

/-- The fields of R182. -/
structure VArgs where
  dst : Tensor
  a : Tensor
  b : Tensor
  c : Tensor
  ti0 : Nat
  ti1 : Nat
  ti2 : Nat
  ti3 : Nat
  sb : Nat
  db : Nat
  fn : Nat
  nr : Nat
  r0 : Nat
  nc : Nat
  c0 : Nat
  empf : Bool
  lenw : Bool
  xval : Bool
  rax : Nat
  mmode : Nat
  agrp : Nat
  bank : Nat
  ck : Nat
  bk : Nat
  ak : Nat
  immc : Nat
  immb : Nat
  cntOff : Nat
  maskOff : Nat
  deriving DecidableEq, Repr

def vArgs (c : Core) (e : Env) (d : Desc) : VArgs where
  dst := c.ti e d 0
  a := c.ti e d 1
  b := c.ti e d 2
  c := c.ti e d 3
  ti0 := tensorIndex d e.loops 0
  ti1 := tensorIndex d e.loops 1
  ti2 := tensorIndex d e.loops 2
  ti3 := tensorIndex d e.loops 3
  sb := dfld d 8 63 48
  db := dfld d 8 47 32
  fn := dfld d 0x10 55 48
  nr := dfld d 0x10 47 24
  r0 := dfld d 0x10 23 0
  nc := dfld d 0x18 47 24
  c0 := dfld d 0x18 23 0
  empf := dbit d 0x20 20
  lenw := dbit d 0x20 19
  xval := dbit d 0x20 18
  rax := dfld d 0x20 17 16
  mmode := dfld d 0x20 15 14
  agrp := dfld d 0x20 13 10
  bank := dfld d 0x20 9 9
  ck := dfld d 0x20 8 6
  bk := dfld d 0x20 5 3
  ak := dfld d 0x20 2 0
  immc := dfld d 0x28 63 32
  immb := dfld d 0x28 31 0
  cntOff := dfld d 0x30 52 32
  maskOff := dfld d 0x30 20 0

/-- Is source A used (R188)? -/
def VOp.usesA : VOp → Bool
  | .randU | .randN | .randBits => false | _ => true

/-- Is source B used (R188)? -/
def VOp.usesB (o : VOp) (fn : Nat) : Bool :=
  match o with
  | .add | .sub | .mul | .fma | .max | .min | .select => true
  | .cmp => fn < 6
  | .func => fn = 13
  | _ => false

/-- Is source C used as a tensor or a scalar (R188)? -/
def VOp.usesC : VOp → Bool
  | .fma | .perm => true | _ => false

/-- Does the opcode write a tensor? -/
def VOp.writesTensor : VOp → Bool
  | .cmp => false | _ => true

/-- Kinds of source A that R188 allows. -/
def VOp.aKinds : VOp → List Nat
  | .reduce | .compress => [0, 4]
  | .psum | .perm | .expand => [0]
  | .randU | .randN | .randBits => [0]
  | _ => [0, 1, 2, 4]

/-- Is the mask bitmap at MASK_OFF read or written? -/
def VArgs.usesMask (v : VArgs) (o : VOp) : Bool :=
  v.mmode = 1 || v.mmode = 2 || o = .cmp || o = .select || o = .compress || o = .expand

/-- Are `IMMB`, `IMMC` used (R182, R188, R197)? -/
def VArgs.usesImmB (v : VArgs) (o : VOp) : Bool :=
  (o.usesB v.fn && v.bk = 3) || o = .dropout || o = .randU || o = .randN
def VArgs.usesImmC (v : VArgs) (o : VOp) : Bool :=
  v.xval || (o.usesC && v.ck = 3) || o = .dropout || o = .randU || o = .randN

/-- The tensors named, with their field numbers. -/
def VArgs.tensors (v : VArgs) (o : VOp) : List (Nat × Tensor) :=
  (if o.writesTensor then [(0, v.dst)] else []) ++ (if o.usesA && v.ak != 4 then [(1, v.a)] else []) ++
  (if o.usesB v.fn && v.bk ≤ 2 then [(2, v.b)] else []) ++ (if o.usesC && v.ck ≤ 2 then [(3, v.c)] else [])

/-- Fields of R182. -/
def vFields : List Field :=
  [(8, 63, 0), (0x10, 55, 0), (0x18, 47, 0), (0x20, 20, 0), (0x28, 63, 0), (0x30, 52, 32), (0x30, 20, 0)]

/-- The largest FN of an opcode (R188-R191). -/
def VOp.fnMax : VOp → Nat
  | .cmp => 7 | .func => 13 | .reduce => 7 | .psum => 255 | .randBits => 31 | _ => 0

/-- An unused field that is not 0 (R182, R188, R200). TI fields of unused sources are ignored. -/
def VArgs.unusedSet (v : VArgs) (o : VOp) : Bool :=
  (!o.usesA && v.ak != 0) || (!o.usesB v.fn && v.bk != 0) || (!o.usesC && v.ck != 0) ||
  (v.ak != 4 && (v.agrp != 0 || v.bank != 0)) ||
  (o != .reduce && (v.rax != 0 || v.empf)) ||
  (!v.usesImmB o && v.immb != 0) || (!v.usesImmC o && v.immc != 0) ||
  (!v.usesMask o && v.maskOff != 0) ||
  (!(v.lenw || v.empf || o = .compress) && v.cntOff != 0) ||
  (!o.writesTensor && v.db != 0) || (v.xval && (o = .cmp || o = .select || o = .psum)) ||
  (v.sb != 0 && !(v.tensors o).any (·.1 != 0))

/-- Is a kind not allowed (R184, R188)? -/
def VArgs.kindBad (v : VArgs) (o : VOp) : Bool :=
  !o.aKinds.contains v.ak || (o.usesB v.fn && 3 < v.bk) ||
  (o = .fma && 3 < v.ck) || (o = .perm && 1 < v.ck)

/-- MMODE against R188. -/
def VArgs.mmodeBad (v : VArgs) (o : VOp) : Bool :=
  v.mmode = 3 ||
  ((o = .cmp || o = .select || o = .compress || o = .psum) && v.mmode != 0) || (o = .expand && v.mmode = 0)

/-- Do the blocks of a block-scaled destination reach beyond the region (R200)? `r1`, `k1` are the region's ends. -/
def blocksCut (t : Tensor) (r0 r1 k0 k1 : Nat) : Bool :=
  r0 % t.rowDiv != 0 || (r1 % t.rowDiv != 0 && r1 != t.rows) || k0 % t.colDiv != 0 ||
    (k1 % t.colDiv != 0 && k1 != t.cols)

/-- The region that the destination receives: that of R183, or the results of a reduction (R191). -/
def VArgs.dstRegion (v : VArgs) (o : VOp) : Nat × Nat × Nat × Nat :=
  if o = .reduce then
    (if v.rax = 0 then (v.r0, v.nr, 0, 1) else if v.rax = 1 then (0, 1, v.c0, v.nc) else (0, 1, 0, 1))
  else (v.r0, v.nr, v.c0, v.nc)

/-- Bytes of the mask bitmap (R186). -/
def VArgs.maskBytes (v : VArgs) : Nat := cdiv (v.nr * v.nc) 8

/-- Results of a reduction (R191). -/
def VArgs.results (v : VArgs) : Nat := if v.rax = 0 then v.nr else if v.rax = 1 then v.nc else 1

/-- Bytes at CNT_OFF: the count words, or the empty bitmap (R187, R192, R195). -/
def VArgs.cntBytes (v : VArgs) (o : VOp) : Nat :=
  if v.lenw || o = .compress then 4 * v.nr else if v.empf then cdiv v.results 8 else 0

/-- Does element (sb, r, k) of a source of the given kind lie outside it (R113, R183)? -/
def srcOutside (t : Tensor) (kind sb nr r0 nc c0 : Nat) : Bool :=
  t.sound && (t.batchM1 < sb || (kind != 1 && t.rows < r0 + nr) || (kind != 2 && t.cols < c0 + nc))

/-- Faults of a vector descriptor at issue (R125-R127, R181, R183-R200). -/
def vFaults (o : VOp) (c : Core) (e : Env) (d : Desc) : List FaultAt :=
  let v := vArgs c e d
  let dr := v.dstRegion o
  let blocky := o.writesTensor && v.dst.sound && v.dst.bs != 0
  faultIf (commonBad d e.loops vFields [0, 1, 2, 3] (o != .cmp)) (.plain .badDescriptor) ++
  ((v.tensors o).map fun q => q.2.spdFaults (o = .copy)).flatten ++
  faultIf (v.kindBad o || v.nr = 0 || v.nc = 0 || v.unusedSet o || o.fnMax < v.fn || v.mmodeBad o ||
    (o = .reduce && v.rax = 3) || (v.ak = 4 && o.usesA && (64 < v.nr || 64 < v.nc)) ||
    (v.usesMask o && v.maskOff % 8 != 0) || ((v.lenw || o = .compress) && v.cntOff % 4 != 0) ||
    (v.empf && v.cntOff % 8 != 0) || (v.xval && o.usesC && v.ck = 3) || (v.empf && v.lenw) ||
    (v.lenw && (o = .compress || o = .psum)) ||
    (!o.writesTensor && dfld d 8 7 0 != 0) ||
    ((o = .randU || o = .randN || o = .dropout || o = .randBits) && !Dsc.sidv d) ||
    (o = .psum && v.a.sound && (v.a.fmtCode != 0 || v.a.bs != 0)) ||
    (o = .perm && v.c.sound && v.c.fmtCode != 8) ||
    (((o = .reduce && 6 ≤ v.fn) || o = .randBits) && v.dst.sound &&
      (v.dst.fmtCode != 0 || v.dst.bs != 0 || Dsc.hen d)) ||
    (blocky && (v.mmode = 1 || v.lenw || blocksCut v.dst dr.1 (dr.1 + dr.2.1) dr.2.2.1 (dr.2.2.1 + dr.2.2.2))))
    (.plain .badDescriptor) ++
  faultIf (
    (o.writesTensor && srcOutside v.dst 0 v.db dr.2.1 dr.1 dr.2.2.2 dr.2.2.1) ||
    (o.usesA && v.ak != 4 && srcOutside v.a v.ak (if o = .psum then v.sb + v.fn else v.sb) v.nr v.r0 v.nc v.c0) ||
    (o.usesB v.fn && v.bk ≤ 2 && srcOutside v.b v.bk v.sb v.nr v.r0 v.nc v.c0) ||
    (o.usesC && v.ck ≤ 2 && srcOutside v.c v.ck v.sb v.nr v.r0 v.nc v.c0) ||
    (v.usesMask o && outsideSpd v.maskOff v.maskBytes) || outsideSpd v.cntOff (v.cntBytes o))
    (.plain .tensorBounds) ++
  faultIf (o.usesA && v.ak = 4 && accConflict c (v.bank, v.agrp)) (.plain .accConflict)

/-! Operands (R184-R187). -/

/-- Region columns that row r covers (R187). -/
def VArgs.len (v : VArgs) (c : Core) (r : Nat) : Nat :=
  if v.lenw then min v.nc (c.num (v.cntOff + 4 * (r - v.r0)) 4) else v.nc

/-- The mask bit of region element (r, k) (R186). -/
def VArgs.maskBit (v : VArgs) (c : Core) (r k : Nat) : Bool :=
  c.bitAt v.maskOff ((r - v.r0) * v.nc + (k - v.c0))

/-- The covered elements of the region. -/
def VArgs.covered (v : VArgs) (c : Core) : List (Nat × Nat) :=
  ((List.range v.nr).map fun i => (List.range (v.len c (v.r0 + i))).map fun j => (v.r0 + i, v.c0 + j)).flatten

/-- Is a region element active (R186)? -/
def VArgs.active (v : VArgs) (c : Core) (r k : Nat) : Bool := v.mmode = 0 || v.maskBit c r k

/-- An operand of a tile, vector or scalar kind. -/
def srcVal (c : Core) (t : Tensor) (kind sb imm r k : Nat) : Val :=
  if kind = 3 then val32 imm
  else c.value t sb (if kind = 1 then 0 else r) (if kind = 2 then 0 else k)

/-- Operand A (R184, R185). -/
def VArgs.aVal (v : VArgs) (c : Core) (r k : Nat) : Val :=
  if v.ak = 4 then ((c.bank v.bank).at (r - v.r0) (k - v.c0)).value else srcVal c v.a v.ak v.sb 0 r k
def VArgs.bVal (v : VArgs) (c : Core) (r k : Nat) : Val := srcVal c v.b v.bk v.sb v.immb r k
def VArgs.cVal (v : VArgs) (c : Core) (r k : Nat) : Val := srcVal c v.c v.ck v.sb v.immc r k

/-- `FILL` (R186). -/
def VArgs.fill (v : VArgs) : Val := if v.xval then val32 v.immc else .zero

/-- A value rounded once to FP32, as V_FUNC, V_REDUCE and V_PSUM take it (R185, R190, R191). -/
def toF32 (x : Written) (v : Val) : Val × Written :=
  let e := round32 v
  (val32 e.code, (x.1, x.2.add e))

/-- Order of max and min: −0 below +0 (R189). -/
def Val.below (a b : Val) : Bool :=
  a.lt b || (a.isZero && b.isZero && (match a, b with | .num s _ _, .num t _ _ => s && !t | _, _ => false))

def Val.maxV (a b : Val) : Val := if a.isNan || b.isNan then .nan else if a.below b then b else a
def Val.minV (a b : Val) : Val := if a.isNan || b.isNan then .nan else if b.below a then b else a

/-- Comparison FN of V_CMP (R189). -/
def vCompare (fn : Nat) (a b : Val) : Bool :=
  let un := a.isNan || b.isNan
  match fn with
  | 0 => !un && !a.lt b && !b.lt a
  | 1 => un || a.lt b || b.lt a
  | 2 => !un && a.lt b
  | 3 => !un && !b.lt a
  | 4 => !un && b.lt a
  | 5 => !un && !a.lt b
  | 6 => a.isNan
  | _ => match a with | .num .. => true | _ => false

/-- Same-format copy without scales passes codes through (R50). -/
def VArgs.plainCopy (v : VArgs) : Bool := v.ak != 4 && v.a.fmtCode = v.dst.fmtCode && v.a.bs = 0 && v.dst.bs = 0

/-- The result of an element-wise opcode at an active element (R189). -/
def VArgs.elementwise (v : VArgs) (o : VOp) (c : Core) (r k : Nat) : Item :=
  let a := v.aVal c r k
  match o with
  | .copy =>
    if v.plainCopy then .raw (c.code v.a v.sb (if v.ak = 1 then 0 else r) (if v.ak = 2 then 0 else k)) else .val a
  | .add => .val (a.add (v.bVal c r k))
  | .sub => .val (a.sub (v.bVal c r k))
  | .mul => .val (a.mul (v.bVal c r k))
  | .fma => .val ((a.mul (v.bVal c r k)).add (v.cVal c r k))
  | .max => .val (a.maxV (v.bVal c r k))
  | .min => .val (a.minV (v.bVal c r k))
  | .neg => .val a.neg
  | .abs => .val a.abs
  | .select => .val (if v.maskBit c r k then a else v.bVal c r k)
  | _ => .val a

/-- The FP32 code of a value that FP32 holds. -/
def code32 (v : Val) : Nat := (round32 v).code

/-- A function's special values of R190; none where the result is the unit's own within the bound of R71. -/
def funcSpecial (fn : Nat) (a b : Val) : Option Val :=
  let half : Val := .num false 1 (-1)
  let one : Val := .one
  let zeroOf := fun (s : Bool) => Val.num s 0 0
  if fn = 13 then
    match a, b with
    | .nan, _ => some .nan
    | _, .nan => some .nan
    | .inf _, .inf _ => some .nan
    | .inf s, .num t _ _ => some (.inf (s != t))
    | .num s _ _, .inf t => some (zeroOf (s != t))
    | .num s m _, .num t n _ =>
      if n = 0 then some (if m = 0 then .nan else .inf (s != t))
      else if m = 0 then some (zeroOf (s != t)) else none
  else
    match a with
    | .nan => some .nan
    | .inf neg =>
      match fn with
      | 0 => some (zeroOf neg)
      | 1 => some (if neg then .nan else .inf false)
      | 2 => some (if neg then .nan else zeroOf false)
      | 3 => some (if neg then zeroOf false else .inf false)
      | 4 => some (if neg then zeroOf false else .inf false)
      | 5 => some (if neg then .nan else .inf false)
      | 6 => some (if neg then .nan else .inf false)
      | 7 => some .nan
      | 8 => some .nan
      | 9 => some (.num neg 1 0)
      | 10 => some (if neg then zeroOf false else one)
      | 11 => some (.num neg 1 0)
      | _ => some (if neg then zeroOf true else .inf false)
    | .num s m e =>
      if m = 0 then
        match fn with
        | 0 => some (.inf s)
        | 1 => some (zeroOf s)
        | 2 => some (.inf s)
        | 3 => some one
        | 4 => some one
        | 5 => some (.inf true)
        | 6 => some (.inf true)
        | 7 => some (zeroOf s)
        | 8 => some one
        | 9 => some (zeroOf s)
        | 10 => some half
        | 11 => some (zeroOf s)
        | _ => some (zeroOf s)
      else if (fn = 1 || fn = 2 || fn = 5 || fn = 6) && s then some .nan
      else if (fn = 5 || fn = 6) && code32 (.num s m e) = 0x3F800000 then some (zeroOf false)
      else none

/-- The exact result of a function on finite operands (R190). -/
def funcReal (fn : Nat) (a b : ℚ) : ℚ :=
  match fn with
  | 0 => 1 / a
  | 1 => sqrtR a
  | 2 => 1 / sqrtR a
  | 3 => expR a
  | 4 => expR (a * ofFix fixLn2)
  | 5 => lnR a
  | 6 => lnR a / ofFix fixLn2
  | 7 => (sinCosR a).1
  | 8 => (sinCosR a).2
  | 9 => tanhR a
  | 10 => sigmoidR a
  | 11 => erfR a
  | 12 => geluR a
  | _ => a / b

/-- The bound of R71 at an operand and its exact result. -/
def funcErr (fn : Nat) (a x : ℚ) : ℚ :=
  match fn with
  | 0 | 1 => ulp32 x
  | 7 | 8 => if |a| ≤ 1024 then 2 * ulp32 x else 1 / 2 ^ 20
  | 9 | 10 | 11 => 3 * ulp32 x
  | 12 => 4 * ulp32 x
  | _ => 2 * ulp32 x

/-- The result of V_FUNC on FP32 operands: the special values exactly, any other value the function unit's own within the
bound of R71 (R190; log 14). -/
def funcVal (fn : Nat) (a b : Val) : Val :=
  match funcSpecial fn a b with
  | some v => v
  | none =>
    let x := funcReal fn a.rat b.rat
    within x (funcErr fn a.rat x) (Config.vfunc fn (BitVec.ofNat 32 (code32 a)) (BitVec.ofNat 32 (code32 b)))

/-! Reductions (R69, R191, R192). -/

/-- A permutation of 0..n−1 named by a number (factorial code). -/
def permOf : Nat → List Nat → Nat → List Nat
  | 0, _, _ => []
  | f + 1, xs, n =>
    match xs[n % xs.length]? with
    | none => []
    | some x => x :: permOf f (xs.erase x) (n / xs.length)

/-- The order in which the seven levels of the tree pair lanes (R69; log 15). -/
def treeLevels : List Nat := permOf 7 [0, 1, 2, 3, 4, 5, 6] Config.treeOrder

/-- Combine lanes that differ in one index bit; a lane combined is empty from then on, and an empty lane takes no part
(R191). -/
def treeLevel (op : Tally → Val → Val → Val × Tally) (bitIx : Nat) (x : List (Option Val) × Tally) :
    List (Option Val) × Tally :=
  (List.range 128).foldl (fun x i =>
    if i.testBit bitIx then x else
      match (x.1[i]?).join, (x.1[i + 2 ^ bitIx]?).join with
      | some a, some b => let p := op x.2 a b; ((x.1.set i (some p.1)).set (i + 2 ^ bitIx) none, p.2)
      | none, some b => ((x.1.set i (some b)).set (i + 2 ^ bitIx) none, x.2)
      | _, _ => x) x

/-- The 128 lanes and the tree over some FP32 inputs in reduction order (R69, R191). -/
def laneTree (op : Tally → Val → Val → Val × Tally) (xs : List Val) (t : Tally) : Option Val × Tally :=
  let lanes := (List.range xs.length).zip xs |>.foldl (fun (x : List (Option Val) × Tally) p =>
    match (x.1[p.1 % 128]?).join with
    | none => (x.1.set (p.1 % 128) (some p.2), x.2)
    | some a => let q := op x.2 a p.2; (x.1.set (p.1 % 128) (some q.1), q.2)) (List.replicate 128 none, t)
  let r := treeLevels.foldl (fun x b => treeLevel op b x) lanes
  ((r.1[0]?).join, r.2)

/-- The sum of FP32 values over lanes and tree; +0 of none (R191, R192). -/
def laneSum (xs : List Val) (t : Tally) : Val × Tally :=
  let p := laneTree fadd32 xs t
  (p.1.getD .zero, p.2)

/-- The lowest place of an extreme, or of a NaN where there is one (R191). -/
def argExtreme (below : Val → Val → Bool) (xs : List (Nat × Val)) : Nat :=
  match xs.find? (·.2.isNan) with
  | some p => p.1
  | none =>
    match xs with
    | [] => 0xFFFFFFFF
    | p :: ps => (ps.foldl (fun best q => if below best.2 q.2 then q else best) p).1

/-- The result of a reduced set with its inputs (index, value) in reduction order (R191, R192). The mean is rounded to FP32
as the other steps of a reduction are, and the result then goes to the destination (log 77). -/
def VArgs.reduceSet (v : VArgs) (xs : List (Nat × Val)) (t : Tally) : Item × Tally :=
  let vals := xs.map (·.2)
  let empty := xs.isEmpty
  match v.fn with
  | 0 => let p := laneSum vals t; (.val p.1, p.2)
  | 1 =>
    let q := vals.foldl (fun (x : List Val × Tally) a => let p := fmul32 x.2 a a; (x.1 ++ [p.1], p.2)) ([], t)
    let p := laneSum q.1 q.2
    (.val p.1, p.2)
  | 2 =>
    let p := laneSum vals t
    if empty then (.val .zero, p.2) else
      let e := round32 (quotient p.1 (.num false vals.length 0))
      (.val (val32 e.code), p.2.add e)
  | 3 => let p := laneTree fmul32 vals t; (.val (p.1.getD .one), p.2)
  | 4 => (.val (match vals with
      | [] => if v.xval then val32 v.immc else .inf true
      | a :: as => as.foldl Val.maxV a), t)
  | 5 => (.val (match vals with
      | [] => if v.xval then val32 v.immc else .inf false
      | a :: as => as.foldl Val.minV a), t)
  | 6 => (.raw (argExtreme (fun a b => a.below b) xs), t)
  | _ => (.raw (argExtreme (fun a b => b.below a) xs), t)

/-- The inputs of a reduced set: an active element's value, FILL of a masked one under MMODE 2 (R186, R191). -/
def VArgs.inputs (v : VArgs) (c : Core) (index : Nat → Nat → Nat) (cells : List (Nat × Nat)) (x : Written) :
    List (Nat × Val) × Written :=
  cells.foldl (fun (p : List (Nat × Val) × Written) q =>
    if v.active c q.1 q.2 then
      let y := toF32 p.2 (v.aVal c q.1 q.2)
      (p.1 ++ [(index q.1 q.2, y.1)], y.2)
    else if v.mmode = 2 then (p.1 ++ [(index q.1 q.2, v.fill)], p.2) else p) ([], x)

/-- The reduced sets: where the result goes, and the covered cells in reduction order (R191). -/
def VArgs.sets (v : VArgs) (c : Core) : List ((Nat × Nat) × List (Nat × Nat)) :=
  let cov := v.covered c
  if v.rax = 0 then (List.range v.nr).map fun i => ((v.r0 + i, 0), cov.filter fun q => q.1 = v.r0 + i)
  else if v.rax = 1 then (List.range v.nc).map fun j => ((0, v.c0 + j), cov.filter fun q => q.2 = v.c0 + j)
  else [((0, 0), cov)]

/-- The index that argmax and argmin give (R191). -/
def VArgs.argIndex (v : VArgs) (r k : Nat) : Nat :=
  if v.rax = 0 then k else if v.rax = 1 then r
  else if v.ak = 4 then 64 * (r - v.r0) + (k - v.c0) else r * v.a.cols + k

/-- Run V_REDUCE's arithmetic: result cells, whether each set was empty, and the counts. -/
def VArgs.reduceAll (v : VArgs) (c : Core) : List ((Nat × Nat × Item) × Bool) × Written :=
  (v.sets c).foldl (fun p s =>
    let q := v.inputs c v.argIndex s.2 p.2
    let r := v.reduceSet q.1 q.2.2
    (p.1 ++ [((s.1.1, s.1.2, r.1), q.1.isEmpty)], (q.2.1, r.2))) ([], (c, .zero))

/-! The other opcodes that are not element-wise. -/

/-- V_PSUM at an element (R193). -/
def VArgs.psum (v : VArgs) (c : Core) (r k : Nat) (t : Tally) : Val × Tally :=
  (List.range v.fn).foldl (fun p i => fadd32 p.2 p.1 (c.value v.a (v.sb + i + 1) r k)) (c.value v.a v.sb r k, t)

/-- A value that is a natural number below n. -/
def Val.natBelow (v : Val) (n : Nat) : Option Nat :=
  match v with
  | .num s m e =>
    if m = 0 then (if 0 < n then some 0 else none)
    else if s then none
    else
      let x := if 0 ≤ e then m * 2 ^ e.toNat else m / 2 ^ (-e).toNat
      if (0 ≤ e || m % 2 ^ (-e).toNat = 0) && x < n then some x else none
  | _ => none

/-- V_PERM at a destination lane: the item and whether it was filled (R194). -/
def VArgs.perm (v : VArgs) (c : Core) (r k : Nat) : Item × Bool :=
  let j := (k - v.c0) / 128
  let present := min 128 (v.len c r - 128 * j)
  match (srcVal c v.c v.ck v.sb 0 r k).natBelow present with
  | some i => (.val (c.value v.a v.sb r (v.c0 + 128 * j + i)), false)
  | none => (.val v.fill, true)

/-- The draw of an element (R197). -/
def VArgs.draw (v : VArgs) (e : Env) (d : Desc) (n r k : Nat) : Quad :=
  e.draw (Dsc.sid d) n (v.dst.elemIndex v.db r k)

/-- u(o) = bits 63:40 of o × 2⁻²⁴ (R197). -/
def unit24 (o : Quad) : Val := .num false (fld o 63 40) (-24)

/-- z of V_RAND_N for u₁ = (o₀ + 1)·2⁻²⁴ and u₂ = o₁·2⁻²⁴: the unit's own value where it keeps to 2⁻²⁰ and 5.77, the
exact one to 2⁻⁶⁴ where not (R197; log 14). -/
def normalDraw (o0 o1 : Nat) : ℚ :=
  let z := sqrtR (-2 * lnR (mkRat (o0 + 1) (2 ^ 24))) * (sinCosR (2 * ofFix fixPi * mkRat o1 (2 ^ 24))).2
  let w := mkRat (Config.randN o0 o1) (2 ^ 64)
  if |w - z| ≤ 1 / 2 ^ 20 ∧ |w| ≤ 577 / 100 then w else mkRat (z * 2 ^ 64).floor (2 ^ 64)

/-- A random opcode at an element (R197). -/
def VArgs.random (v : VArgs) (o : VOp) (e : Env) (d : Desc) (c : Core) (r k : Nat) : Item :=
  match o with
  | .randU => .val ((val32 v.immb).add ((val32 v.immc).mul (unit24 (v.draw e d 0 r k))))
  | .randN => .val ((val32 v.immb).add ((val32 v.immc).mul
      (ratVal (normalDraw (fld (v.draw e d 0 r k) 63 40) (fld (v.draw e d 1 r k) 63 40)))))
  | .dropout =>
    if (unit24 (v.draw e d 0 r k)).lt (val32 v.immb) then .val ((v.aVal c r k).mul (val32 v.immc)) else .val .zero
  | _ => let w := v.draw e d (v.fn % 16) r k
         .raw (if v.fn < 16 then fld w 63 32 else fld w 31 0)

/-- The n-th active column of row r, if n is below their number. -/
def VArgs.rowActive (v : VArgs) (c : Core) (r : Nat) : List Nat :=
  ((List.range (v.len c r)).map (v.c0 + ·)).filter fun k => v.maskBit c r k

/-- The result cells of every opcode that writes region elements, with lanes out of range and roundings counted. -/
def VArgs.cells (v : VArgs) (o : VOp) (e : Env) (d : Desc) (c : Core) : List (Nat × Nat × Item) × Nat × Tally :=
  (List.range v.nr).foldl (fun acc i =>
    let r := v.r0 + i
    let act := v.rowActive c r
    (List.range (v.len c r)).foldl (fun acc j =>
      let k := v.c0 + j
      let put := fun (it : Item) (oor : Nat) (t : Tally) => (acc.1 ++ [(r, k, it)], acc.2.1 + oor, t)
      match o with
      | .compress =>
        put (match act[j]? with
          | some s => .val (v.aVal c r s)
          | none => .val v.fill) 0 acc.2.2
      | .expand =>
        match act.idxOf? k with
        | some n => put (.val (c.value v.a v.sb r (v.c0 + n))) 0 acc.2.2
        | none => if v.mmode = 2 then put (.val v.fill) 0 acc.2.2 else acc
      | _ =>
        if !v.active c r k then (if v.mmode = 2 then put (.val v.fill) 0 acc.2.2 else acc)
        else match o with
          | .func =>
            let a := round32 (v.aVal c r k)
            let b := if v.fn = 13 then round32 (v.bVal c r k) else ⟨0, false, false, false⟩
            put (.val (funcVal v.fn (val32 a.code) (val32 b.code))) 0 ((acc.2.2.add a).add b)
          | .psum => let p := v.psum c r k acc.2.2; put (.val p.1) 0 p.2
          | .perm => let p := v.perm c r k; put p.1 p.2.toNat acc.2.2
          | .randU | .randN | .dropout | .randBits => put (v.random o e d c r k) 0 acc.2.2
          | _ => put (v.elementwise o c r k) 0 acc.2.2) acc) ([], 0, .zero)

/-- Write the bits of a bitmap from bit 0 on: whole bytes, with 0 in the last byte's bits beyond the bitmap (log 77). -/
def Core.writeBitmap (c : Core) (off : Nat) (bits : List Bool) : Core :=
  c.write off ((List.range (cdiv bits.length 8)).map fun i =>
    BitVec.ofNat 8 ((List.range 8).foldl (fun s j => s + ((bits[8 * i + j]?).getD false).toNat * 2 ^ j) 0))

/-- Vectors of the descriptor (R183, R187). -/
def VArgs.vectors (v : VArgs) (c : Core) : Nat :=
  ((List.range v.nr).map fun i => cdiv (v.len c (v.r0 + i)) 128).foldl (· + ·) 0

/-- Cycles per vector (R188, R190). -/
def VArgs.perVector (v : VArgs) (o : VOp) : Nat :=
  match o with
  | .func => if v.fn ≤ 6 then 1 else if v.fn = 12 then 4 else 2
  | .psum => v.fn + 1
  | .randN => 4
  | _ => 1

/-- Cycles from the last vector to completion (R198). -/
def VOp.latency : VOp → Nat
  | .reduce => 18 | .func | .randN => 14 | _ => 10

/-- The bank that a vector descriptor names (R185). -/
def VArgs.names (v : VArgs) (o : VOp) : Option Nat := if o.usesA && v.ak = 4 then some v.bank else none

/-- When a vector descriptor runs (R165, R185, R198). -/
def vSlot (o : VOp) (c : Core) (e : Env) (d : Desc) : Slot :=
  let v := vArgs c e d
  c.slotFor 2 (v.names o) true (v.vectors c * v.perVector o) o.latency

/-! What a descriptor reads and writes. -/

/-- The elements that a tile of source A gives: those covered, and for V_EXPAND as many as the row has active positions
(R187, R196). -/
def VArgs.aCells (v : VArgs) (o : VOp) (c : Core) : List (Nat × Nat) :=
  if o = .expand then
    ((List.range v.nr).map fun i => (List.range (v.rowActive c (v.r0 + i)).length).map fun j =>
      (v.r0 + i, v.c0 + j)).flatten
  else v.covered c

/-- The elements of a source of a kind behind some cells (R184). -/
def kindCells (kind : Nat) (cells : List (Nat × Nat)) : List (Nat × Nat) :=
  if kind = 0 then cells
  else (cells.map fun q => (if kind = 1 then 0 else q.1, if kind = 2 then 0 else q.2)).eraseDups

/-- The tensor sources: TI field, index, kind, tensor, matrices and elements (R183, R184, R193). -/
def VArgs.sources (v : VArgs) (o : VOp) (c : Core) : List (Nat × Nat × Tensor × List Nat × List (Nat × Nat)) :=
  (if o.usesA && v.ak ≤ 2 then
    [(v.ti1, v.ak, v.a, (List.range (if o = .psum then v.fn + 1 else 1)).map (v.sb + ·), kindCells v.ak (v.aCells o c))]
   else []) ++
  (if o.usesB v.fn && v.bk ≤ 2 then [(v.ti2, v.bk, v.b, [v.sb], kindCells v.bk (v.covered c))] else []) ++
  (if o.usesC && v.ck ≤ 2 then [(v.ti3, v.ck, v.c, [v.sb], kindCells v.ck (v.covered c))] else [])

/-- The mask bytes behind the covered elements (R186). -/
def VArgs.maskReads (v : VArgs) (o : VOp) (c : Core) : List Nat :=
  if v.usesMask o && o != .cmp then
    ((v.covered c).map fun q => v.maskOff + ((q.1 - v.r0) * v.nc + (q.2 - v.c0)) / 8).eraseDups
  else []

/-- The first poisoned byte that the descriptor reads (R119, R187, R196, R201). -/
def VArgs.poison (v : VArgs) (o : VOp) (c : Core) (e : Env) (d : Desc) : Option Nat :=
  if c.poison.isEmpty then none else
  (tiPoison c e d ((v.tensors o).map (·.1))).orElse fun _ =>
  (if v.lenw && c.spdPoison v.cntOff (4 * v.nr) then some v.cntOff else none).orElse fun _ =>
  ((v.maskReads o c).find? fun a => c.spdPoison a 1).orElse fun _ =>
  (v.sources o c).findSome? fun q => q.2.2.2.1.findSome? fun b => firstPoison c q.2.2.1 b q.2.2.2.2

/-- The destination elements that it writes: the results of a reduction, else the covered elements, under MMODE 1 the
active ones. Where a count word or a mask byte is uncorrectable, so is what it leaves out (R186, R187, R201). -/
def VArgs.dstCells (v : VArgs) (o : VOp) (c : Core) : List (Nat × Nat) :=
  let dr := v.dstRegion o
  let all := regionCells dr.1 dr.2.1 dr.2.2.1 dr.2.2.2
  if o = .reduce then all
  else all.filter fun q =>
    let i := (q.1 - v.r0) * v.nc + (q.2 - v.c0)
    (q.2 < v.c0 + v.len c q.1 || c.spdPoison (v.cntOff + 4 * (q.1 - v.r0)) 4) &&
      (v.mmode != 1 || v.maskBit c q.1 q.2 || c.spdPoison (v.maskOff + i / 8) 1)

/-- The bytes that a descriptor writes: its destination, bitmap and count words (R201). -/
def VArgs.writtenBytes (v : VArgs) (o : VOp) (c : Core) : List Nat :=
  (if o.writesTensor then v.dst.regionBytes v.db (v.dstCells o c) else (List.range v.maskBytes).map (v.maskOff + ·)) ++
  (if o = .compress || v.empf then (List.range (v.cntBytes o)).map (v.cntOff + ·) else [])

/-- May the destination stand in place of a source (R199): the element-wise opcodes of R189, V_FUNC, V_PERM and
V_COMPRESS on the same region of the same tensor? -/
def VArgs.inPlace (v : VArgs) (o : VOp) (ti kind : Nat) : Bool :=
  kind = 0 && v.ti0 = ti && v.db = v.sb && (o.code ≤ 0x2A || o = .func || o = .perm || o = .compress)

/-- The spans of the destination: the tensor, or the bitmap of V_CMP. -/
def VArgs.dstSpans (v : VArgs) (o : VOp) : List (Nat × Nat) :=
  if o.writesTensor then v.dst.spans else [(v.maskOff, v.maskBytes)]

/-- The mask bitmap that is read, and the count words that are read or written (R199). -/
def VArgs.sideSpans (v : VArgs) (o : VOp) : List (Nat × Nat) :=
  (if v.usesMask o && o != .cmp then [(v.maskOff, v.maskBytes)] else []) ++
  (if v.lenw || o = .compress then [(v.cntOff, 4 * v.nr)] else [])

/-- Do two lists of spans touch? -/
def spansTouch (xs ys : List (Nat × Nat)) : Bool :=
  xs.any fun p => ys.any fun q => p.1 < q.1 + q.2 && q.1 < p.1 + p.2

/-- Does a span of a list hold the byte? -/
def spansHold (xs : List (Nat × Nat)) (x : Nat) : Bool := xs.any fun p => p.1 ≤ x && x < p.1 + p.2

/-- Destination bytes that an overlap with a source, scales included, with the mask or with the count words leaves
undefined (R199). -/
def VArgs.overlap (v : VArgs) (o : VOp) (c : Core) : List Nat :=
  let srcs := (v.sources o c).filter fun q => !(o.writesTensor && v.inPlace o q.1 q.2.1) && spansTouch (v.dstSpans o) q.2.2.1.spans
  let side := v.sideSpans o
  if srcs.isEmpty && !spansTouch (v.dstSpans o) side then []
  else
    let read := (srcs.map fun q => (q.2.2.2.1.map fun b => q.2.2.1.regionBytes b q.2.2.2.2).flatten).flatten
    (if o.writesTensor then v.dst.regionBytes v.db (v.dstCells o c) else (List.range v.maskBytes).map (v.maskOff + ·)).filter
      fun x => read.contains x || spansHold side x

/-- Run a vector descriptor. -/
def vRun (o : VOp) (c : Core) (e : Env) (d : Desc) : RunRes :=
  let v := vArgs c e d
  let c1 := match v.names o with
    | none => c
    | some b => (c.countSerial 2 b true).setBank b { c.bank b with agrp := v.agrp }
  match v.poison o c e d with
  | some addr => .poisoned c1 e.free addr (v.writtenBytes o c)
  | none =>
    let c1 := c1.countWrap 0x300 (v.vectors c * v.perVector o)
    if o = .cmp then
      let bits := (regionCells v.r0 v.nr v.c0 v.nc).map fun q =>
        q.2 < v.c0 + v.len c q.1 && vCompare v.fn (v.aVal c q.1 q.2)
          (if v.fn < 6 then v.bVal c q.1 q.2 else .zero)
      let lost := v.overlap o c
      ⟨(c1.writeBitmap v.maskOff bits).scramble e.free lost, [], lost.length⟩
    else
      let w := writerOf e d
      let dr := v.dstRegion o
      let p := if o = .reduce then
          let q := v.reduceAll c
          (q.1.map (·.1), 0, q.2.2)
        else v.cells o e d c
      let silent := o = .randBits || (o = .reduce && 6 ≤ v.fn)
      let x := writeCells (if silent then { w with slot := none } else w) v.dst v.db p.1 c1
      let c2 := x.1.padRegion v.dst v.db dr.1 dr.2.1 dr.2.2.1 dr.2.2.2
      let t := x.2.join p.2.2
      let c3 := (c2.tally t).countSat 0x304 p.2.1
      let c4 := if o = .compress then
          (List.range v.nr).foldl (fun c' i =>
            c'.write (v.cntOff + 4 * i) (natLe 4 (v.rowActive c (v.r0 + i)).length)) c3
        else c3
      let c5 := if o = .reduce then
          let em := (v.reduceAll c).1.map (·.2)
          let c5 := c4.countSat 0x308 (em.filter id).length
          if v.empf then c5.writeBitmap v.cntOff em else c5
        else c4
      let lost := v.overlap o c
      ⟨c5.scramble e.free lost, ovfFaults (Dsc.ovf d) x.2, lost.length⟩

end Sys2Proof.Machine
end

