-- ==== Sys2Proof/Machine/Row.lean ====
section
/-!
DEFINITION. The row engine: tags, statistics side memory, forward and backward row operations (08 R203-R224).
-/
namespace Sys2Proof.Machine

/-- The row opcodes of R206. -/
inductive ROp where
  | softmax | softmaxBwd | xent | xentBwd | lnorm | lnormBwd | rms | rmsBwd | tagClose
  deriving DecidableEq, Repr

/-- Byte 0 of the descriptor (R206). -/
def ROp.code : ROp → Nat
  | .softmax => 0x40 | .softmaxBwd => 0x41 | .xent => 0x42 | .xentBwd => 0x43 | .lnorm => 0x44 | .lnormBwd => 0x45
  | .rms => 0x46 | .rmsBwd => 0x47 | .tagClose => 0x48

/-- Tag kind (R206): 0 softmax, 1 layer norm, 2 RMS norm. -/
def ROp.kind : ROp → Nat
  | .softmax | .softmaxBwd | .xent | .xentBwd => 0
  | .lnorm | .lnormBwd => 1
  | _ => 2

def ROp.bwd : ROp → Bool
  | .softmaxBwd | .xentBwd | .lnormBwd | .rmsBwd => true | _ => false

def ROp.softClass (o : ROp) : Bool := o != .tagClose && o.kind = 0

/-- The fields of R204. -/
structure RArgs where
  dst : Tensor
  x : Tensor
  t2 : Tensor
  t3 : Tensor
  ti0 : Nat
  ti1 : Nat
  ti2 : Nat
  ti3 : Nat
  sb : Nat
  db : Nat
  msel : Nat
  opn : Bool
  cls : Bool
  aff : Nat
  mass : Bool
  lout : Bool
  gacc : Bool
  nr : Nat
  r0 : Nat
  tag : Nat
  nc : Nat
  c0 : Nat
  scap : Nat
  srow0 : Nat
  spill : Nat
  immc : Nat
  immb : Nat
  aux0 : Nat
  aux1 : Nat
  sel : Nat
  deriving DecidableEq, Repr

def rArgs (c : Core) (e : Env) (d : Desc) : RArgs where
  dst := c.ti e d 0
  x := c.ti e d 1
  t2 := c.ti e d 2
  t3 := c.ti e d 3
  ti0 := tensorIndex d e.loops 0
  ti1 := tensorIndex d e.loops 1
  ti2 := tensorIndex d e.loops 2
  ti3 := tensorIndex d e.loops 3
  sb := dfld d 8 63 48
  db := dfld d 8 47 32
  msel := dfld d 0x10 63 62
  opn := dbit d 0x10 61
  cls := dbit d 0x10 60
  aff := dfld d 0x10 59 58
  mass := dbit d 0x10 57
  lout := dbit d 0x10 56
  gacc := dbit d 0x10 55
  nr := dfld d 0x10 47 24
  r0 := dfld d 0x10 23 0
  tag := dfld d 0x18 59 48
  nc := dfld d 0x18 47 24
  c0 := dfld d 0x18 23 0
  scap := dfld d 0x20 59 42
  srow0 := dfld d 0x20 41 24
  spill := dfld d 0x20 20 0
  immc := dfld d 0x28 63 32
  immb := dfld d 0x28 31 0
  aux0 := dfld d 0x30 42 22
  aux1 := dfld d 0x30 63 43
  sel := dfld d 0x30 20 0

def rFields : List Field :=
  [(8, 63, 0), (0x10, 63, 55), (0x10, 47, 0), (0x18, 59, 0), (0x20, 59, 24), (0x20, 20, 0), (0x28, 63, 0),
    (0x30, 63, 22), (0x30, 20, 0)]

/-- Is a destination tensor written (R206)? -/
def RArgs.usesDst (a : RArgs) (o : ROp) : Bool := o != .tagClose && (o != .xent || a.lout)

/-- Which of γ, β, dY the positions TI2 and TI3 hold (R206). -/
def RArgs.usesT2 (a : RArgs) (o : ROp) : Bool :=
  match o with
  | .softmaxBwd | .lnormBwd | .rmsBwd => true
  | .lnorm | .rms => a.aff != 0
  | _ => false
def RArgs.usesT3 (a : RArgs) (o : ROp) : Bool :=
  match o with
  | .lnorm => a.aff = 2
  | .lnormBwd | .rmsBwd => a.aff != 0
  | _ => false

/-- Bytes of the auxiliary vectors in use; 0 where unused (R205, R206). -/
def RArgs.aux0Bytes (a : RArgs) (o : ROp) : Nat :=
  match o with
  | .softmax => if a.mass then 4 * a.nc else 0
  | .xent | .xentBwd => 4 * a.nr
  | .lnormBwd | .rmsBwd => if a.gacc then 4 * a.nc else 0
  | _ => 0
def RArgs.aux1Bytes (a : RArgs) (o : ROp) : Nat :=
  match o with
  | .xent => 4 * a.nr
  | .lnormBwd => if a.gacc && a.aff = 2 then 4 * a.nc else 0
  | _ => 0

/-- Bytes of the mask bitmap or the count words (R207). -/
def RArgs.selBytes (a : RArgs) : Nat := if a.msel = 1 then cdiv (a.nr * a.nc) 8 else if a.msel = 2 then 4 * a.nr else 0

/-- Is a flag set that R206 does not allow? -/
def RArgs.flagBad (a : RArgs) (o : ROp) : Bool :=
  let fwd := o = .softmax || o = .xent || o = .lnorm || o = .rms
  (a.opn && !fwd) || (a.cls && !o.bwd) || (a.mass && o != .softmax) || (a.lout && o != .xent) ||
  (a.gacc && !(o = .lnormBwd || o = .rmsBwd)) ||
  (a.aff != 0 && !(o = .lnorm || o = .lnormBwd || o = .rms || o = .rmsBwd)) ||
  (a.aff = 2 && (o = .rms || o = .rmsBwd)) || a.aff = 3 || a.msel = 3 || (a.opn && a.cls)

/-- Is a field set that the opcode does not use (R204, R206)? -/
def RArgs.unusedSet (a : RArgs) (o : ROp) (d : Desc) : Bool :=
  if o = .tagClose then
    dfld d 8 63 0 != 0 || dfld d 0x10 63 0 != 0 || dfld d 0x18 47 0 != 0 || dfld d 0x20 63 0 != 0 ||
      dfld d 0x28 63 0 != 0 || dfld d 0x30 63 0 != 0
  else
    (!a.usesDst o && (dfld d 8 7 0 != 0 || a.db != 0)) || (!a.usesT2 o && dfld d 8 23 16 != 0) ||
    (!a.usesT3 o && dfld d 8 31 24 != 0) || (!a.opn && (a.scap != 0 || a.spill != 0)) ||
    (!o.softClass && a.immb != 0) || (!(o = .lnorm || o = .rms || o = .xentBwd) && a.immc != 0) ||
    (a.aux0Bytes o = 0 && a.aux0 != 0) || (a.aux1Bytes o = 0 && a.aux1 != 0) || (a.msel = 0 && a.sel != 0)

/-- A finite FP32 code. -/
def finite32 (w : Nat) : Bool := match val32 w with | .num .. => true | _ => false

/-- ε must be finite and at or above +0 (R210). −0 is below +0 in the order of R189. -/
def epsBad (w : Nat) : Bool := !finite32 w || 2 ^ 31 ≤ w

/-- The tensors named. -/
def RArgs.tensors (a : RArgs) (o : ROp) : List (Nat × Tensor) :=
  if o = .tagClose then [] else
  (if a.usesDst o then [(0, a.dst)] else []) ++ [(1, a.x)] ++ (if a.usesT2 o then [(2, a.t2)] else []) ++
    (if a.usesT3 o then [(3, a.t3)] else [])

/-- Is TI2 a tile (dY) rather than a row vector? -/
def ROp.t2Tile : ROp → Bool
  | .softmaxBwd | .lnormBwd | .rmsBwd => true | _ => false

/-- Faults of a row descriptor at issue (R125-R127, R203, R210, R213, R216, R221). -/
def rFaults (o : ROp) (c : Core) (e : Env) (d : Desc) : List FaultAt :=
  let a := rArgs c e d
  let t := o = .tagClose
  faultIf (commonBad d e.loops rFields [0, 1, 2, 3] (!t)) (.plain .badDescriptor) ++
  ((a.tensors o).map fun q => q.2.spdFaults false).flatten ++
  faultIf (a.unusedSet o d || (!t && (a.nr = 0 || a.nc = 0 || a.flagBad o ||
    (a.opn && (a.scap = 0 || 196608 < a.scap || a.spill % 8 != 0)) ||
    (a.msel = 1 && a.sel % 8 != 0) || (a.msel = 2 && a.sel % 4 != 0) ||
    (a.aux0Bytes o != 0 && a.aux0 % 4 != 0) || (a.aux1Bytes o != 0 && a.aux1 % 4 != 0) ||
    ((a.mass || a.gacc) && 8192 < a.nc) || (o.softClass && !finite32 a.immb) ||
    ((o = .lnorm || o = .rms) && epsBad a.immc) || (o = .xent && !a.lout && Dsc.hen d) ||
    (a.usesDst o && a.dst.sound && a.dst.bs != 0 &&
      (a.msel = 2 || blocksCut a.dst a.r0 (a.r0 + a.nr) a.c0 (a.c0 + a.nc)))))) (.plain .badDescriptor) ++
  faultIf (!t && (srcOutside a.x 0 a.sb a.nr a.r0 a.nc a.c0 ||
    (a.usesDst o && srcOutside a.dst 0 a.db a.nr a.r0 a.nc a.c0) ||
    (a.usesT2 o && srcOutside a.t2 (if o.t2Tile then 0 else 1) (if o.t2Tile then a.sb else 0) a.nr a.r0 a.nc a.c0) ||
    (a.usesT3 o && srcOutside a.t3 1 0 a.nr a.r0 a.nc a.c0) ||
    outsideSpd a.sel a.selBytes || outsideSpd a.aux0 (a.aux0Bytes o) || outsideSpd a.aux1 (a.aux1Bytes o) ||
    (a.opn && outsideSpd a.spill (8 * a.scap)))) (.plain .tensorBounds)

/-! The tag directory and the side memory (R215-R218). -/

def RowState.find (s : RowState) (tag : Nat) : Option RowTag := s.tags.find? (·.tag = tag)

/-- Is granule g (16 entries) held by a tag? -/
def RowState.granuleUsed (s : RowState) (g : Nat) : Bool :=
  s.tags.any fun t => t.start / 16 ≤ g && g < (t.start + t.run) / 16

/-- The free runs of granules (start, length), lowest first. -/
def RowState.freeRuns (s : RowState) : List (Nat × Nat) :=
  ((List.range 512).foldl (fun (acc : List (Nat × Nat)) g =>
    if s.granuleUsed g then acc else
      match acc with
      | (a, n) :: rest => if a + n = g then (a, n + 1) :: rest else (g, 1) :: acc
      | [] => [(g, 1)]) []).reverse

/-- The run that an open takes (R215): granule start and count. -/
def RowState.allocate (s : RowState) (scap : Nat) : Nat × Nat :=
  let want := cdiv scap 16
  let runs := s.freeRuns
  match runs.find? fun r => want ≤ r.2 with
  | some r => (r.1, want)
  | none => runs.foldl (fun best r => if best.2 < r.2 then r else best) (0, 0)

/-- Free entries and the longest free run, in entries (R224). -/
def RowState.freeEntries (s : RowState) : Nat := 16 * (s.freeRuns.map (·.2)).foldl (· + ·) 0
def RowState.longestRun (s : RowState) : Nat := 16 * (s.freeRuns.map (·.2)).foldl max 0

/-- The directory after an open; flags of the run's entries are cleared (R215, R216). -/
def RowState.openTag (s : RowState) (a : RArgs) (kind : Nat) : RowState :=
  let r := s.allocate a.scap
  let t : RowTag := ⟨a.tag, kind, a.scap, a.spill, 16 * r.1, 16 * r.2⟩
  { s with
    tags := s.tags ++ [t]
    written := (List.range t.run).foldl (fun w i => Store.set false w (t.start + i) false) s.written }

def RowState.closeTag (s : RowState) (tag : Nat) : RowState := { s with tags := s.tags.filter (·.tag != tag) }

/-- The statistics rows of the region (R205). -/
def RArgs.srows (a : RArgs) : List Nat := (List.range a.nr).map (a.srow0 + ·)

/-- `SIDE_MEM_TAG` (R218). -/
def tagFault (o : ROp) (a : RArgs) (s : RowState) : Bool :=
  match s.find a.tag with
  | none => !a.opn || s.tags.length ≥ 32 || (a.opn && a.srows.any fun ρ => a.scap ≤ ρ)
  | some t =>
    a.opn || (o != .tagClose && (t.kind != o.kind || a.srows.any (fun ρ => t.scap ≤ ρ) ||
      (o.bwd && a.srows.any fun ρ => ρ < t.resident && !Store.get false s.written (t.start + ρ))))

/-- Word 0 and word 1 of a statistics row (R214, R216). -/
def readStat (c : Core) (t : RowTag) (ρ : Nat) : Nat × Nat :=
  let v := if ρ < t.resident then (Store.get 0 c.row.side (t.start + ρ)).toNat else c.num (t.spill + 8 * ρ) 8
  (v % 2 ^ 32, v / 2 ^ 32)

/-- Store a statistics row (R216). -/
def writeStat (c : Core) (t : RowTag) (ρ : Nat) (st : Nat × Nat) : Core :=
  if ρ < t.resident then
    { c with row := { c.row with
        side := Store.set 0 c.row.side (t.start + ρ) (BitVec.ofNat 64 (st.1 + st.2 * 2 ^ 32))
        written := Store.set false c.row.written (t.start + ρ) true
        poison := Store.set false c.row.poison (t.start + ρ) false } }
  else (c.write (t.spill + 8 * ρ) (natLe 4 st.1 ++ natLe 4 st.2)).countSat 0x40C 1

/-- Entries that a descriptor was writing when it stopped: undefined, with their flags clear (R222). -/
def RowState.spoil (s : RowState) (free : Nat) : List Nat → RowState
  | [] => s
  | k :: ks => RowState.spoil { s with side := Store.set 0 s.side k (Config.freeWord free),
                                       written := Store.set false s.written k false,
                                       poison := Store.set false s.poison k false } (free + 1) ks

/-! Rows (R207-R213). -/

/-- Covered columns of row r (R207). -/
def RArgs.len (a : RArgs) (c : Core) (r : Nat) : Nat :=
  if a.msel = 2 then min a.nc (c.num (a.sel + 4 * (r - a.r0)) 4) else a.nc

def RArgs.active (a : RArgs) (c : Core) (r k : Nat) : Bool :=
  a.msel != 1 || c.bitAt a.sel ((r - a.r0) * a.nc + (k - a.c0))

/-- The active columns of row r. -/
def RArgs.cols (a : RArgs) (c : Core) (r : Nat) : List Nat :=
  ((List.range (a.len c r)).map (a.c0 + ·)).filter fun k => a.active c r k

/-- z = IMMB × x, exactly (R208). -/
def RArgs.z (a : RArgs) (c : Core) (r k : Nat) : Val := (val32 a.immb).mul (c.value a.x a.sb r k)

/-- Is a softmax row without an active element, or with all z = −∞ (R210, R211)? -/
def RArgs.emptyRow (a : RArgs) (o : ROp) (c : Core) (r : Nat) : Bool :=
  let cs := a.cols c r
  cs.isEmpty || (o.softClass && cs.all fun k => a.z c r k = .inf true)

/-- Does a softmax row hold an active NaN or +∞ (R210)? -/
def RArgs.nanRow (a : RArgs) (o : ROp) (c : Core) (r : Nat) : Bool :=
  o.softClass && (a.cols c r).any fun k => match a.z c r k with | .nan => true | .inf s => !s | _ => false

/-- The label of row r, if the row is not ignored (R212); the flag says the label counts in ROW_LABEL_OOR. -/
def RArgs.label (a : RArgs) (c : Core) (r : Nat) : Option Nat × Bool :=
  let w := c.num (a.aux0 + 4 * (r - a.r0)) 4
  if w = 0xFFFFFFFF then (none, false)
  else if a.emptyRow .xent c r then (none, true)
  else if w < a.len c r && a.active c r (a.c0 + w) then (some (a.c0 + w), false) else (none, true)

/-- γ and β at a column (R208, R209). -/
def RArgs.gamma (a : RArgs) (o : ROp) (c : Core) (k : Nat) : Val :=
  if a.aff = 0 then .one else c.value (if o.bwd then a.t3 else a.t2) 0 0 k
def RArgs.beta (a : RArgs) (c : Core) (k : Nat) : Val := if a.aff = 2 then c.value a.t3 0 0 k else .zero

/-- Everything that a row's results depend on: parameters, the statistics, the label, and for each active column X and, where
they are used, TI2 and TI3. -/
def RArgs.rowInputs (a : RArgs) (o : ROp) (c : Core) (r : Nat) (st : Nat × Nat) : List Int :=
  let cs := a.cols c r
  let t2 := fun k => if a.usesT2 o then (c.value a.t2 (if o.t2Tile then a.sb else 0) (if o.t2Tile then r else 0) k).key else []
  let t3 := fun k => if a.usesT3 o then (c.value a.t3 0 0 k).key else []
  [(a.immb : Int), a.immc, a.aff, st.1, st.2, (a.label c r).1.getD 0, cs.length] ++
    (cs.map fun k => (c.value a.x a.sb r k).key ++ t2 k ++ t3 k).flatten

/-- The engine's own code for a value of the row. Index: 0 the second statistic, 1 the loss, then for column `c0 + j`
4 + 4j the term of its sum, 5 + 4j its output, 6 + 4j its column term. -/
def RArgs.own (a : RArgs) (o : ROp) (c : Core) (r : Nat) (st : Nat × Nat) (i : Nat) : BitVec 32 :=
  Config.rowValue o.code (a.rowInputs o c r st) i

/-- 2⁻²⁴. -/
def eps24 : ℚ := 1 / 2 ^ 24

/-- ⌈n/128⌉ of a row of n active elements (R70). -/
def RArgs.depth (a : RArgs) (c : Core) (r : Nat) : ℚ := (cdiv (a.cols c r).length 128 : Nat)

/-- FP32 values of the terms of a row's sum, each within 3·2⁻²⁴ of itself, so that the sum keeps to R70 (log 14). -/
def sumTerms (xs : List (Ext × BitVec 32)) : List Val × Tally :=
  xs.foldl (fun p x =>
    let e := round32 (x.1.within (3 * eps24 * x.1.mag) x.2)
    (p.1 ++ [val32 e.code], p.2.add e)) ([], .zero)

/-- m = max z (R208). -/
def RArgs.zMax (a : RArgs) (c : Core) (r : Nat) : Val :=
  (a.cols c r).foldl (fun m k => m.maxV (a.z c r k)) (.inf true)

/-- exp(z − m) at an active column; an active −∞ gives +0 (R208, R210). -/
def RArgs.zExp (a : RArgs) (c : Core) (r : Nat) (m : Val) (k : Nat) : Ext :=
  if a.z c r k = .inf true then .fin 0 else ((a.z c r k).sub m).ext.exp

/-- Σ exp(z − m) over the active columns, exactly. -/
def RArgs.zSum (a : RArgs) (c : Core) (r : Nat) (m : Val) : ℚ := (Ext.sum ((a.cols c r).map (a.zExp c r m))).mag

/-- The mean of a row (R208): lanes and tree, then one rounding. -/
def RArgs.mean (a : RArgs) (c : Core) (r : Nat) : Val × Tally :=
  let xs := (a.cols c r).map fun k => round32 (c.value a.x a.sb r k)
  let t := xs.foldl Tally.add .zero
  let p := laneSum (xs.map fun q => val32 q.code) t
  let e := round32 (quotient p.1 (.num false xs.length 0))
  (val32 e.code, p.2.add e)

/-- Are the active elements of a row all one finite value? -/
def RArgs.flatRow (a : RArgs) (c : Core) (r : Nat) : Bool :=
  match a.cols c r with
  | [] => true
  | k :: ks => (c.value a.x a.sb r k).finite && ks.all fun i => ((c.value a.x a.sb r i).sub (c.value a.x a.sb r k)).isZero

/-- x − μ of a norm; exactly 0 in a constant row of a layer norm (R208, R210). -/
def RArgs.dev (a : RArgs) (o : ROp) (c : Core) (r : Nat) (mu : Val) (k : Nat) : Val :=
  if o.kind = 2 then c.value a.x a.sb r k
  else if a.flatRow c r then .zero else (c.value a.x a.sb r k).sub mu

/-- 1/√(S/n + ε) from the sum that lanes and tree give (R208). -/
def rsqrtStat (s : Val) (n : Nat) (eps : Val) (w : BitVec 32) : Enc :=
  match s with
  | .nan => round32 .nan
  | .inf _ => round32 .zero
  | _ =>
    let v := s.rat / n + eps.rat
    if v = 0 then round32 (.inf false)
    else let x := 1 / sqrtR v; round32 (within x (2 * ulp32 x) w)

/-- The statistics of a forward row (R208, R210, R211). -/
def RArgs.stats (a : RArgs) (o : ROp) (c : Core) (r : Nat) : (Nat × Nat) × Tally :=
  let cs := a.cols c r
  let own := fun (k : Nat) => a.own o c r (0, 0) (4 + 4 * (k - a.c0))
  if a.emptyRow o c r then ((if o.softClass then 0xFF800000 else 0, 0), .zero)
  else if o.softClass then
    if a.nanRow o c r then ((0x7FC00000, 0x7FC00000), .zero)
    else
      let m := a.zMax c r
      let ts := sumTerms (cs.map fun k => (a.zExp c r m k, own k))
      let s := laneSum ts.1 ts.2
      ((code32 m, code32 s.1), s.2)
  else
    let p := if o.kind = 1 then a.mean c r else (.zero, .zero)
    let ts := sumTerms (cs.map fun k => let x := (a.dev o c r p.1 k).ext; (x.mul x, own k))
    let s := laneSum ts.1 ts.2
    let e := rsqrtStat s.1 cs.length (val32 a.immc) (a.own o c r (0, 0) 0)
    ((code32 p.1, e.code), (p.2.join s.2).add e)

/-- What a row gives an active column: its output and its column term (R208, R209, R213). -/
abbrev RowOut := Nat × Val × Val

/-- ROW_SOFTMAX and ROW_XENT: y or the log-probability within R70, and y as attention mass. -/
def RArgs.softFwd (a : RArgs) (o : ROp) (c : Core) (r : Nat) : List RowOut :=
  let m := a.zMax c r
  let s := a.zSum c r m
  let b := a.depth c r + 11
  (a.cols c r).map fun k =>
    let w := a.own o c r (0, 0) (5 + 4 * (k - a.c0))
    if a.nanRow o c r then (k, .nan, .nan)
    else if a.z c r k = .inf true then (k, if o = .xent then .inf true else .zero, .zero)
    else if o = .xent then
      let x := (a.z c r k).rat - m.rat - lnR s
      (k, within x (b * eps24 + 2 * ulp32 x) w, .zero)
    else
      let x := (a.zExp c r m k).mag / s
      let y := within x (b * eps24 * x) w
      (k, y, val32 (code32 y))

/-- x̂ of a forward norm at an active column: within R70 of the exact one, +0 where x − μ is; by IEEE arithmetic in a row
that holds an infinity or a NaN (R208, R210). `ex` holds the exact μ and 1/√(variance + ε), `top` the largest |x̂|. -/
def RArgs.normHat (a : RArgs) (o : ROp) (c : Core) (r : Nat) (st : Nat × Nat) (ex : ℚ × ℚ) (top : ℚ) (k : Nat) : Val :=
  let d := a.dev o c r (val32 st.1) k
  if d.isZero then .zero
  else if (a.cols c r).all fun i => (c.value a.x a.sb r i).finite then
    let x := ((c.value a.x a.sb r k).rat - ex.1) * ex.2
    within x ((a.depth c r + 12) * eps24 * top + 2 * ulp32 x) (a.own o c r (0, 0) (5 + 4 * (k - a.c0)))
  else d.mul (val32 st.2)

/-- The exact μ and 1/√(variance + ε) of a row of numbers (R208); an infinite reciprocal stands as 0, since x̂ is then
+0 everywhere. -/
def RArgs.exactNorm (a : RArgs) (o : ROp) (c : Core) (r : Nat) : ℚ × ℚ :=
  let xs := (a.cols c r).map fun k => (c.value a.x a.sb r k).rat
  let n : ℚ := xs.length
  let mu := if o.kind = 1 then xs.sum / n else 0
  let v := (xs.map fun x => (x - mu) * (x - mu)).sum / n + (val32 a.immc).rat
  (mu, if v = 0 then 0 else 1 / sqrtR v)

/-- ROW_LNORM and ROW_RMSNORM: x̂ taken in FP32, and the affine step on it with the rounding of the result (log 77). -/
def RArgs.normFwd (a : RArgs) (o : ROp) (c : Core) (r : Nat) (st : Nat × Nat) : List RowOut × Tally :=
  let ex := a.exactNorm o c r
  let top := ((a.cols c r).map fun k => |((c.value a.x a.sb r k).rat - ex.1) * ex.2|).foldl max 0
  (a.cols c r).foldl (fun p k =>
    let h := a.normHat o c r st ex top k
    if a.aff = 0 then (p.1 ++ [(k, h, Val.zero)], p.2)
    else
      let e := round32 h
      let y := (val32 e.code).mul (a.gamma o c k)
      (p.1 ++ [(k, if a.aff = 2 then y.add (a.beta c k) else y, Val.zero)], p.2.add e)) ([], .zero)

/-- The bound of R209: n active elements, the magnitudes of the formula's terms, its value. -/
def RArgs.bwdErr (a : RArgs) (c : Core) (r : Nat) (mags : ℚ) (x : Ext) : ℚ :=
  (a.depth c r + 14) * eps24 * mags + 2 * ulp32 (match x with | .fin q => q | _ => 0)

/-- y recomputed from X and the stored statistics (R209). -/
def RArgs.yBack (a : RArgs) (c : Core) (r : Nat) (st : Nat × Nat) (k : Nat) : Ext :=
  (a.zExp c r (val32 st.1) k).div (val32 st.2).ext

/-- ROW_SOFTMAX_BWD and ROW_XENT_BWD (R209, R210, R212). -/
def RArgs.softBwd (a : RArgs) (o : ROp) (c : Core) (r : Nat) (st : Nat × Nat) : List RowOut :=
  let cs := a.cols c r
  let im := (val32 a.immb).ext
  let dy := fun k => (c.value a.t2 a.sb r k).ext
  let prods := cs.map fun k => (a.yBack c r st k).mul (dy k)
  let dot := Ext.sum prods
  let lab := (a.label c r).1
  cs.map fun k =>
    let w := a.own o c r st (5 + 4 * (k - a.c0))
    let y := a.yBack c r st k
    if o = .xentBwd && lab.isNone then (k, .zero, .zero)
    else if a.nanRow o c r then (k, .nan, .zero)
    else if o = .xentBwd then
      let t : ℚ := if lab = some k then 1 else 0
      let g := (val32 a.immc).ext.mul im
      let x := g.mul (y.sub (.fin t))
      (k, x.within (a.bwdErr c r (g.mag * (y.mag + t)) x) w, .zero)
    else
      let x := (im.mul y).mul ((dy k).sub dot)
      (k, x.within (a.bwdErr c r (im.mag * y.mag * ((dy k).mag + (prods.map Ext.mag).sum)) x) w, .zero)

/-- x̂ recomputed from X and the stored statistics (R209, R210). -/
def RArgs.hatBack (a : RArgs) (o : ROp) (c : Core) (r : Nat) (st : Nat × Nat) (k : Nat) : Ext :=
  let d := a.dev o c r (val32 st.1) k
  if d.isZero then .fin 0 else d.ext.mul (val32 st.2).ext

/-- ROW_LNORM_BWD and ROW_RMSNORM_BWD, with the term of dγ within 2⁻²³ of itself (R209, R210, R213). -/
def RArgs.normBwd (a : RArgs) (o : ROp) (c : Core) (r : Nat) (st : Nat × Nat) : List RowOut :=
  let cs := a.cols c r
  let n : Ext := .fin cs.length
  let rho := (val32 st.2).ext
  let dy := fun k => (c.value a.t2 a.sb r k).ext
  let h := fun k => (dy k).mul (a.gamma o c k).ext
  let hx := fun k => (h k).mul (a.hatBack o c r st k)
  let mh := if o.kind = 1 then (Ext.sum (cs.map h)).div n else .fin 0
  let mhx := (Ext.sum (cs.map hx)).div n
  let mag := if o.kind = 1 then (cs.map fun i => (h i).mag).sum / cs.length else 0
  let magx := (cs.map fun i => (hx i).mag).sum / cs.length
  cs.map fun k =>
    let xh := a.hatBack o c r st k
    let x := rho.mul (((h k).sub mh).sub (xh.mul mhx))
    let t := (dy k).mul xh
    (k, x.within (a.bwdErr c r (rho.mag * ((h k).mag + mag + xh.mag * magx)) x) (a.own o c r st (5 + 4 * (k - a.c0))),
      val32 (code32 (t.within (2 * eps24 * t.mag) (a.own o c r st (6 + 4 * (k - a.c0))))))

/-- What row r gives its active columns; none where the row is empty (R208-R213). -/
def RArgs.outputs (a : RArgs) (o : ROp) (c : Core) (r : Nat) (st : Nat × Nat) : List RowOut × Tally :=
  if a.emptyRow o c r then ([], .zero)
  else match o with
  | .softmax | .xent => (a.softFwd o c r, .zero)
  | .softmaxBwd | .xentBwd => (a.softBwd o c r st, .zero)
  | .lnorm | .rms => a.normFwd o c r st
  | _ => (a.normBwd o c r st, .zero)

/-- The inactive value of an output (R207). -/
def ROp.inactive (o : ROp) : Val := if o = .xent then .inf true else .zero

/-- The result cells of row r, covered columns in order (R207-R212). -/
def RArgs.rowCells (a : RArgs) (o : ROp) (c : Core) (r : Nat) (outs : List RowOut) : List (Nat × Nat × Item) :=
  (List.range (a.len c r)).map fun j =>
    (r, a.c0 + j, .val (match outs.find? (·.1 = a.c0 + j) with | some q => q.2.1 | none => o.inactive))

/-- The column terms of row r: column, and the terms for AUX0 and AUX1 (R213). -/
def RArgs.terms (a : RArgs) (o : ROp) (c : Core) (r : Nat) (outs : List RowOut) : List (Nat × Val × Val) :=
  outs.map fun q => (q.1, q.2.2, if o.t2Tile then c.value a.t2 a.sb r q.1 else .zero)

/-- Accumulate one column over the rows, in ascending row (R213). -/
def accumulate (start : Val) (ts : List Val) (t : Tally) : Val × Tally := ts.foldl (fun p x => fadd32 p.2 p.1 x) (start, t)

/-- Add the terms of all rows into an AUX vector (R213). `pick` selects the term. -/
def addColumns (a : RArgs) (off : Nat) (pick : Nat × Val × Val → Val) (terms : List (Nat × Val × Val)) (x : Written) :
    Written :=
  (List.range a.nc).foldl (fun x j =>
    let p := accumulate (val32 (x.1.num (off + 4 * j) 4))
      ((terms.filter fun q => q.1 = a.c0 + j).map pick) x.2
    (x.1.write (off + 4 * j) (natLe 4 (code32 p.1)), p.2)) x

/-- The loss of row r as an FP32 code: (m + ln s) − z at the label within R70 (R211, R212). -/
def RArgs.loss (a : RArgs) (o : ROp) (c : Core) (r : Nat) : Nat :=
  match (a.label c r).1 with
  | none => 0
  | some k =>
    if a.nanRow o c r then 0x7FC00000
    else if a.z c r k = .inf true then 0x7F800000
    else
      let m := a.zMax c r
      let x := m.rat + lnR (a.zSum c r m) - (a.z c r k).rat
      code32 (within x ((a.depth c r + 11) * eps24 + 2 * ulp32 x) (a.own o c r (0, 0) 1))

/-- Engine cycles of R220: groups of 16 rows, each at its longest row. -/
def rowCycles (a : RArgs) (c : Core) : Nat :=
  ((List.range (cdiv a.nr 16)).map fun g =>
    2 * max 1 (cdiv (((List.range (min 16 (a.nr - 16 * g))).map fun i => a.len c (a.r0 + 16 * g + i)).foldl max 0) 8))
    |>.foldl (· + ·) 0

/-- The covered elements of the region, and their columns (R207). -/
def RArgs.covered (a : RArgs) (c : Core) : List (Nat × Nat) :=
  ((List.range a.nr).map fun i => (List.range (a.len c (a.r0 + i))).map fun j => (a.r0 + i, a.c0 + j)).flatten
def RArgs.coveredCols (a : RArgs) (c : Core) : List (Nat × Nat) := ((a.covered c).map fun q => (0, q.2)).eraseDups

/-- The tensor sources: TI index, whether a tile, tensor, matrix and elements read (R205, R206). -/
def RArgs.sources (a : RArgs) (o : ROp) (c : Core) : List (Nat × Bool × Tensor × Nat × List (Nat × Nat)) :=
  [(a.ti1, true, a.x, a.sb, a.covered c)] ++
  (if a.usesT2 o then
    [(a.ti2, o.t2Tile, a.t2, if o.t2Tile then a.sb else 0, if o.t2Tile then a.covered c else a.coveredCols c)] else []) ++
  (if a.usesT3 o then [(a.ti3, false, a.t3, 0, a.coveredCols c)] else [])

/-- The first uncorrectable word that a row descriptor reads (R119, R207, R214, R222). -/
def RArgs.poison (a : RArgs) (o : ROp) (c : Core) (e : Env) (d : Desc) : Option FaultAt :=
  if c.poison.isEmpty && c.row.poison.isEmpty then none else
  let spdAt : Option Nat :=
    (tiPoison c e d ((a.tensors o).map (·.1))).orElse fun _ =>
    (if c.spdPoison a.sel a.selBytes then some a.sel else none).orElse fun _ =>
    (if c.spdPoison a.aux0 (a.aux0Bytes o) then some a.aux0 else none).orElse fun _ =>
    (if o = .lnormBwd && c.spdPoison a.aux1 (a.aux1Bytes o) then some a.aux1 else none).orElse fun _ =>
    (a.sources o c).findSome? fun q => firstPoison c q.2.2.1 q.2.2.2.1 q.2.2.2.2
  match spdAt with
  | some x => some (.atSpd .poisonInput x)
  | none =>
    if !o.bwd then none else
      match c.row.find a.tag with
      | none => none
      | some t =>
        if a.srows.any fun ρ => if ρ < t.resident then Store.get false c.row.poison (t.start + ρ)
            else c.spdPoison (t.spill + 8 * ρ) 8
        then some (.plain .poisonInput) else none

/-- Bytes of the destination: the covered elements, and all of a row whose count word is uncorrectable (R207, R222). -/
def RArgs.writtenBytes (a : RArgs) (o : ROp) (c : Core) : List Nat :=
  if a.usesDst o then
    a.dst.regionBytes a.db ((regionCells a.r0 a.nr a.c0 a.nc).filter fun q =>
      q.2 < a.c0 + a.len c q.1 || c.spdPoison (a.sel + 4 * (q.1 - a.r0)) 4)
  else []

/-- The bytes that an overlap of the destination, the AUX vectors and the spill region with each other or with a source
leaves undefined; in place is none (R223). -/
def RArgs.overlap (a : RArgs) (o : ROp) (c : Core) (t : RowTag) : List Nat :=
  let inPl := fun (q : Nat × Bool × Tensor × Nat × List (Nat × Nat)) => q.2.1 && a.ti0 = q.1 && a.db = a.sb
  let aux := [(a.aux0, a.aux0Bytes o), (a.aux1, a.aux1Bytes o)].filter (·.2 != 0)
  let spill := [(t.spill, 8 * t.scap)]
  let srcs := a.sources o c
  let read := fun (qs : List (Nat × Bool × Tensor × Nat × List (Nat × Nat))) (near : List (Nat × Nat)) =>
    ((qs.filter fun q => spansTouch near q.2.2.1.spans).map fun q => q.2.2.1.regionBytes q.2.2.2.1 q.2.2.2.2).flatten
  let dst := if a.usesDst o then a.dst.spans else []
  let fromDst := read (srcs.filter fun q => !inPl q) dst
  let side := aux ++ spill
  (if fromDst.isEmpty && !spansTouch dst side then []
   else (a.writtenBytes o c).filter fun x => fromDst.contains x || spansHold side x) ++
  (read srcs side).filter (spansHold side) ++
  ((aux.map fun p => (List.range p.2).map (p.1 + ·)).flatten.filter fun x =>
    spansHold spill x || ((aux.filter fun p => spansHold [p] x).length ≥ 2))

/-- What the rows leave: statistics, cells, terms and counts, in ascending row. -/
structure RowsOut where
  core : Core
  cells : List (Nat × Nat × Item)
  terms : List (Nat × Val × Val)
  tally : Tally
  empties : Nat
  oor : Nat

/-- One region row. -/
def rowStep (o : ROp) (a : RArgs) (t : RowTag) (c : Core) (x : RowsOut) (i : Nat) : RowsOut :=
  let r := a.r0 + i
  let ρ := a.srow0 + i
  let s := if o.bwd then (readStat c t ρ, Tally.zero) else a.stats o c r
  let st := s.1
  let core := if o.bwd then (if ρ < t.resident then x.core else x.core.countSat 0x40C 1) else writeStat x.core t ρ st
  let lab := o = .xent || o = .xentBwd
  let outs := a.outputs o c r st
  let core := if o = .xent then core.write (a.aux1 + 4 * i) (natLe 4 (a.loss o c r)) else core
  ⟨core, x.cells ++ a.rowCells o c r outs.1, x.terms ++ a.terms o c r outs.1,
    ((x.tally.join s.2).join outs.2).join ⟨0, Config.rowFlush o.code (a.rowInputs o c r st), 0⟩,
    x.empties + (a.emptyRow o c r).toNat, x.oor + (lab && (a.label c r).2).toNat⟩

/-- Run a row descriptor (R208-R223). -/
def rRun (o : ROp) (c : Core) (e : Env) (d : Desc) : RunRes :=
  let a := rArgs c e d
  if tagFault o a c.row then ⟨c, [.plain .sideMemTag], 0⟩
  else if o = .tagClose then .ok ({ c with row := c.row.closeTag a.tag }.countWrap 0x408 1)
  else
    let c0 := if a.opn then { c with row := c.row.openTag a o.kind } else c
    match c0.row.find a.tag with
    | none => ⟨c, [.plain .sideMemTag], 0⟩
    | some t =>
      match a.poison o c e d with
      | some f =>
        let mine := if o.bwd then [] else a.srows
        let bytes := a.writtenBytes o c ++
          (mine.filter fun ρ => t.resident ≤ ρ).flatMap fun ρ => (List.range 8).map (t.spill + 8 * ρ + ·)
        let held := (mine.filter fun ρ => ρ < t.resident).map (t.start + ·)
        let row := if a.opn then c0.row.closeTag a.tag else c.row
        ⟨({ c with row := row.spoil (e.free + bytes.length) held }).scramble e.free bytes, [f], bytes.length + held.length⟩
      | none =>
        let x := (List.range a.nr).foldl (rowStep o a t c) ⟨c0, [], [], .zero, 0, 0⟩
        let w := writerOf e d
        let y := if a.usesDst o then writeCells w a.dst a.db x.cells x.core else (x.core, .zero)
        let c1 := if a.usesDst o then y.1.padRegion a.dst a.db a.r0 a.nr a.c0 a.nc else y.1
        let z : Written := (c1, x.tally.join y.2)
        let z := if a.mass || a.gacc then addColumns a a.aux0 (fun q => q.2.1) x.terms z else z
        let z := if a.gacc && a.aff = 2 then addColumns a a.aux1 (fun q => q.2.2) x.terms z else z
        let c2 := (((z.1.tally z.2).countSat 0x410 x.empties).countSat 0x414 x.oor).countWrap 0x408 (rowCycles a c)
        let c3 := if a.cls then { c2 with row := c2.row.closeTag a.tag } else c2
        let lost := a.overlap o c t
        ⟨c3.scramble e.free lost, ovfFaults (Dsc.ovf d) y.2, lost.length⟩

/-- `ROW_STAT_FREE` and `ROW_STAT_TAGS` (R224). -/
def rowStatFree (s : RowState) : Nat := s.longestRun * 65536 + s.freeEntries
def rowStatTags (s : RowState) : Nat := s.tags.length

end Sys2Proof.Machine
end

