-- ==== Sys2Proof/Machine/Stream.lean ====
section
/-!
DEFINITION. Stream descriptors: fields, checks and tile addresses (09 R226, R227, R230).
-/
namespace Sys2Proof.Machine

/-- A stream descriptor: 32 bytes, little-endian (R226). -/
abbrev StreamDesc := BitVec 256

namespace Sd
def dir (d : StreamDesc) : Nat := dfld d 0 63 62
def mem (d : StreamDesc) : Nat := dfld d 0 55 0
def mstride (d : StreamDesc) : Nat := dfld d 8 63 32
def spdOff (d : StreamDesc) : Nat := dfld d 8 20 0
def ntiles (d : StreamDesc) : Nat := dfld d 0x10 63 44
def psize (d : StreamDesc) : Nat := dfld d 0x10 30 16
def spitch (d : StreamDesc) : Nat := dfld d 0x10 15 0
def ring (d : StreamDesc) : Bool := dbit d 0x18 63
/-- slots of the ring -/
def slots (d : StreamDesc) : Nat := dfld d 0x18 62 60 + 1
/-- lookahead -/
def la (d : StreamDesc) : Nat := dfld d 0x18 59 57 + 1
def cen (d : StreamDesc) : Bool := dbit d 0x18 56
def ctr (d : StreamDesc) : Nat := dfld d 0x18 55 52
def chain (d : StreamDesc) : Bool := dbit d 0x18 51
/-- tile size in bytes -/
def bytes (d : StreamDesc) : Nat := 64 * psize d
/-- where `NEXT` points -/
def next (d : StreamDesc) : StreamLoc := ⟨dbit d 0x18 50, 32 * dfld d 0x18 27 0⟩
end Sd

/-- The global address of tile i (R226). -/
def tileAddr (d : StreamDesc) (i : Nat) : Nat := Sd.mem d + 64 * (i * Sd.mstride d)

/-- Length of the memory footprint: `MEM` to the end of the last tile (R226). -/
def streamSpan (d : StreamDesc) : Nat := 64 * ((Sd.ntiles d - 1) * Sd.mstride d) + Sd.bytes d

/-- The field rules of R226 and R228: reserved bits and illegal values. -/
def streamBad (d : StreamDesc) : Bool :=
  2 ≤ Sd.dir d || dfld d 0 61 56 != 0 || Sd.mem d % 64 != 0 || dfld d 8 31 21 != 0 || dfld d 0x10 43 31 != 0 ||
  dfld d 0x18 49 28 != 0 || Sd.ntiles d = 0 || Sd.psize d = 0 || 16384 < Sd.psize d ||
  (if Sd.ring d then
    Sd.spdOff d % 64 != 0 || Sd.spitch d < Sd.psize d || Sd.slots d < 3 || Sd.slots d < Sd.la d
   else Sd.spdOff d != 0 || Sd.spitch d != 0 || Sd.slots d != 1)

/-- Do a ring's slots leave SPD (R227)? -/
def ringBounds (d : StreamDesc) : Bool := Sd.ring d && outsideSpd (Sd.spdOff d) (64 * Sd.slots d * Sd.spitch d)

/-- The faults of a stream descriptor for a run context (R226, R227, R246). -/
def State.streamFaults (s : State) (ctx : Nat) (d : StreamDesc) : List FaultAt :=
  faultIf (streamBad d) (.plain .badDescriptor) ++
  (if streamBad d then [] else
    faultIf (ringBounds d) (.atSpd .tensorBounds (Sd.spdOff d)) ++
    match s.spanFault ctx (Sd.mem d) (streamSpan d) (Sd.dir d = 1) with
    | some c => [⟨c, Sd.mem d, false⟩]
    | none => [])

/-- Pages of the own near tier that a descriptor's footprint touches (R270). -/
def State.streamPages (s : State) (d : StreamDesc) : List Nat :=
  match s.target (Sd.mem d) (streamSpan d) with
  | .near o => pagesOf o (streamSpan d)
  | _ => []

/-- The descriptors that an ACTIVE context has fetched. -/
def StuCtx.fetched (x : StuCtx) : List StreamDesc :=
  if x.st = .idle then [] else x.cur.toList ++ x.ahead.toList ++ x.shadow.toList ++ x.tiles.map (·.sd)

/-- Is a page held by a stream context (R270, R362)? -/
def State.pageHeld (s : State) (k : Nat) : Bool :=
  s.cores.any fun c => c.2.stu.any fun x => x.2.fetched.any fun d => (s.streamPages d).contains k

end Sys2Proof.Machine
end

