-- ==== Sys2Proof/Machine/Regs.lean ====
section
/-!
DEFINITION. The register map: every register of every page with its access type (R10, R528, R531 and the register tables
of the chapters), what each one reads, and the rules of plain reads and writes (R9-R12, R22, R97, R461, R462).
-/
namespace Sys2Proof.Machine

/-- Access types (R10). `cmd` marks a register whose write has rules of its own. -/
inductive Acc where
  | ro
  | rc
  | rw (mask : Nat)
  | rwl (mask : Nat)
  | w1c (mask : Nat)
  | wo (mask : Nat)
  | cmd
  deriving DecidableEq, Repr

/-- One row of a register table: `n` registers from `base`, `stride` bytes apart; `fw` drops host writes. -/
structure RegRow where
  base : Nat
  stride : Nat
  n : Nat
  acc : Acc
  fw : Bool
  deriving DecidableEq, Repr

def RegRow.one (base : Nat) (acc : Acc) (fw : Bool) : RegRow := ⟨base, 4, 1, acc, fw⟩

def RegRow.has (r : RegRow) (off : Nat) : Bool :=
  r.base ≤ off && (off - r.base) % r.stride = 0 && (off - r.base) / r.stride < r.n

def headerRows : List RegRow :=
  [⟨0x0, 4, 2, .ro, false⟩, .one 0x8 .cmd true, .one 0xC .ro false, .one 0x10 (.w1c 0xFFFFFFFF) false,
    .one 0x14 (.rw 0xFFFFFFFF) false, .one 0x18 .rc false, .one 0x20 .ro false, .one 0x30 .cmd true]

def devRows : List RegRow :=
  [.one 0x100 .ro false, .one 0x104 (.rw 0x7FF) true, .one 0x108 .rc false, .one 0x10C .rc false,
    .one 0x110 .ro false, .one 0x114 .ro false, .one 0x180 (.rw 0xFF20007F) true, ⟨0x1C0, 4, 8, .cmd, false⟩,
    .one 0x1E0 (.rw 0xFFF) false, .one 0x1E4 .ro false, .one 0x1E8 .ro false, .one 0x1EC (.w1c 2) false,
    ⟨0x400, 4, 32, .rw 0xFFFFFFFF, true⟩, ⟨0x600, 0x10, 8, .rw 0xFFFFF000, false⟩, ⟨0x604, 0x10, 8, .rw 0x1FFF, false⟩,
    ⟨0x608, 0x10, 8, .cmd, false⟩, ⟨0x60C, 0x10, 8, .ro, false⟩]

def evhRows : List RegRow :=
  [.one 0x100 (.rw 0xF) true, ⟨0x200, 0x10, 4, .cmd, false⟩, ⟨0x204, 0x10, 4, .rw 0xFFFFFFFF, false⟩,
    ⟨0x208, 0x10, 4, .rw 0xFFFFFFFF, false⟩, ⟨0x20C, 0x10, 4, .rw 0xFFFFFFFF, false⟩, ⟨0x400, 0x10, 9, .cmd, false⟩,
    ⟨0x404, 0x10, 9, .cmd, false⟩, ⟨0x408, 0x10, 9, .ro, false⟩, ⟨0x40C, 0x10, 9, .cmd, true⟩,
    ⟨0x1000, 4, 1024, .cmd, false⟩]

def pwcRows (p : Nat) : List RegRow :=
  if p = 4 then
    [.one 0x100 .cmd false, .one 0x104 .ro false, .one 0x108 .rc false, .one 0x10C .ro false, .one 0x110 .cmd true,
      .one 0x114 .rc false, .one 0x118 .rc false, .one 0x11C .ro false, .one 0x120 .ro false, .one 0x124 .ro false,
      .one 0x128 (.rw 0xFFFFF) true]
  else if p = 7 then
    [.one 0x100 (.rw 0xFF) true, .one 0x104 .ro false, .one 0x108 .rc false, ⟨0x400, 4, 180, .ro, false⟩]
  else
    [.one 0x100 .cmd true, .one 0x104 (.rw 1) true, .one 0x108 .rc false, .one 0x10C .ro false,
      ⟨0x200, 4, 17, .ro, false⟩, ⟨0x400, 4, 68, .ro, false⟩]

def trbRows : List RegRow :=
  [.one 0x100 .ro false, .one 0x104 .ro false, .one 0x108 .cmd false, .one 0x10C .ro false, ⟨0x200, 4, 128, .ro, false⟩]

def mgcRows : List RegRow := [.one 0x100 .ro false, .one 0x104 .ro false, .one 0x108 .rc false, .one 0x10C .rc false]

def flmRows : List RegRow :=
  [.one 0x100 (.rw 3) true, .one 0x104 .ro false, .one 0x108 (.rw 0x1F) true, .one 0x10C .cmd false,
    .one 0x110 .ro false, .one 0x114 .ro false, .one 0x118 .ro false, .one 0x11C .ro false, .one 0x120 .ro false,
    .one 0x124 .rc false, .one 0x128 .ro false, .one 0x12C .ro false, .one 0x130 (.rw 0xFFFF) true,
    ⟨0x200, 8, 8, .rw 0xFFFFFFFF, true⟩, ⟨0x204, 8, 8, .rc, false⟩]

def flRows : List RegRow :=
  [.one 0x100 .ro false, .one 0x104 .cmd true, .one 0x108 (.rw 0xFFFFFFFF) true, ⟨0x10C, 4, 9, .rc, false⟩,
    ⟨0x130, 4, 3, .ro, false⟩]

def routeRows : List RegRow :=
  [.one 0x100 .cmd true, .one 0x104 .rc false, .one 0x108 .rc false, ⟨0x400, 4, 128, .cmd, true⟩,
    ⟨0x600, 4, 64, .cmd, true⟩]

def hbrRows : List RegRow :=
  [.one 0x100 (.rw 0x8000003F) false, .one 0x104 .ro false, .one 0x108 .rc false,
    ⟨0x120, 8, 8, .rw 0xFFE00003, true⟩, ⟨0x124, 8, 8, .rw 0xFFFFFF, true⟩, .one 0x200 (.rwl 0xFFE00001) false,
    .one 0x204 (.rwl 0xFF) false, .one 0x208 .cmd false, .one 0x20C .ro false, ⟨0x8000, 4, 256, .cmd, false⟩,
    ⟨0x9000, 4, 2, .ro, false⟩]

def treRows (g : Nat) : List RegRow :=
  [.one 0x100 .cmd false, .one 0x104 .cmd true, ⟨0x108, 4, 4, .rc, false⟩, ⟨0x120, 4, 9, .rc, false⟩,
    ⟨0x150, 4, 4, .ro, false⟩, ⟨0x200, 0x10, 16, .ro, false⟩, ⟨0x204, 0x10, 16, .cmd, true⟩,
    ⟨0x208, 0x10, 16, .rw 0xFFFFF000, true⟩, ⟨0x20C, 0x10, 16, .cmd, true⟩] ++
  (if g = 0 then
    [.one 0x118 (.rw 0xFFFF) true, .one 0x300 (.rw 0xF03F0F00) true, .one 0x304 (.rw 0xFFFFFFC0) true,
      .one 0x308 (.rw 0xFFFFFF) true, .one 0x30C (.rw 0xFFFF) true, .one 0x310 .ro false, ⟨0x314, 4, 3, .rc, false⟩,
      .one 0x320 .ro false, .one 0x324 .ro false, ⟨0x328, 4, 2, .rc, false⟩]
   else [.one 0x118 .ro false, ⟨0x300, 4, 12, .ro, false⟩])

def hvuRows (g : Nat) : List RegRow :=
  (if g = 0 then
    [.one 0x100 .cmd true, .one 0x104 (.rw 0xFFFFFFC0) true, .one 0x108 (.rw 0x1FFF) true, .one 0x10C (.rw 0x1FFF) true,
      .one 0x110 (.rw 0xFFE00000) true, .one 0x114 (.rw 0x1FFF) true, .one 0x118 (.rw 0xFFFFFFFF) true,
      .one 0x11C (.rw 0x800007FF) true, .one 0x120 (.rw 0xFFE00000) true, .one 0x124 (.rw 0x1FFF) true,
      .one 0x128 .cmd true, .one 0x12C .ro false, .one 0x130 .ro false, ⟨0x148, 4, 6, .rc, false⟩]
   else [⟨0x100, 4, 13, .ro, false⟩, ⟨0x148, 4, 6, .ro, false⟩]) ++
  [.one 0x140 .ro false, .one 0x160 .rc false, .one 0x164 .rc false]

def mdeRows : List RegRow :=
  [.one 0x100 .cmd true, .one 0x104 .ro false, ⟨0x108, 4, 2, .rw 0xFFFFFFFF, true⟩, .one 0x110 (.wo 0xFFFFFFC0) true,
    .one 0x114 .cmd true, .one 0x118 .ro false, .one 0x11C (.rw 0xFFFFFF) true, .one 0x120 (.rw 0xFF) true,
    .one 0x124 (.rw 0xFFFFFF) true, ⟨0x128, 4, 2, .rw 0xFFFFFFFF, true⟩, ⟨0x140, 4, 8, .rw 0x03FF01FF, true⟩,
    ⟨0x160, 4, 8, .rw 0xFFFFFFFF, true⟩, ⟨0x180, 4, 8, .rw 0xFFFFFFFF, true⟩, ⟨0x1A0, 4, 8, .rc, false⟩,
    .one 0x1C0 .ro false, ⟨0x1C4, 4, 2, .rc, false⟩]

def sauRows : List RegRow :=
  [.one 0x100 .cmd true, .one 0x110 (.wo 0xFFFFFFC0) true, .one 0x114 .cmd true, .one 0x118 .ro false,
    ⟨0x140, 4, 8, .rw 0x007F003F, true⟩, ⟨0x160, 4, 8, .rw 0xFFFFFFFF, true⟩, ⟨0x1A0, 4, 6, .rc, false⟩]

def kvdRows : List RegRow :=
  [.one 0x100 .cmd true, .one 0x104 (.rw 0x01FFC03F) true, .one 0x108 (.rw 0x0FFF0FFF) true, .one 0x10C .ro false,
    .one 0x110 (.rw 0xFFFFF) true, .one 0x114 (.rw 0xFFFFFFFF) true, .one 0x118 (.rw 0xFFFF) true, .one 0x11C .ro false,
    .one 0x120 .cmd true, .one 0x124 .ro false, .one 0x128 (.rw 0xFFFFFFC0) true, .one 0x12C (.rw 0x1FFF) true,
    .one 0x130 (.rw 0x1FFF) true, .one 0x134 (.rw 0xFFFFFFC0) true, .one 0x138 (.rw 0x1FFF) true,
    .one 0x13C (.rw 0xFFFFFFC0) true, .one 0x140 (.rw 0x1FFF) true, ⟨0x150, 4, 6, .rc, false⟩, .one 0x200 .cmd false,
    ⟨0x210, 4, 8, .rw 0xFFFFFFFF, true⟩]

def schRows : List RegRow :=
  [.one 0x100 .cmd true, .one 0x104 (.rw 0xFFFFFFFF) true, .one 0x108 .ro false, .one 0x10C .ro false,
    .one 0x110 (.rw 0xFFFFFFC0) true, .one 0x114 (.rw 0x1FFF) true, .one 0x118 (.rw 0xFFFFFFC0) true,
    .one 0x11C (.rw 0x1FFF) true, .one 0x120 (.rw 0x7FF) true, .one 0x124 (.rw 0xFFFFFFC0) true,
    .one 0x128 (.rw 0x1FFF) true, .one 0x12C (.rw 0xFFFFFFC0) true, .one 0x130 (.rw 0x1FFF) true,
    .one 0x134 (.rw 0xFFFFFF) true, .one 0x138 (.rw 0xFFFFFF) true, .one 0x13C (.rw 0x87FF007F) true,
    .one 0x140 .cmd true, ⟨0x150, 4, 8, .rc, false⟩, ⟨0x180, 4, 8, .rw 0xFF, true⟩, ⟨0x400, 8, 64, .cmd, true⟩,
    ⟨0x404, 8, 64, .ro, false⟩, ⟨0x800, 0x20, 64, .cmd, true⟩, ⟨0x804, 0x20, 64, .cmd, true⟩,
    ⟨0x808, 0x20, 64, .cmd, true⟩, ⟨0x80C, 0x20, 64, .cmd, true⟩, ⟨0x810, 0x20, 64, .cmd, true⟩,
    ⟨0x814, 0x20, 64, .cmd, true⟩, ⟨0x818, 0x20, 64, .ro, false⟩, ⟨0x1000, 4, 256, .ro, false⟩]

def coreRows : List RegRow :=
  [.one 0x100 .ro false, .one 0x104 .cmd true, .one 0x108 .cmd true, .one 0x10C .cmd true, .one 0x110 .cmd true,
    ⟨0x114, 4, 8, .ro, false⟩, ⟨0x134, 4, 2, .rc, false⟩, .one 0x13C .ro false, ⟨0x140, 4, 16, .cmd, true⟩,
    ⟨0x180, 4, 8, .cmd, true⟩, ⟨0x200, 4, 4, .ro, false⟩, .one 0x210 .rc false, .one 0x300 .ro false,
    ⟨0x304, 4, 2, .rc, false⟩, .one 0x30C .ro false, ⟨0x400, 4, 3, .ro, false⟩, ⟨0x40C, 4, 3, .rc, false⟩,
    .one 0x500 .ro false, ⟨0x504, 4, 2, .rc, false⟩, .one 0x50C .ro false, ⟨0x580, 4, 32, .ro, false⟩,
    ⟨0x1000, 4, 1280, .ro, false⟩]

/-- The register rows of a page, common header apart. -/
def blockRows (p : Nat) : List RegRow :=
  if p = 0 then devRows else if p = 1 || p = 2 then evhRows else if 4 ≤ p && p ≤ 7 then pwcRows p
  else if p = 8 then trbRows else if p = 9 then mgcRows else if p = 0xA then flmRows
  else if 0x10 ≤ p && p ≤ 0x17 then [.one 0x100 .ro false]
  else if 0x20 ≤ p && p ≤ 0x2F then flRows else if p = 0x30 then routeRows else if p = 0x31 then hbrRows
  else if 0x40 ≤ p && p ≤ 0x43 then treRows (p - 0x40) else if 0x44 ≤ p && p ≤ 0x47 then hvuRows (p - 0x44)
  else if p = 0x50 then mdeRows else if p = 0x51 then sauRows else if p = 0x52 then kvdRows
  else if p = 0x60 then schRows else if 0x100 ≤ p && p ≤ 0x187 then coreRows else []

/-- The row of an offset of a page; none where the offset is unassigned (R12). -/
def regRow (p off : Nat) : Option RegRow :=
  if off < 0x100 then headerRows.find? (·.has off) else (blockRows p).find? (·.has off)

/-! What the registers with a typed home read. -/

def boolBit (b : Bool) (i : Nat) : Nat := if b then 2 ^ i else 0

/-- `PAGE_ID` (R527, R528). -/
def pageId (p : Nat) : Nat :=
  let t := if p = 0 then (1, 0) else if p ≤ 2 then (2, p - 1) else if p ≤ 7 then (3, p - 4) else if p = 8 then (4, 0)
    else if p = 9 then (5, 0) else if p = 0xA then (6, 0) else if p ≤ 0x17 then (7, p - 0x10)
    else if p ≤ 0x2F then (8, p - 0x20) else if p = 0x30 then (9, 0) else if p = 0x31 then (0xA, 0)
    else if p ≤ 0x43 then (0xB, p - 0x40) else if p ≤ 0x47 then (0xC, p - 0x44) else if p = 0x50 then (0xD, 0)
    else if p = 0x51 then (0xE, 0) else if p = 0x52 then (0xF, 0) else if p = 0x60 then (0x10, 0) else (0x11, p - 0x100)
  t.1 * 2 ^ 16 + t.2 * 2 ^ 8 + 1

/-- `DEV_VARIANT` (R7). -/
def devVariant (v : Variant) : Nat :=
  match v with
  | .l9TA => 0xB10F0301
  | .l9TB => 0xB10F0002
  | .l9HTA => 0xB1050303

def Dev.idWord (d : Dev) : Nat :=
  d.strapGroup.toNat * 2 ^ 22 + d.strapSlot.toNat * 2 ^ 16 + boolBit d.anchor 11 + d.group.toNat * 2 ^ 6 + d.slot.toNat

/-- The state of an island by page. -/
def State.island (s : State) (p : Nat) : Nat :=
  Store.get (if powersIsland p && !enableReset p then 2 else 0) s.islands p

def State.setIsland (s : State) (p st : Nat) : State :=
  { s with islands := Store.set (if powersIsland p && !enableReset p then 2 else 0) s.islands p st }

/-- Work of a core site in flight: its list runs or stops, or a stream context is not IDLE (R461). -/
def Core.busy (c : Core) : Bool :=
  c.seq.st = .running || c.seq.abandoning || c.seq.inflight != 0 || c.stu.any fun x => x.2.st != .idle

/-- `PAGE_STATUS.BUSY`: the unit holds work in flight. -/
def State.busy (s : State) (p : Nat) : Bool :=
  if 0x100 ≤ p && p ≤ 0x187 then (s.core (p - 0x100)).busy
  else if 0x40 ≤ p && p ≤ 0x43 then
    s.tiers.slots.any (fun x => x.1 / 16 = p - 0x40) ||
      (p = 0x40 && (s.tiers.pacer.promoting != [] || s.tiers.pacer.resident != []))
  else if 0x44 ≤ p && p ≤ 0x47 then s.hvu.queue != [] || s.hvu.job.isSome
  else if p = 0x60 then s.sch.isOpen || s.sch.held != []
  else if p = 0x31 then s.xlat.busy
  else if p = 0x50 then s.input.jobs != []
  else if p = 0x51 then s.input.sau != []
  else if p = 0x52 then s.kvd.phase != 0 || s.kvd.clearing || s.kvd.moves != []
  else if p = 8 then s.trb.challenge.isSome
  else if p = 9 then s.mgc.update != 0
  else false

/-- Power state of R460: a core site whose phase is IDLE is GATED. -/
def State.pstate (s : State) (p : Nat) : Nat :=
  match s.island p with
  | 2 => 3
  | 3 => 3
  | 4 => 2
  | _ => if 0x100 ≤ p && (s.core (p - 0x100)).seq.phase = 0 then 1 else 0

/-- `PAGE_STATUS`: the sticky bits 5 and 4 and `ENABLED` are stored. A shut-down holds `BUSY` (R462). -/
def State.pageStatus (s : State) (p : Nat) : Nat :=
  let v := (s.reg p 0xC).toNat
  boolBit (bit (s.reg p 0xC) 5) 5 + boolBit (bit (s.reg p 0xC) 4) 4 + 4 * s.pstate p +
    boolBit (s.busy p || s.island p = 1) 1 + v % 2

/-- `PWC_MODULE` (R467). -/
def State.pwcModule (s : State) : Nat :=
  s.power.mod * 2 ^ 30 + boolBit s.power.capActive 29 + boolBit s.power.capUnmet 28 + boolBit s.power.fast 27 +
    boolBit s.power.lowv 26 + boolBit s.power.therm 25 + boolBit s.power.emerg 24

/-- k of R457 in force. -/
def Power.k (w : Power) : Nat := if w.emerg then max w.stop16 8 else w.stop16

def pointMhz (i : Nat) : Nat := [850, 1000, 1200, 1400, 1500, 1600, 1700, 1800, 1900].getD i 850

def Power.point (w : Power) (site : Nat) : Nat := Store.get 0 w.points site

def State.siteWord (s : State) (n : Nat) : Nat :=
  let pt := s.power.point n
  s.pstate (0x100 + n) * 2 ^ 30 + (s.core n).seq.phase * 2 ^ 28 + pt * 2 ^ 24 + s.power.k * 2 ^ 20 + pointMhz pt

/-- `CORE_SITE` (R151). -/
def State.coreSite (s : State) (n : Nat) : Nat :=
  let l := s.lcoreOf n
  let r := Store.get 0 s.sites n
  (if r != 0 then r else if l.isSome then 0 else 1) * 2 ^ 16 + boolBit l.isSome 15 + (l.getD 0) * 2 ^ 8 + n

def LoopLevel.wordA (l : LoopLevel) : Nat := 2 ^ 31 + l.body % 1024 * 2 ^ 20 + l.start % 2 ^ 20
def LoopLevel.wordB (l : LoopLevel) : Nat := l.iter % 65536 * 65536 + l.index % 65536

/-- The list index of R145: the stop point or the cursor. -/
def Sequencer.listIndex (q : Sequencer) : Nat :=
  if q.st = .stoppedFault then q.frec.index else q.cursor

/-- `CORE_LIST_STATUS` (R151). -/
def Sequencer.statusWord (q : Sequencer) : Nat :=
  (q.frec.done.zipIdx.foldl (fun n x => n + boolBit x.1 (17 + x.2)) 0) % 2 ^ 24 + q.inflight * 2 ^ 12 +
    q.loops.length * 2 ^ 9 + q.phase * 2 ^ 6 + q.st.code

/-- `STU_CTXc_STATE` (R247); the fields of the current pass come from its first descriptor (R226). -/
def StuCtx.stateWord (x : StuCtx) : Nat :=
  let d := (x.cur.getD x.first).toNat
  (match x.st with | .idle => 0 | .active => 1 | .disarming => 2) * 2 ^ 30 +
    boolBit (x.shadow.isSome || x.shadowFetch.isSome) 29 + (d / 2 ^ 255 % 2) * 2 ^ 28 + (d / 2 ^ 62 % 2) * 2 ^ 27 +
    (d / 2 ^ 252 % 8) * 2 ^ 24 + (d / 2 ^ 249 % 8) * 2 ^ 21 +
    (x.tiles.filter (fun t => t.st = .moving)).length * 2 ^ 17 +
    boolBit (x.tiles.any fun t => match t.st with | .faulted _ false => true | _ => false) 16 + x.acq % 65536

def StuCtx.word (x : StuCtx) (i : Nat) : Nat :=
  match i with
  | 0 => x.stateWord
  | 1 => x.head % 65536 * 65536 + x.tail % 65536
  | 2 => (match x.tiles.find? fun t => t.st = .queued with | some t => t.idx | none => x.pos) % 2 ^ 20
  | _ => x.faultCode * 2 ^ 24 + x.faultTile % 2 ^ 20

/-- A register of a core page (R151, R180, R202, R224, R247). -/
def State.coreReg (s : State) (n off : Nat) : Nat :=
  let c := s.core n
  if off = 0x100 then s.coreSite n
  else if off = 0x104 then boolBit c.ctxValid 31 + c.ctx % 8 * 2 ^ 24 + c.epoch % 256
  else if off = 0x108 then c.seq.base % 2 ^ 32
  else if off = 0x10C then boolBit c.seq.baseSpd 31 + c.seq.base / 2 ^ 32 % 2 ^ 24
  else if off = 0x114 then c.seq.statusWord
  else if off = 0x118 then c.seq.listIndex % 2 ^ 20
  else if off = 0x11C then c.seq.haltCode
  else if off = 0x120 then c.seq.frec.code * 2 ^ 24 + c.seq.frec.opcode * 2 ^ 16 + c.seq.frec.engine * 2 ^ 12
  else if off = 0x124 then c.seq.frec.also
  else if off = 0x128 then c.seq.frec.addr % 2 ^ 32
  else if off = 0x12C then boolBit c.seq.frec.spd 31 + c.seq.frec.addr / 2 ^ 32 % 2 ^ 24
  else if off = 0x130 then c.seq.eventCode
  else if 0x140 ≤ off && off < 0x180 then c.depCtr ((off - 0x140) / 4)
  else if 0x180 ≤ off && off < 0x1A0 then
    let k := (off - 0x180) / 8
    match c.seq.loops[k]? with
    | none =>
      let l := Store.get LoopLevel.zero c.seq.spare k
      if off % 8 = 0 then l.wordA % 2 ^ 31 else l.wordB
    | some l => if off % 8 = 0 then l.wordA else l.wordB
  else if off = 0x200 then bankWord c 0
  else if off = 0x204 then bankWord c 1
  else if off = 0x400 then rowStatFree c.row
  else if off = 0x404 then rowStatTags c.row
  else if 0x580 ≤ off && off < 0x600 then (c.stuCtx ((off - 0x580) / 16)).word ((off - 0x580) / 4 % 4)
  else if 0x1000 ≤ off && off < 0x2400 then
    leNat (((c.histImage ((off - 0x1000) / 320)).drop ((off - 0x1000) % 320)).take 4)
  else c.counter off

/-- A register of an event hub page; `EVH_SRCn` is one copy, kept on the page of half 0 (R434, R442). -/
def State.evhReg (s : State) (p off : Nat) : Nat :=
  if 0x1000 ≤ off then
    let n := (off - 0x1000) / 4
    (s.reg 1 off).toNat + boolBit (s.evh.pend.contains n) 16 +
      boolBit (s.evh.serving.any fun k => k.2.any fun e => e.1 = n) 15
  else if 0x400 ≤ off && off < 0x490 then
    let t := (off - 0x400) / 16
    let st := Store.get [] s.evh.serving t
    if off % 16 = 8 && (p = 1) == (t < 4) then
      boolBit (Store.get false s.evh.frozen t) 31 + boolBit (Store.get false s.evh.thaw (p - 1)) 30 +
        st.length * 2 ^ 16 + (match st with | [] => 0 | e :: _ => e.2 * 2 ^ 12 + e.1)
    else 0
  else (s.reg p off).toNat

/-- Slots of the line-watch unit in use (R444): one for each enabled list that the core watches. -/
def State.ctlStatus (s : State) (k : Nat) : Nat :=
  let lists := fun j => ((List.range 4).filter fun i => bit (s.reg 0 (0x608 + 0x10 * (4 * (j / 4) + i))) 31).length
  let own := if k % 4 = 0 && !s.ctl.failed.contains k then lists k else 0
  let taken := (s.ctl.carries.filter fun x => x.1 = k && x.2 % 4 = 0).foldl (fun n x => n + lists x.2) 0
  let duty := s.ctl.carries.find? fun x => x.1 = k
  (if s.ctl.failed.contains k then 3 else if !s.ctl.released then 1 else if duty.isSome then 2 else 0) * 2 ^ 30 +
    (match duty with | some x => x.2 % 8 * 2 ^ 24 | none => 0) + (own + taken) % 64

/-- Every list that the open slot launched has reached `HALTED` (R318). -/
def State.slotDone (s : State) : Bool :=
  s.sch.toLaunch = [] && s.sch.launched.all fun n => (s.core n).seq.st = .halted

/-- Is a slot open? -/
def State.slotIsOpen (s : State) : Bool := s.sch.isOpen && !s.slotDone

def State.schReg (s : State) (off : Nat) : Nat :=
  if off = 0x108 then
    (if s.slotIsOpen then (match s.sch.order[s.sch.slot]? with | some x => x.mb % 65536 | none => 0) else 0) * 65536 +
      s.sch.slot % 65536
  else if off = 0x10C then
    boolBit s.slotIsOpen 31 + boolBit s.sch.lapwait 30 + boolBit s.sch.withdrawn 29 + s.sch.order.length % 65536
  else if 0x400 ≤ off && off < 0x600 then
    let c := Store.get Chan.reset s.sch.chans ((off - 0x400) / 8)
    if off % 8 = 0 then boolBit c.valid 31 + c.ctx % 8 * 2 ^ 28 + c.count % 65536 else c.value.toNat
  else if 0x800 ≤ off && off < 0x1000 then
    let h := Store.get Hurdle.reset s.sch.hurdles ((off - 0x800) / 32)
    if off % 32 = 0 then boolBit h.valid 31 + h.ctx % 8 * 2 ^ 28 + h.ndev % 4096 * 2 ^ 16 + h.root % 2048
    else if off % 32 = 4 then h.gen % 65536 * 65536 + h.arrived.length % 256 * 256
    else if off % 32 = 24 then h.devices.length % 4096
    else if 8 ≤ off % 32 && off % 32 < 24 then h.cmask.toNat / 2 ^ (8 * (off % 32 - 8)) % 2 ^ 32 else 0
  else if 0x1000 ≤ off then (Store.get 0 s.sch.lossLog ((off - 0x1000) / 4)).toNat
  else (s.reg 0x60 off).toNat

/-- Bucket state nibbles of a record and the other words that an engine keeps in memory are not registers. The HVU's
own status (R311). -/
def State.hvuReg (s : State) (g off : Nat) : Nat :=
  if g != 0 && off != 0x140 && off != 0x160 && off != 0x164 && 0x100 ≤ off then 0
  else if off = 0x12C then
    (match s.hvu.job with
     | some j => (if j.phase ≤ 2 then 2 else if j.phase ≤ 4 then 3 else 4) * 2 ^ 28 + j.bucket % 4096
     | none => 0) + s.hvu.queue.length % 8192 * 2 ^ 12
  else (s.reg (0x44 + g) off).toNat

/-- A register of a TRE page; the Pacer's registers and `TRE_REPAIR_TIMEOUT` are those of TRE 0 (R284). -/
def State.treReg (s : State) (g off : Nat) : Nat :=
  if g != 0 && (off = 0x118 || 0x300 ≤ off) then 0
  else if off = 0x104 then
    let l := Store.get 15 s.tiers.lost g
    boolBit (l != 15) 31 + l
  else if off = 0x310 && g = 0 then s.tiers.pacer.entry % 65536 * 65536 + s.tiers.pacer.cursor % 65536
  else if off = 0x320 && g = 0 then s.tiers.longestRun * 65536 + s.tiers.freePages
  else if off = 0x324 && g = 0 then 1536 * 65536 + s.tiers.pinnedPages % 4096
  else if 0x200 ≤ off && off < 0x300 then
    let r := Store.get RepairSlot.free s.tiers.slots (16 * g + (off - 0x200) / 16)
    if off % 16 = 0 then r.block % 2 ^ 32
    else if off % 16 = 4 then r.st * 2 ^ 30 + min 256 r.held.length * 2 ^ 16
    else (s.reg (0x40 + g) off).toNat
  else (s.reg (0x40 + g) off).toNat

/-! The KVD's geometry and pool (R348, R349, R367). -/

/-- `PCODE`: the smallest power of two of 4 KiB that holds a page. -/
def kvdPcode (geom : Word) : Nat :=
  let n := 4096 * fld geom 5 0
  let page := match fld geom 15 14 with | 0 => 2 * n | 1 => 2 * n | 2 => n + 128 * fld geom 5 0 | _ => n
  ((List.range 7).find? fun k => page ≤ 4096 * 2 ^ k).getD 6

def State.kvdPslot (s : State) : Nat := 4096 * 2 ^ kvdPcode (s.reg pgKvd 0x104)
def State.kvdFirst (s : State) : Nat := fld (s.reg pgKvd 0x108) 11 0
def State.kvdPages (s : State) : Nat := fld (s.reg pgKvd 0x108) 27 16

/-- Slots of the allotment. -/
def State.kvdSlotCount (s : State) : Nat := s.kvdPages * (0x200000 / (2 * s.kvdPslot))

/-- Pool page of a slot. -/
def State.kvdSlotPage (s : State) (n : Nat) : Nat := s.kvdFirst + n * (2 * s.kvdPslot) / 0x200000

/-- May a slot be allocated: free, or free once its page is not held and it is not? -/
def State.kvdSlotFree (s : State) (n : Nat) : Bool :=
  match Store.get 0 s.kvd.slots n with
  | 0 => true
  | 3 => !s.pageHeld (s.kvdSlotPage n)
  | _ => false

/-- Is a page held (R270): by a stream context, or by a transfer in flight, which is a move of the KVD? The Pacer gives up
no page of an entry that it promotes or writes back. -/
def State.pageInUse (s : State) (k : Nat) : Bool :=
  s.pageHeld k || s.kvd.moves.any fun m => m.slots.any fun n => s.kvdSlotPage n = k

def State.kvdFreeSlots (s : State) : List Nat := (List.range s.kvdSlotCount).filter s.kvdSlotFree

def State.kvdReg (s : State) (off : Nat) : Nat :=
  if off = 0x104 then (s.reg pgKvd 0x104).toNat + 256 * kvdPcode (s.reg pgKvd 0x104)
  else if off = 0x10C then (if bit (s.reg pgKvd 0x100) 31 then s.kvdFreeSlots.length % 2 ^ 20 else 0)
  else if off = 0x124 then s.kvd.phase * 2 ^ 30 + boolBit (s.kvd.moves != []) 29 + boolBit s.kvd.clearing 28
  else (s.reg pgKvd off).toNat

/-- A register of the MDE page: `MDE_STAGE` and the banked class means have a home of their own (R382, R390), and the
low word of a pushed address is write-only (R10). -/
def State.mdeReg (s : State) (off : Nat) : Nat :=
  if off = 0x110 then 0 else
  if off = 0x104 then boolBit s.input.releasing 2 + s.input.owner
  else if 0x180 ≤ off && off < 0x1A0 then (Store.get 0 s.input.means (8 * s.input.bank + (off - 0x180) / 4)).toNat
  else (s.reg pgMde off).toNat

/-- A register of an FL page: `FL_STATE` shows the port (R421). -/
def State.flReg (s : State) (p off : Nat) : Nat :=
  if off = 0x100 then
    if s.dev.anchor && 12 ≤ p then 5 * 2 ^ 28 else
    let x := Store.get Port.reset s.links.ports p
    x.st * 2 ^ 28 + x.lanes * 2 ^ 24 + x.peerPort * 2 ^ 20 + x.peerId
  else (s.reg (0x20 + p) off).toNat

/-- `DEV_GPXk_CFG` with the pin's level in `IN` (R525): an output pin carries `OUT`. -/
def State.gpxWord (s : State) (k : Nat) : Nat :=
  let c := s.reg 0 (0x1C0 + 4 * k)
  let lvl := if bit c 31 && fld c 30 28 = 1 then bit c 0 else Store.get false s.pins.gpx k
  c.toNat + boolBit lvl 1

/-- Sites of a half that are usable beyond the 64 mapped ones (R16, R492). -/
def State.spares (s : State) (h : Nat) : Nat :=
  ((List.range 68).filter fun i => Store.get 0 s.sites (68 * h + i) = 0).length - 64

/-- `DEV_SUBQk_STATUS` (R443): `NEXT` is stored, the active runs of the list are counted. -/
def State.subqStatus (s : State) (k : Nat) : Nat :=
  fld (s.reg 0 (0x60C + 16 * k)) 31 16 * 65536 +
    ((List.range 8).filter fun c => match s.run c with | some x => x.accepted && x.list = k | none => false).length

/-- What a register reads, latches and reads with an effect of their own apart. -/
def State.regValue (s : State) (p off : Nat) : Word :=
  BitVec.ofNat 32 <|
    if off = 0 then pageId p
    else if off = 4 then 2 ^ 31
    else if off = 0xC then s.pageStatus p
    else if off = 0x20 then eventBase p
    else if off < 0x100 then (s.reg p off).toNat
    else if p = 0 then
      (if off = 0x100 then devVariant s.dev.variant else if off = 0x104 then s.dev.idWord
       else if 0x1C0 ≤ off && off < 0x1E0 then s.gpxWord ((off - 0x1C0) / 4)
       else if 0x400 ≤ off && off < 0x480 then
         leNat ((List.range 4).map fun i => BitVec.ofNat 8 (s.siteOf ((off - 0x400) + i)))
       else if 0x600 ≤ off && off < 0x680 && off % 16 = 12 then s.subqStatus ((off - 0x600) / 16)
       else (s.reg 0 off).toNat)
    else if p = 1 || p = 2 then s.evhReg p off
    else if p = 4 then
      (if off = 0x10C then s.pwcModule else (s.reg 4 off).toNat)
    else if (p = 5 || p = 6) && 0x400 ≤ off then s.siteWord (68 * (p - 5) + (off - 0x400) / 4)
    else if p = 9 then
      (if off = 0x100 then boolBit s.mgc.eidValid 31 + (0x40 + s.dev.strapSlot.toNat % 32) * 2 ^ 24 +
          s.mgc.eid.toNat * 2 ^ 16 + s.mgc.update * 2 ^ 8
       else if off = 0x104 then s.power.trip.toNat else (s.reg 9 off).toNat)
    else if p = 8 then
      (if off = 0x100 then boolBit s.trb.slotB 31 + boolBit s.trb.fallback 30 + boolBit s.trb.debug 29 +
          boolBit s.trb.calOk 28 + s.trb.revoked.foldl (fun n k => n + 2 ^ (24 + k % 4)) 0 + s.trb.fuseF
       else if off = 0x104 then s.trb.svn else if off = 0x10C then s.trb.bootCount else (s.reg 8 off).toNat)
    else if 0x10 ≤ p && p ≤ 0x17 then s.ctlStatus (p - 0x10)
    else if p = 0xA && off = 0x120 then s.spares 1 * 2 ^ 8 + s.spares 0
    else if 0x20 ≤ p && p ≤ 0x2F then s.flReg (p - 0x20) off
    else if p = 0x31 && off = 0x20C then boolBit s.xlat.busy 0
    else if 0x40 ≤ p && p ≤ 0x43 then s.treReg (p - 0x40) off
    else if 0x44 ≤ p && p ≤ 0x47 then s.hvuReg (p - 0x44) off
    else if p = 0x50 then s.mdeReg off
    else if p = 0x51 && off = 0x110 then 0
    else if p = 0x52 then s.kvdReg off
    else if p = 0x60 then s.schReg off
    else if 0x100 ≤ p then s.coreReg (p - 0x100) off
    else (s.reg p off).toNat

/-! Requesters (R9, R22, R97). -/

/-- The index of a requester's latches (R22): the host, CTL0-CTL7, the MGC, and one for other devices. -/
def Requester.index : Requester → Nat
  | .host => 0 | .ctl k => 1 + k.val | .mgc => 9 | .remote => 10

/-- Is the register space accessible (R522 step 4)? The MGC page and the PWC shell are on standby power. -/
def State.regsUp (s : State) : Bool := s.power.mod = 2 || s.power.mod = 3

/-- The answer that a requester gets. -/
def State.reply (s : State) (r : Requester) (v : Option Word) : State :=
  match r with
  | .host => s.emit (match v with | some w => .hostReply 0 (natLe 4 w.toNat) | none => .hostReply 1 [])
  | _ => s.emit (.regReply v)

/-- An access that breaks the width rule (R97): counted; the host's is logged by AER, and its read is answered with
Unsupported Request. -/
def State.badAccess (s : State) (r : Requester) (isRead : Bool) : State :=
  let s1 := if s.reg 0 0x108 = 0 then s.raise 0 2 else s
  let s2 := s1.countReg 0 0x108 1
  match r with
  | .host =>
    let s3 := (((s2.errSet 0x31 0).errCount 0x31 1).raise 0x31 1)
    if isRead then (s3.countReg 0x31 0x108 1).emit (.hostReply 1 []) else s3
  | _ => s2.emit (.regReply none)

/-- An access to an unassigned offset or page (R12, R527, R531). -/
def State.stray (s : State) : State :=
  (if s.reg 0 0x10C = 0 then s.raise 0 2 else s).countReg 0 0x10C 1

/-- Are the block's own registers of a page readable and writable: island not OFF (R462)? -/
def State.blockUp (s : State) (p : Nat) : Bool := s.island p != 2 && s.island p != 3

/-- An access thaws an island in RETENTION and is then served (R461). -/
def State.thawPage (s : State) (p : Nat) : State :=
  let s1 := if s.island p = 4 then s.setIsland p 0 else s
  if (p = 1 || p = 2) && Store.get false s1.evh.frost (p - 1) then
    { s1 with evh := { s1.evh with thaw := Store.set false s1.evh.thaw (p - 1) true } }
  else s1

/-- Leave FROST (R463): every island in RETENTION returns to ON and the module-state event is raised. -/
def State.awaken (s : State) : State :=
  if s.power.mod = 3 then
    let t : State := { s with power := { s.power with mod := 2, wake := false }, islands := s.islands.filter fun x => x.2 != 4 }
    (t.platformEvent 0x200 2).raise 4 2
  else s

/-- May a requester write a register? Firmware-only fields drop host writes; the MGC writes `PWC_CAP` alone
(R467, R528). -/
def mayWrite (r : Requester) (fw : Bool) (p off : Nat) : Bool :=
  match r with
  | .host => !fw
  | .mgc => p = 4 && off = 0x100
  | _ => true

/-- Carry out a write of one register with its own rules, under the rules of every write (R4, R12, R461, R462). -/
def State.onWrite (s : State) (r : Requester) (p off : Nat) (f : State → State) : State :=
  if !s.regsUp then s
  else if !pageAssigned p then s.awaken.stray
  else if !s.present p then s.awaken
  else
    let t := s.awaken.thawPage p
    match regRow p off with
    | none => t.stray
    | some row => if mayWrite r row.fw p off && (off < 0x100 || t.blockUp p) then f t else t

/-- Carry out a read with an effect of its own and answer it. -/
def State.onRead (s : State) (r : Requester) (p off : Nat) (f : State → Word × State) : State :=
  if !s.regsUp then s
  else if !pageAssigned p then s.awaken.stray.reply r (some 0)
  else if !s.present p then s.awaken.reply r (some 0)
  else
    let t := s.awaken.thawPage p
    match regRow p off with
    | none => t.stray.reply r (some 0)
    | some _ =>
      if off < 0x100 || t.blockUp p then (f t).2.reply r (some (f t).1) else t.reply r (some 0)

/-- Set or clear the sticky `CONFLICT` bit of a page (R528). -/
def State.conflict (s : State) (p : Nat) (b : Bool) : State := s.setRegBit p 0xC 5 b

end Sys2Proof.Machine
end

