-- ==== Sys2Proof/Machine/Events.lean ====
section
/-!
DEFINITION. The event hubs: delivery, claims, completions, the host target, timers, frost and thaw (16 R433-R442).
-/
namespace Sys2Proof.Machine

def evSrc (n : Nat) : Nat := 0x1000 + 4 * n

/-- The word of `EVH_SRCn` (R442). -/
def State.src (s : State) (n : Nat) : Word := s.reg 1 (evSrc n)

/-- The hub that holds a target's stack: 0 or 1 (R434). -/
def hubOf (t : Nat) : Nat := if t < 4 then 0 else 1

/-- First event source of a hub. -/
def hubBase (h : Nat) : Nat := if h = 0 then 0x304 else 0x30C

def State.isFrozen (s : State) (t : Nat) : Bool := Store.get false s.evh.frozen t

/-- The target of a source; the stack-fault source of a hub routed to a frozen target goes to the next one (R437). -/
def State.srcTarget (s : State) (n : Nat) : Nat :=
  let t := fld (s.src n) 30 27
  if (n = 0x308 || n = 0x310) && s.isFrozen t then (if t = 8 then 0 else (t + 1) % 8) else t

def State.srcPrio (s : State) (n : Nat) : Nat := fld (s.src n) 26 23

def State.stack (s : State) (t : Nat) : List (Nat × Nat) := Store.get [] s.evh.serving t

def State.setStack (s : State) (t : Nat) (l : List (Nat × Nat)) : State :=
  { s with evh := { s.evh with serving := Store.set [] s.evh.serving t l } }

/-- In service on some stack. -/
def State.inService (s : State) (n : Nat) : Bool := s.evh.serving.any fun k => k.2.any fun e => e.1 = n

/-- Insert a source in rising order. -/
def insertSorted (n : Nat) : List Nat → List Nat
  | [] => [n]
  | m :: l => if n < m then n :: m :: l else if n = m then m :: l else m :: insertSorted n l

/-- An event is lost (R436): `LOST` and `LOSTCNT`, and the hub's event-lost source when `LOST` goes to 1. -/
def State.loseEvent (s : State) (n : Nat) : State :=
  let w := s.src n
  let w1 := setFld (setFld w 7 0 (min 255 (fld w 7 0 + 1))) 14 14 1
  let s1 := s.setReg 1 (evSrc n) w1
  if bit w 14 then s1 else { s1 with raised := s1.raised ++ [hubBase (hubOf (s.srcTarget n)) + 5] }

/-- Is a pending source claimable by its target (R435)? -/
def State.claimable (s : State) (t n : Nat) : Bool :=
  s.srcTarget n = t && match s.stack t with | [] => true | e :: _ => e.2 < s.srcPrio n

/-- A hub delivers while enabled and not in frost. -/
def State.hubUp (s : State) (h : Nat) : Bool := bit (s.reg (1 + h) 8) 0 && !Store.get false s.evh.frost h

/-- Words of an MSI-X table entry (R419, log 11): message address, data, and vector control with its mask in bit 0. -/
def msixOff (vec i : Nat) : Nat := 0x8000 + 16 * vec + 4 * i

/-- The mask bit of a vector; it is 1 after reset (log 11). -/
def State.msixMasked (s : State) (vec : Nat) : Bool := bit (s.reg 0x31 (msixOff vec 3)) 0

def State.msixPending (s : State) (vec : Nat) : Bool := bit (s.reg 0x31 (0x9000 + 4 * (vec / 32))) (vec % 32)

def State.setMsixPending (s : State) (vec : Nat) (b : Bool) : State := s.setRegBit 0x31 (0x9000 + 4 * (vec / 32)) (vec % 32) b

/-- Send the message of a vector, or set its Pending Bit while it is masked (R438). -/
def State.sendMsix (s : State) (vec : Nat) : State :=
  if s.msixMasked vec then s.setMsixPending vec true else s.emit (.msix vec)

/-- Unmask a vector: a held message is sent (R438). -/
def State.unmaskVector (s : State) (vec : Nat) : State :=
  let s1 := s.setRegBit 0x31 (msixOff vec 3) 0 false
  if s1.msixPending vec then (s1.setMsixPending vec false).emit (.msix vec) else s1

/-- The host's messages: one for each pending source routed to it that is claimable and has none yet (R438). -/
def State.notifyHost (s : State) : State :=
  if !s.dev.anchor || !s.hubUp 1 || s.isFrozen 8 then s else
  s.evh.pend.foldl (fun s n =>
    if s.claimable 8 n && !s.evh.told.contains n then
      { s with evh := { s.evh with told := n :: s.evh.told } }.sendMsix (fld (s.src n) 22 17)
    else s) s

def State.makePending (s : State) (n : Nat) : State :=
  { s with evh := { s.evh with pend := insertSorted n s.evh.pend } }

/-- Take an event of a source into its hub (R435, R436, R439). -/
def State.takeEvent (s : State) (n : Nat) : State :=
  let w := s.src n
  if !bit w 31 then s
  else
    let h := hubOf (s.srcTarget n)
    let wakes := fld (s.reg (1 + h) 0x100) 3 0 ≤ s.srcPrio n
    let s := if wakes && s.power.mod = 3 then { s with power := { s.power with wake := true } } else s
    if Store.get false s.evh.frost h then
      let s := if wakes then { s with evh := { s.evh with thaw := Store.set false s.evh.thaw h true } } else s
      if s.evh.latched.contains n then s.loseEvent n
      else { s with evh := { s.evh with latched := insertSorted n s.evh.latched } }
    else if s.evh.pend.contains n || s.inService n then s.loseEvent n
    else (s.makePending n).notifyHost

/-- The claim of a target: the claimable source of highest priority, the lowest number on a tie (R435). -/
def State.bestClaim (s : State) (t : Nat) : Option Nat :=
  s.evh.pend.foldl (fun best n =>
    if s.claimable t n then
      match best with
      | none => some n
      | some m => if s.srcPrio m < s.srcPrio n then some n else best
    else best) none

/-- A read of `EVH_TGTt_CLAIM` through page p (R435, R437, R442). -/
def State.claimRead (s : State) (p t : Nat) : Word × State :=
  if (p = 1) != (t < 4) || !s.hubUp (hubOf t) || s.isFrozen t || (t = 8 && !s.dev.anchor) then (0, s)
  else match s.bestClaim t with
    | none => (0, s)
    | some n =>
      let pr := s.srcPrio n
      let s1 := { s with evh := { s.evh with pend := s.evh.pend.filter (· != n), told := s.evh.told.filter (· != n) } }
      (BitVec.ofNat 32 (2 ^ 31 + pr * 2 ^ 16 + n), s1.setStack t ((n, pr) :: s.stack t))

/-- The stack fault of a target (R437). -/
def State.stackFault (s : State) (t : Nat) : State :=
  let h := hubOf t
  let s1 := { s with evh := { s.evh with frozen := Store.set false s.evh.frozen t true } }
  (((s1.errSet (1 + h) 0).errCount (1 + h) 1)).raise (1 + h) 4

/-- A write of `EVH_TGTt_EOI` (R435, R437). -/
def State.eoiWrite (s : State) (p t : Nat) (v : Word) : State :=
  if (p = 1) != (t < 4) || s.isFrozen t then s
  else match s.stack t with
    | e :: rest => if e.1 = fld v 9 0 then (s.setStack t rest).notifyHost else s.stackFault t
    | [] => s.stackFault t

/-- `EVH_TGTt_CTRL.RESET` (R437). -/
def State.stackReset (s : State) (p t : Nat) (v : Word) : State :=
  if (p = 1) != (t < 4) || !bit v 0 then s
  else
    let s1 := s.setStack t []
    { s1 with evh := { s1.evh with frozen := Store.set false s1.evh.frozen t false } }.notifyHost

/-- A write of `EVH_SRCn` through page p (R434, R436, R438, R442). -/
def State.srcWrite (s : State) (r : Requester) (p n : Nat) (v : Word) : State :=
  let w := s.src n
  if r = .host then
    if fld w 30 27 = 8 then
      (s.setReg 1 (evSrc n) (setFld (setFld w 26 23 (fld v 26 23)) 22 17 (fld v 22 17))).notifyHost
    else s
  else if 8 < fld v 30 27 then s
  else if fld v 30 27 = 8 && !s.dev.anchor then s.errSet p 1
  else
    let lost := if bit v 14 then 0 else fld w 14 14
    let cnt := if bit v 14 then 0 else fld w 7 0
    let s1 := s.setReg 1 (evSrc n) (setFld (setFld (setFld 0 31 17 (fld v 31 17)) 14 14 lost) 7 0 cnt)
    let s2 := if bit v 31 then s1 else
      { s1 with evh := { s1.evh with pend := s1.evh.pend.filter (· != n), told := s1.evh.told.filter (· != n) } }
    s2.notifyHost

/-! Timer comparators (R440, R441). -/

def tmrPage (k : Nat) : Nat := 1 + k / 4
def tmrOff (k : Nat) : Nat := 0x200 + 0x10 * (k % 4)

/-- The owner code that a write carries: a host write 9, a firmware write the owner it acts for. -/
def writeOwner (r : Requester) (owner : Nat) : Nat := if r = .host then 9 else owner

/-- The owner that a plain register write acts for: the host, or, by firmware, the run or the firmware that holds the
comparator (log 82). -/
def State.tmrActor (s : State) (r : Requester) (k : Nat) : Nat :=
  let c := s.reg (tmrPage k) (tmrOff k)
  if r = .host then 9 else if (bit c 31 || bit c 25) && fld c 29 26 < 8 then fld c 29 26 else 8

/-- Is the comparator held, enabled or reserved, by another owner than w? -/
def State.tmrForeign (s : State) (k w : Nat) : Bool :=
  let c := s.reg (tmrPage k) (tmrOff k)
  (bit c 31 || bit c 25) && fld c 29 26 != w

def State.setTmrHit (s : State) (k : Nat) (b : Bool) : State :=
  { s with evh := { s.evh with tmrHit := Store.set false s.evh.tmrHit k b } }

/-- A write of `EVH_TMRk_CTRL` (R440, R441). -/
def State.tmrCtrlWrite (s : State) (r : Requester) (k owner : Nat) (v : Word) : State :=
  let p := tmrPage k
  let o := tmrOff k
  let c := s.reg p o
  let w := writeOwner r owner
  if s.tmrForeign k w then s.conflict p true
  else if bit v 30 && (s.reg p (o + 0xC)).toNat < 1000 then s.errSet p 2
  else
    let ow := if bit c 25 then fld c 29 26 else if bit v 31 then w else 0
    let s1 := s.setReg p o (setFld (setFld (setFld 0 31 30 (fld v 31 30)) 29 26 ow) 25 25 (fld c 25 25))
    if bit v 31 && !bit c 31 then (s1.conflict p false).setTmrHit k false else s1

/-- A write of `CMP_LO`, `CMP_HI` or `PERIOD`, i = 1 to 3 (R440, R441). -/
def State.tmrValueWrite (s : State) (r : Requester) (k i : Nat) (v : Word) : State :=
  let p := tmrPage k
  let o := tmrOff k
  if s.tmrForeign k (s.tmrActor r k) then s.conflict p true
  else if i = 3 && bit (s.reg p o) 30 && v.toNat < 1000 then s.errSet p 2
  else (s.setReg p (o + 4 * i) v).setTmrHit k (if i = 3 then Store.get false s.evh.tmrHit k else false)

def State.tmrCmp (s : State) (k : Nat) : Nat :=
  (s.reg (tmrPage k) (tmrOff k + 4)).toNat + 2 ^ 32 * (s.reg (tmrPage k) (tmrOff k + 8)).toNat

/-- A comparator has reached its compare time and has not raised its source for it. -/
def State.tmrDue (s : State) (k : Nat) : Bool :=
  bit (s.reg (tmrPage k) (tmrOff k)) 31 && !Store.get false s.evh.tmrHit k && s.tmrCmp k ≤ s.dev.time

/-- The comparator fires (R440). -/
def State.tmrFire (s : State) (k : Nat) : State :=
  let p := tmrPage k
  let s1 := s.raise p (k % 4)
  if bit (s.reg p (tmrOff k)) 30 then
    let c := s.tmrCmp k + (s.reg p (tmrOff k + 0xC)).toNat
    (s1.setReg p (tmrOff k + 4) (BitVec.ofNat 32 c)).setReg p (tmrOff k + 8) (BitVec.ofNat 32 (c / 2 ^ 32))
  else s1.setTmrHit k true

/-- Reserve a comparator for a run context; the caller has checked that no other owner holds it (R441). -/
def State.tmrReserve (s : State) (k ctx : Nat) : State :=
  s.setReg (tmrPage k) (tmrOff k) (setFld (setFld (s.reg (tmrPage k) (tmrOff k)) 29 26 ctx) 25 25 1)

/-- Release the reservation, and the comparator with it (R441). -/
def State.tmrRelease (s : State) (k : Nat) : State := s.setReg (tmrPage k) (tmrOff k) 0

/-! Soft reset, frost and thaw. -/

/-- What `SOFT_RESET` of a hub page returns to reset (R442). -/
def State.hubSoftReset (s : State) (h : Nat) : State :=
  let ts := if h = 0 then [0, 1, 2, 3] else [4, 5, 6, 7, 8]
  let s1 := { s with regs := s.regs.filter fun x => !(regKey (1 + h) 0x100 ≤ x.1 && x.1 < regKey (1 + h) 0x1000) }
  let s2 := { s1 with evh := { s1.evh with
    serving := s1.evh.serving.filter fun x => !ts.contains x.1
    frozen := s1.evh.frozen.filter fun x => !ts.contains x.1
    thaw := Store.set false s1.evh.thaw h false
    tmrHit := s1.evh.tmrHit.filter fun x => x.1 / 4 != h } }
  s2.notifyHost

/-- A hub enters frost (R439). -/
def State.hubFrost (s : State) (h : Nat) : State :=
  { s with evh := { s.evh with frost := Store.set false s.evh.frost h true } }

/-- A hub restores its state, takes the latched events in rising order and sends their messages (R439). -/
def State.hubThaw (s : State) (h : Nat) : State :=
  let mine := s.evh.latched.filter fun n => hubOf (s.srcTarget n) = h
  let s1 := { s with evh := { s.evh with
    frost := Store.set false s.evh.frost h false
    thaw := Store.set false s.evh.thaw h false
    latched := s.evh.latched.filter fun n => hubOf (s.srcTarget n) != h } }
  (mine.foldl State.takeEvent s1).notifyHost

/-! The commands. -/

/-- EVENT_DELIVER: a raised event reaches its hub (R434-R436). -/
def execEventDeliver (n : Fin 1024) (s : State) : Host.Outcome State Fault Refusal :=
  .next (if s.regsUp && s.raised.contains n.val then { s with raised := s.raised.erase n.val }.takeEvent n.val else s)

/-- CLAIM: a read of `EVH_TGTt_CLAIM` (R435). -/
def execClaim (r : Requester) (t : Fin 9) (s : State) : Host.Outcome State Fault Refusal :=
  let p := 1 + hubOf t.val
  .next (s.onRead r p (0x400 + 0x10 * t.val) fun s => s.claimRead p t.val)

/-- EOI: a write of `EVH_TGTt_EOI` (R435, R437). -/
def execEoi (r : Requester) (t : Fin 9) (v : Word) (s : State) : Host.Outcome State Fault Refusal :=
  let p := 1 + hubOf t.val
  .next (s.onWrite r p (0x404 + 0x10 * t.val) fun s => s.eoiWrite p t.val v)

/-- EVH_RESET: a write of `EVH_TGTt_CTRL` (R437). -/
def execEvhReset (r : Requester) (t : Fin 9) (v : Word) (s : State) : Host.Outcome State Fault Refusal :=
  let p := 1 + hubOf t.val
  .next (s.onWrite r p (0x40C + 0x10 * t.val) fun s => s.stackReset p t.val v)

/-- EVH_SRC_WRITE: a write of `EVH_SRCn`, here through the page of half 0; REGISTER_WRITE serves either page (R434,
R438). -/
def execEvhSrcWrite (r : Requester) (n : Fin 1024) (v : Word) (s : State) : Host.Outcome State Fault Refusal :=
  .next (s.onWrite r 1 (evSrc n.val) fun s => s.srcWrite r 1 n.val v)

/-- EVH_TMR_CTRL_WRITE: a write of a comparator's control register for an owner (R441). -/
def execEvhTmrCtrlWrite (r : Requester) (k : Fin 8) (owner : Fin 16) (v : Word) (s : State) :
    Host.Outcome State Fault Refusal :=
  .next (s.onWrite r (tmrPage k.val) (tmrOff k.val) fun s => s.tmrCtrlWrite r k.val owner.val v)

/-- TIMER_FIRE: a comparator whose compare time is reached (R440). -/
def execTimerFire (k : Fin 8) (s : State) : Host.Outcome State Fault Refusal :=
  .next (if s.regsUp && s.tmrDue k.val then s.tmrFire k.val else s)

/-- HUB_FROST: a hub that may enter frost does so (R439). -/
def execHubFrost (h : Fin 2) (s : State) : Host.Outcome State Fault Refusal :=
  .next (if s.regsUp && bit (s.reg (1 + h.val) 8) 4 && !Store.get false s.evh.frost h.val then s.hubFrost h.val else s)

/-- HUB_THAW: a hub in frost whose thaw has been asked for restores its state (R439). -/
def execHubThaw (h : Fin 2) (s : State) : Host.Outcome State Fault Refusal :=
  .next (if Store.get false s.evh.frost h.val && Store.get false s.evh.thaw h.val then s.hubThaw h.val else s)

/-- MSIX_VECTOR_UNMASK: the host clears the mask of a vector and a held message is sent (R438). -/
def execMsixVectorUnmask (vec : Fin 64) (s : State) : Host.Outcome State Fault Refusal :=
  .next (s.onWrite .host 0x31 (msixOff vec.val 3) fun s => s.unmaskVector vec.val)

end Sys2Proof.Machine
end

