-- ==== Sys2Proof/Machine/Power.lean ====
section
/-!
DEFINITION. The power controller: operating points and borrowing, the cap, droop and ageing, thermal limits
(17 R445-R470).
-/
namespace Sys2Proof.Machine

/-- The half of a page's block (R15). -/
def halfOf (p : Nat) : Nat :=
  if 0x100 ≤ p then (if p < 0x100 + 68 then 0 else 1)
  else if p = 2 || p = 4 || p = 6 || p = 7 || p = 9 || p = 0xA || (0x14 ≤ p && p ≤ 0x17) || (0x28 ≤ p && p ≤ 0x31) ||
    p = 0x42 || p = 0x43 || p = 0x46 || p = 0x47 || p = 0x52 then 1
  else 0

/-! Operating points (R449-R452). -/

/-- The highest point at or below a frequency ceiling in MHz. -/
def topPoint (mhz : Nat) : Nat := ((List.range 9).filter fun i => pointMhz i ≤ mhz).foldl max 0

/-- Points that the sensors take off the highest one of a site: its own sensor, and those that lower every site of its
half (R464). -/
def Power.loweredFor (w : Power) (site : Nat) : Nat :=
  let h := if site < 68 then 0 else 1
  let sens := [site, 136 + 2 * h, 137 + 2 * h, 176, 177 + h, 179] ++ (List.range 18).map (140 + 18 * h + ·)
  sens.foldl (fun m i => max m (Store.get 0 w.lowered i)) 0

/-- A failed sensor holds the islands it served at or below point 6 (R465). -/
def Power.held (w : Power) (site : Nat) : Bool :=
  let h := if site < 68 then 0 else 1
  w.held6.any fun i => i = site || i = 136 + 2 * h || i = 137 + 2 * h || i = 176 || i = 177 + h || i = 179 ||
    (140 + 18 * h ≤ i && i < 158 + 18 * h)

/-- The highest point that a site may take (R450, R455, R464, R465). -/
def State.ceiling (s : State) (site : Nat) : Nat :=
  let m := topPoint (s.reg (5 + halfOf (0x100 + site)) 0x100).toNat - s.power.loweredFor site
  if s.power.held site then min m 6 else m

/-- Budget of an island group in 0.01 W: bits 31:16 of its register (R468). -/
def State.budget (s : State) (j : Nat) : Nat := fld (s.reg (5 + j / 17) (0x200 + 4 * (j % 17))) 31 16

def State.setBudget (s : State) (j b : Nat) : State :=
  let off := 0x200 + 4 * (j % 17)
  s.setReg (5 + j / 17) off (setFld (s.reg (5 + j / 17) off) 31 16 b)

/-- Estimated power of a site at a point, in the measurement numbered `m` (R452). -/
def State.estimate (s : State) (m site pt : Nat) : Nat := Config.sitePower site pt m * s.power.weight / 65536

/-- Does a site draw power at all? -/
def State.siteOn (s : State) (site : Nat) : Bool := s.mapped site && s.blockUp (0x100 + site)

/-- The highest point up to `n` whose estimate fits a share; point 0 where none does. -/
def State.fitPoint (s : State) (m site share : Nat) : Nat → Nat
  | 0 => 0
  | n + 1 => if s.estimate m site (n + 1) ≤ share then n + 1 else s.fitPoint m site share n

def State.setPoint (s : State) (site pt : Nat) : State :=
  { s with power := { s.power with points := Store.set 0 s.power.points site pt } }

/-- R451 for island group j: the budget less what loading and idle sites draw is shared among the computing ones. A fast
throttle and a critical temperature hold point 0 (R459, R465), and no site stays above its ceiling (R450). The power of the
group is measured with it (R468, log 30). -/
def State.rebalance (s : State) (j : Nat) : State :=
  let m := s.free
  let s := { s with free := s.free + 1 }
  let sites := (List.range 4).map (4 * j + ·)
  let comp := sites.filter fun n => s.siteOn n && (s.core n).seq.phase = 1
  let rest := sites.filter fun n => s.siteOn n && (s.core n).seq.phase != 1
  let drawn := rest.foldl (fun t n => t + s.estimate m n (s.power.point n)) 0
  let share := if bit (s.reg (5 + j / 17) 0x104) 0 then (s.budget j - drawn) / max 1 comp.length else s.budget j / 4
  let t := comp.foldl (fun t n =>
    t.setPoint n (if s.power.fast || s.power.emerg then 0 else s.fitPoint m n share (s.ceiling n))) s
  let u := rest.foldl (fun t n => t.setPoint n (min (t.power.point n) (s.ceiling n))) t
  let off := 0x200 + 4 * (j % 17)
  u.setReg (5 + j / 17) off (setFld (u.reg (5 + j / 17) off) 15 0
    (min 65535 ((sites.filter s.siteOn).map fun n => Config.sitePower n (u.power.point n) m).sum))

def State.rebalanceAll (s : State) : State := (List.range 34).foldl State.rebalance s

/-- Points of every site at 0 (R459, R465). -/
def State.allSlow (s : State) : State := { s with power := { s.power with points := [] } }

/-! The cap (R446, R447, R456-R459). -/

/-- Phases of a stage still working. -/
def Power.phases (w : Power) (stage : Nat) : Nat :=
  (if stage = 0 then 6 else if stage = 3 then 12 else 16) - (w.shed.filter fun x => x.1 = stage).length

/-- `PWC_PHASES` (R467). -/
def Power.phaseWord (w : Power) : Word :=
  BitVec.ofNat 32 (w.phases 0 * 2 ^ 28 + w.phases 2 * 2 ^ 16 + w.phases 1 * 2 ^ 8 + w.phases 3)

/-- The limit of a stage with two or more phases shed: its remaining rating less 10% (R447). -/
def Power.stageLimit (w : Power) (stage : Nat) : Option Nat :=
  if (w.shed.filter fun x => x.1 = stage).length < 2 then none
  else some ((if stage = 0 then 480 * w.phases 0 else if stage = 3 then Config.auxRating (w.phases 3)
    else 50 * w.phases stage) * 9 / 10)

/-- Is the cap-limit pin asserted (R519)? -/
def State.capPin (s : State) : Bool := bit (s.reg 0 0x1EC) 2

/-- The effective cap in W (R446, R447, R519). -/
def State.effCap (s : State) : Nat :=
  let c := (s.reg 4 0x100).toNat
  let c := if s.power.lowv then min c (30 * s.power.vin / 1000) else c
  let c := if s.capPin then min c (s.reg 0 0x1E0).toNat else c
  (List.range 4).foldl (fun c i => match s.power.stageLimit i with | some l => min c l | none => c) c

/-- Highest 1 µs average and present input power (R467). -/
def State.sawPower (s : State) (watts : Nat) : State :=
  let s1 := s.setReg 4 0x108 (BitVec.ofNat 32 (max (s.reg 4 0x108).toNat (min watts 65535)))
  s1.setReg 4 0x104 (BitVec.ofNat 32 (min watts 65535 * 65536 + s.power.vin / 10 % 65536))

/-- Every computing site already runs at point 0. -/
def State.atFloor (s : State) : Bool :=
  s.cores.all fun x => x.2.seq.phase != 1 || s.power.point x.1 = 0

/-- One 10 µs step of the cap controller on the 100 µs average (R456-R458). -/
def State.capStep (s : State) (watts : Nat) : State :=
  let s := s.sawPower watts
  let cap := s.effCap
  let full := fun j => Config.fullBudget cap j
  let s1 :=
    if cap < watts then
      let t := (List.range 34).foldl (fun t j => t.setBudget j (t.budget j * cap / watts)) s
      if s.atFloor then
        let t := { t with power := { t.power with stop16 := min 15 (t.power.stop16 + 1) } }
        if s.power.stop16 = 15 && !s.power.capUnmet then
          { t with power := { t.power with capUnmet := true } }.raise 4 0
        else t
      else t
    else
      let t := { s with power := { s.power with capUnmet := false } }
      if watts < cap * 98 / 100 then
        if 0 < t.power.stop16 then { t with power := { t.power with stop16 := t.power.stop16 - 1 } }
        else (List.range 34).foldl (fun t j => t.setBudget j (min (full j) (t.budget j + t.budget j / 100))) t
      else t
  let active := (List.range 34).any fun j => s1.budget j < full j
  let s2 := if active && !s.power.capActive then s1.countReg 4 0x114 1 else s1
  ({ s2 with power := { s2.power with capActive := active } }).rebalanceAll

/-- Fast throttle (R459): point 0 for 20 µs. -/
def State.fastThrottle (s : State) (watts : Nat) : State :=
  let s1 := ((s.sawPower watts).allSlow.countReg 4 0x118 1).raise 4 1
  { s1 with power := { s1.power with fast := true, fastUntil := s1.dev.time + 20000 } }

/-- A write of `PWC_CAP` (R456, R467, R505). -/
def State.capWrite (s : State) (r : Requester) (v : Word) : State :=
  let c := fld v 11 0
  if c < 600 || 1800 < c then s.errSet 4 0
  else
    let s1 := s.setReg 4 0x100 (BitVec.ofNat 32 c)
    if r = .mgc then s1.raise 9 1 else s1

/-- A write of `PWC_FREQ_MAX` of a half (R455, R468). -/
def State.freqMaxWrite (s : State) (h : Nat) (v : Word) : State :=
  let f := fld v 11 0
  if f < 850 || 1900 < f || (s.power.calDefault && 1500 < f) then s
  else (s.setReg (5 + h) 0x100 (BitVec.ofNat 32 f)).rebalanceAll

/-! Sensors (R464, R465). -/

/-- Target, warning, critical and trip limits of sensor i in °C. -/
def sensorLimits (target i : Nat) : Nat × Nat × Nat × Nat :=
  if i < 136 then (target, 100, 110, 115) else if i < 140 then (90, 95, 105, 110)
  else if i < 176 then (85, 90, 95, 105) else (105, 110, 120, 125)

/-- Does the variant have the sensor (R464)? -/
def sensorThere (v : Variant) (i : Nat) : Bool :=
  !(v == .l9HTA && ((149 ≤ i && i < 158) || (167 ≤ i && i < 176)))

/-- A reading in 1/16 °C lies above a limit in °C. -/
def hotter (r : BitVec 16) (lim : Nat) : Bool := decide ((16 * lim : Int) < r.toInt)

/-- A reading lies 3 °C or more below a target. -/
def recovered (r : BitVec 16) (lim : Nat) : Bool := decide (r.toInt ≤ (16 * (lim : Int) - 48))

/-- A reading lies below a limit less 3 °C. -/
def cooler (r : BitVec 16) (lim : Nat) : Bool := decide (r.toInt < (16 * (lim : Int) - 48))

/-- The word of a sensor register. -/
def sensorWord (v : Variant) (i : Nat) (x : SensorReading) : Word :=
  if x.valid && sensorThere v i then BitVec.ofNat 32 (2 ^ 31 + x.reading.toNat) else BitVec.ofNat 32 x.reading.toNat

/-- One sensor's part of the 1 ms reading: lowering, register, failure. -/
def State.readSensor (s : State) (i : Nat) (x : SensorReading) : State :=
  let lim := sensorLimits (s.reg 7 0x100).toNat i
  let old := Store.get 0 s.power.lowered i
  let new := if !x.valid || !sensorThere s.dev.variant i then old
    else if hotter x.reading lim.1 then min 8 (old + 1) else if recovered x.reading lim.1 then old - 1 else old
  let fails := !x.valid && sensorThere s.dev.variant i
  let s1 := if fails && !s.power.held6.contains i then
      (((s.errSet 7 2).errCount 7 1).raise 7 2) else s
  let s2 := { s1 with power := { s1.power with
    lowered := Store.set 0 s1.power.lowered i new
    held6 := if fails then (if s1.power.held6.contains i then s1.power.held6 else i :: s1.power.held6)
             else s1.power.held6.filter (· != i) } }
  s2.setReg 7 (0x400 + 4 * i) (sensorWord s.dev.variant i x)

/-- Readings of the valid sensors, with their limits. -/
def validReadings (v : Variant) (target : Nat) (rs : List SensorReading) : List (Nat × BitVec 16 × (Nat × Nat × Nat × Nat)) :=
  rs.zipIdx.filterMap fun x =>
    if x.1.valid && sensorThere v x.2 then some (x.2, x.1.reading, sensorLimits target x.2) else none

/-- The reading of every sensor, each 1 ms (R464, R465). -/
def State.readSensors (s : State) (rs : List SensorReading) : State :=
  let target := (s.reg 7 0x100).toNat
  let now := validReadings s.dev.variant target rs
  let above := fun (lim : (Nat × Nat × Nat × Nat) → Nat) (x : Nat × BitVec 16 × (Nat × Nat × Nat × Nat)) =>
    hotter x.2.1 (lim x.2.2)
  let was := fun (lim : (Nat × Nat × Nat × Nat) → Nat) (x : Nat × BitVec 16 × (Nat × Nat × Nat × Nat)) =>
    let w := s.reg 7 (0x400 + 4 * x.1)
    bit w 31 && hotter (w.truncate 16) (lim x.2.2)
  let newWarn := (now.filter fun x => above (·.2.1) x && !was (·.2.1) x).length
  let newCrit := (now.filter fun x => above (·.2.2.1) x && !was (·.2.2.1) x).length
  let s1 := rs.zipIdx.foldl (fun t x => t.readSensor x.2 x.1) s
  let hottest := now.foldl (fun (b : Option (Nat × BitVec 16)) x =>
    match b with
    | none => some (x.1, x.2.1)
    | some y => if y.2.toInt < x.2.1.toInt then some (x.1, x.2.1) else b) none
  let s2 := match hottest with
    | none => s1
    | some y => s1.setReg 7 0x104 (BitVec.ofNat 32 (y.1 * 65536 + y.2.toNat))
  let s3 := s2.countReg 7 0x108 (newWarn + newCrit)
  let s4 := if newWarn = 0 then s3 else (s3.errSet 7 0).raise 7 0
  let s5 := if newCrit = 0 then s4 else (s4.errSet 7 1).raise 7 1
  let therm := if now.any (above (·.2.1)) then true
    else if now.all fun x => cooler x.2.1 x.2.2.2.1 then false else s.power.therm
  let emerg := if now.any (above (·.2.2.1)) then true
    else if now.all fun x => decide (x.2.1.toInt < 16 * (x.2.2.2.1 : Int)) then false else s.power.emerg
  let s6 := { s5 with power := { s5.power with therm := therm, emerg := emerg } }
  (if emerg && !s.power.emerg then s6.allSlow else s6).rebalanceAll

/-! The commands. -/

/-- LOW_INPUT_LIMIT: input between 56 V and 60 V limits current to 30 A; at 60 V and above the limit ends (R446). -/
def execLowInputLimit (mv : Nat) (s : State) : Host.Outcome State Fault Refusal :=
  .next (if s.regsUp && 56000 ≤ mv && mv < 60000 then
      let t := { s with power := { s.power with vin := mv, lowv := true } }
      if s.power.lowv then t else (t.errSet 4 2).raise 4 0
    else if s.regsUp && 60000 ≤ mv && mv ≤ 84000 then { s with power := { s.power with vin := mv, lowv := false } }
    else s)

/-- PHASE_SHED: a phase that fails its check is turned off (R447, R470); the FLM logs and flags it (R473). -/
def execPhaseShed (stage phase : Nat) (s : State) : Host.Outcome State Fault Refusal :=
  .next (if s.regsUp && stage < 4 && phase < (if stage = 0 then 6 else if stage = 3 then 12 else 16) &&
      !s.power.shed.contains (stage, phase) then
    let w := { s.power with shed := s.power.shed ++ [(stage, phase)] }
    let t := { s with power := w }
    let t := t.setReg 4 0x11C w.phaseWord
    (((t.errSet 4 1).errCount 4 1).raise 4 3).flmLog 0x10 3 (16 * stage + phase) 0
    else s)

/-- DROOP: an episode on an island counts on its half, and the rate event follows the 1,001st in a period (R453). -/
def execDroop (island : Nat) (s : State) : Host.Outcome State Fault Refusal :=
  .next (if s.regsUp && s.present island then
    let h := halfOf island
    let n := Store.get 0 s.power.droops h + 1
    let t := { s with power := { s.power with droops := Store.set 0 s.power.droops h n } }.countReg (5 + h) 0x108 1
    if n = 1001 then t.raise (5 + h) 3 else t
    else s)

/-- REGULATOR_RETRIM: the reference of an island's regulator takes a new trim, by less than 2 mV (R454). -/
def execRegulatorRetrim (island : Nat) (s : State) : Host.Outcome State Fault Refusal :=
  .next (if s.regsUp && s.present island then
    let d := s.draw
    { d.2 with power := { d.2.power with trims := Store.set 0 d.2.power.trims island d.1 } } else s)

/-- AGEING_MEASURE: every 1% of slowing adds 5 mV to the island's set points, up to 30 mV (R454). -/
def execAgeingMeasure (island slowing : Nat) (s : State) : Host.Outcome State Fault Refusal :=
  .next (if s.regsUp && s.present island then
    let h := halfOf island
    let old := Store.get 0 s.power.margins island
    let mv := max old (min 30 (5 * slowing))
    let t := { s with power := { s.power with margins := Store.set 0 s.power.margins island mv
                                              slowed := Store.set 0 s.power.slowed island slowing } }
    let t := t.setReg (5 + h) 0x10C (BitVec.ofNat 32 (max (t.reg (5 + h) 0x10C).toNat mv))
    if mv = 30 && old != 30 then ((t.errSet (5 + h) 1).raise (5 + h) 2).service 4 else t
    else s)

/-- ESTIMATE_CORRECT: the weights follow the measured current (R452). -/
def execEstimateCorrect (estimate measured : Nat) (s : State) : Host.Outcome State Fault Refusal :=
  .next (if s.regsUp && 0 < estimate then
    { s with power := { s.power with weight := s.power.weight * measured / estimate } } else s)

/-- CAP_STEP (R456-R458). -/
def execCapStep (watts : Nat) (s : State) : Host.Outcome State Fault Refusal :=
  .next (if s.regsUp then s.capStep watts else s)

/-- FAST_THROTTLE: a 1 µs average of 2,200 W or more (R459). -/
def execFastThrottle (watts : Nat) (s : State) : Host.Outcome State Fault Refusal :=
  .next (if s.regsUp && 2200 ≤ watts then s.fastThrottle watts else s)

/-- FAST_THROTTLE_END: 20 µs later the hold ends (R459). -/
def execFastThrottleEnd (s : State) : Host.Outcome State Fault Refusal :=
  .next (if s.power.fast && s.power.fastUntil ≤ s.dev.time then
    { s with power := { s.power with fast := false } }.rebalanceAll else s)

/-- PWC_CAP_WRITE (R456). -/
def execPwcCapWrite (r : Requester) (v : Word) (s : State) : Host.Outcome State Fault Refusal :=
  .next (s.onWrite r 4 0x100 fun s => s.capWrite r v)

/-- PWC_FREQ_MAX_WRITE of half h (R455). -/
def execPwcFreqMaxWrite (r : Requester) (h : Fin 2) (v : Word) (s : State) : Host.Outcome State Fault Refusal :=
  .next (s.onWrite r (5 + h.val) 0x100 fun s => s.freqMaxWrite h.val v)

/-- SENSOR_READ (R464, R465). -/
def execSensorRead (readings : List SensorReading) (s : State) : Host.Outcome State Fault Refusal :=
  .next (if s.regsUp && readings.length = 180 then s.readSensors readings else s)

end Sys2Proof.Machine
end

