-- ==== Sys2Proof/Machine/Islands.lean ====
section
/-!
DEFINITION. Enables, islands and soft reset: `PAGE_CTRL`, `PAGE_LOCK`, power-up, shut-down and retention
(17 R460-R462, 21 R528-R530).
-/
namespace Sys2Proof.Machine

/-- Drop the stored registers of a block from offset 0x100 upward, with `ERR_STATUS` and `ERR_COUNT` (R529). -/
def State.dropRegs (s : State) (p : Nat) : State :=
  { s with regs := s.regs.filter fun x =>
      x.1 / 16384 != p || (x.1 % 16384 < 64 && x.1 % 16384 != 4 && x.1 % 16384 != 6) }

/-- The core after a soft reset: its registers; SPD is no register. -/
def Core.softReset (c : Core) : Core := { Core.reset with spd := c.spd, poison := c.poison }

/-- The MDE after a soft reset; what the SAU holds stays. -/
def Input.resetMde (x : Input) : Input :=
  { Input.reset with faults := x.faults, sau := x.sau, owner := x.owner / 2 * 2, releasing := x.releasing && x.owner = 2 }

/-- The SAU after a soft reset. -/
def Input.resetSau (x : Input) : Input :=
  { x with sau := [], owner := x.owner % 2, releasing := x.releasing && x.owner = 1 }

/-- Return every register of a block to its reset value (R529). The retirement state of R477 stays. -/
def State.blockReset (s : State) (p : Nat) : State :=
  if p = 1 || p = 2 then (s.hubSoftReset (p - 1)).setReg p 0x10 0 |>.setReg p 0x18 0
  else
    let s1 := s.dropRegs p
    if p = 0 then
      { s1 with dev := { s1.dev with group := s1.dev.strapGroup, slot := s1.dev.strapSlot, tcap := 0 } }
    else if p = 4 then
      { s1 with power := { s1.power with capActive := false, capUnmet := false, fast := false, lowv := false,
                                         therm := false, emerg := false } }
    else if p = 9 then { s1 with mgc := { s1.mgc with eid := 0, eidValid := false, update := 0 } }
    else if p = 0x40 then { s1 with tiers := { s1.tiers with pacer := { Pacer.reset with ending := s1.tiers.pacer.ending } } }
    else if 0x20 ≤ p && p ≤ 0x2F then
      { s1 with links := { s1.links with ports := Store.set Port.reset s1.links.ports (p - 0x20) Port.reset } }
    else if 0x44 ≤ p && p ≤ 0x47 then (if p = 0x44 then { s1 with hvu := Hvu.reset } else s1)
    else if p = 0x60 then { s1 with sch := Sch.reset }
    else if p = 0x50 then { s1 with input := s1.input.resetMde }
    else if p = 0x51 then { s1 with input := s1.input.resetSau }
    else if p = 0x52 then { s1 with kvd := Kvd.reset }
    else if p = 0x31 then { s1 with xlat := Xlat.reset }
    else if 0x100 ≤ p && p ≤ 0x187 then s1.onCore (p - 0x100) Core.softReset
    else s1

/-- `SOFT_RESET` acts while the unit is disabled and idle (R529). -/
def State.softReset (s : State) (p : Nat) : State :=
  if bit (s.reg p 0xC) 0 || s.busy p || s.island p = 1 then s else s.blockReset p

/-- Contents lost when an island goes OFF (R460): registers, and the state kept beside them. -/
def State.loseBlock (s : State) (p : Nat) : State :=
  let s1 := s.blockReset p
  if 0x100 ≤ p && p ≤ 0x187 then s1.setCore (p - 0x100) Core.reset else s1

/-- A write of `ENABLE` (R462, steps 1, 2a, 2b, 3 and 4a). -/
def State.enableWrite (s : State) (p : Nat) (en : Bool) : State :=
  let cur := bit (s.reg p 8) 0
  let s1 := s.setRegBit p 8 0 en
  if !powersIsland p then
    let s2 := s1.setRegBit p 0xC 0 en
    if (p = 1 || p = 2) && en then s2.notifyHost else s2
  else match s.island p with
    | 1 => s1.setRegBit p 0xC 4 en
    | 2 => if en then s1.setIsland p 3 else s1
    | 3 => s1
    | _ => if cur && !en then (s1.setRegBit p 0xC 0 false).setIsland p 1 else s1

/-- A write of `PAGE_CTRL`: `FROST_ALLOW`, then `SOFT_RESET`, then `ENABLE` (R528, R529). -/
def State.pageCtrlWrite (s : State) (p : Nat) (v : Word) : State :=
  let s1 := s.setRegBit p 8 4 (bit v 4)
  let s2 := if bit v 1 then s1.softReset p else s1
  s2.enableWrite p (bit v 0)

/-- A write of `PAGE_LOCK` (R530). -/
def State.pageLockWrite (s : State) (p : Nat) (v : Word) : State := if bit v 0 then s.setRegBit p 0x30 0 true else s

/-- Are the RWL fields of a page read-only (R10, R530)? -/
def State.locked (s : State) (p : Nat) : Bool := bit (s.reg p 0x30) 0 || s.runActive

/-- Work in flight that a shut-down lets complete. -/
def State.inFlight (s : State) (p : Nat) : Bool :=
  if 0x100 ≤ p && p ≤ 0x187 then
    let c := s.core (p - 0x100)
    c.seq.inflight != 0 || c.stu.any fun x => x.2.tiles.any fun t => t.st = .moving
  else s.busy p

/-- Is the island idle in the sense of R461? -/
def State.islandIdle (s : State) (p : Nat) : Bool :=
  if 0x100 ≤ p && p ≤ 0x187 then
    let c := s.core (p - 0x100)
    (c.seq.st = .idle || c.seq.st = .halted) && !c.stu.any fun x => x.2.st = .active
  else !s.busy p

/-- PAGE_LOCK (R530). -/
def execPageLock (r : Requester) (p : Fin 1024) (v : Word) (s : State) : Host.Outcome State Fault Refusal :=
  .next (s.onWrite r p.val 0x30 fun s => s.pageLockWrite p.val v)

/-- SOFT_RESET: a write of `PAGE_CTRL` (R529). -/
def execSoftReset (r : Requester) (p : Fin 1024) (v : Word) (s : State) : Host.Outcome State Fault Refusal :=
  .next (s.onWrite r p.val 8 fun s => s.pageCtrlWrite p.val v)

/-- PAGE_ENABLE_WRITE: a write of `PAGE_CTRL` (R462). -/
def execPageEnableWrite (r : Requester) (p : Fin 1024) (v : Word) (s : State) : Host.Outcome State Fault Refusal :=
  .next (s.onWrite r p.val 8 fun s => s.pageCtrlWrite p.val v)

/-- SHUTDOWN_COMPLETE: work in flight is complete and the island goes OFF; a pending enable powers it up (R462). -/
def execShutdownComplete (p : Fin 1024) (s : State) : Host.Outcome State Fault Refusal :=
  .next (if s.present p.val && s.island p.val = 1 && !s.inFlight p.val then
    (s.loseBlock p.val).setIsland p.val (if bit (s.reg p.val 0xC) 4 then 3 else 2) else s)

/-- POWER_UP_COMPLETE: `ENABLED` sets, `PENDING_ON` clears and the power-up event is raised; an enable cleared
meanwhile starts the shut-down at once (R462). -/
def execPowerUpComplete (p : Fin 1024) (s : State) : Host.Outcome State Fault Refusal :=
  .next (if s.present p.val && s.island p.val = 3 then
    let t := s.setRegBit p.val 0xC 4 false
    if bit (s.reg p.val 8) 0 then ((t.setRegBit p.val 0xC 0 true).setIsland p.val 0).raise (5 + halfOf p.val) 0
    else t.setIsland p.val 1
    else s)

/-- RETENTION_ENTRY: an island that may frost and has been idle for `PWC_FROST_IDLE` (R461). The hubs keep their own
rules (R439). -/
def execRetentionEntry (p : Fin 1024) (s : State) : Host.Outcome State Fault Refusal :=
  .next (if s.regsUp && s.present p.val && p.val != 1 && p.val != 2 && s.island p.val = 0 && bit (s.reg p.val 8) 4 &&
      s.islandIdle p.val && Store.get 0 s.busyAt p.val + 1000 * (s.reg 4 0x128).toNat ≤ s.dev.time then
    s.setIsland p.val 4 else s)

/-- ISLAND_THAW: an island in RETENTION returns to ON (R461). -/
def execIslandThaw (p : Fin 1024) (s : State) : Host.Outcome State Fault Refusal :=
  .next (if s.present p.val && s.island p.val = 4 then s.awaken.setIsland p.val 0 else s)

end Sys2Proof.Machine
end

