-- ==== Sys2Proof/Machine/Send.lean ====
section
/-!
DEFINITION. Sending: route tables, the transmit side of a port, link and host-window transactions, and the replies that
a served remote access sends (04 R90-R96, 10 R263-R264, 15 R396-R412).
-/
namespace Sys2Proof.Machine

/-! Ports. -/

/-- On an anchor the lanes of FL12 to FL15 belong to the host bridge (R17). -/
def State.hostPort (s : State) (p : Nat) : Bool := s.dev.anchor && 12 ≤ p

def State.port (s : State) (p : Nat) : Port := Store.get Port.reset s.links.ports p

def State.setPort (s : State) (p : Nat) (x : Port) : State :=
  { s with links := { s.links with ports := Store.set Port.reset s.links.ports p x } }

def State.portActive (s : State) (p : Nat) : Bool := p < 16 && !s.hostPort p && (s.port p).st = 3

/-- Credits of a channel and class when a port becomes ACTIVE (R401). -/
def fullCredits (i : Nat) : Nat := if i / 2 = 2 then 2560 else 256

/-- Index of a packet's channel and class. -/
def packetLane (k : Packet) : Nat := 2 * k.vc.toNat + k.dl.toNat

/-- Credits that a packet takes: one for each 64 B of header and data slots (R401). `CREDIT` takes none. -/
def packetCost (k : Packet) : Nat := if k.type = 1 then 0 else cdiv (1 + cdiv k.data.length 16) 4

/-- `LEN` of a data length in bytes (R397). -/
def lenUnits (n : Nat) : BitVec 6 := BitVec.ofNat 6 (cdiv n 64)

/-! Route tables (R409, R410). -/

/-- Entry of a table in the active bank. -/
def State.routeEntry (s : State) (inter : Bool) (k : Nat) : Word :=
  let b := (s.reg pgRoute 0x100).toNat % 2
  if inter then s.reg pgRoute (0x600 + 0x80 * b + 4 * k) else s.reg pgRoute (0x400 + 0x100 * b + 4 * k)

/-- Ports an entry lists, in listed order. -/
def entryPorts (e : Word) : List Nat :=
  if bit e 31 then (List.range (min (fld e 30 28) 4)).map fun i => fld e (4 * i + 11) (4 * i + 8) else []

/-- The listed ports toward a device that are ACTIVE (R410). -/
def State.routePorts (s : State) (dst : Nat) : List Nat :=
  let e :=
    if dst / 64 = s.dev.group.toNat then s.routeEntry false (dst % 64)
    else
      let x := s.routeEntry true (dst / 64 % 32)
      if bit x 31 && !bit x 27 then s.routeEntry false (fld x 5 0) else x
  (entryPorts e).filter s.portActive

/-- The port of a packet (R410). -/
def State.routePort (s : State) (k : Packet) : Option Nat :=
  let ps := s.routePorts k.dst.toNat
  let h := k.src.toNat ^^^ k.dst.toNat
  let h := if k.vc = 2 then h ^^^ fld k.addr 22 12 else h
  if ps = [] then none else ps[h % ps.length]?

/-! The transmit side of a port. -/

/-- May a packet leave now: credit, relay room, and no earlier packet of its channel waiting (R401-R403)? -/
def Port.canSend (x : Port) (held : List Nat) (k : Packet) : Bool :=
  x.st = 3 && !held.contains k.vc.toNat && packetCost k ≤ Store.get 0 x.credits (packetLane k) && 5 * (x.relay.length + 1) ≤ 1024

/-- Put the credits to be returned into a header (R397). -/
def Port.withCredits (x : Port) (k : Packet) : Port × Packet :=
  match x.owed with
  | [] => (x, k)
  | (i, n) :: _ =>
    if k.type = 1 then (x, k) else
    let c := min n 31
    ({ x with owed := Store.set 0 x.owed i (n - c) },
      { k with crvc := BitVec.ofNat 2 (i / 2), crdl := i % 2 = 1, crcnt := BitVec.ofNat 5 c })

/-- Send one packet: it enters the relay in a frame of its own (R403, log 40). -/
def Port.send (x : Port) (now : Nat) (k : Packet) : Port × Packet :=
  let y := (x.withCredits k).1
  let q := (x.withCredits k).2
  ({ y with credits := Store.set 0 y.credits (packetLane q) (Store.get 0 y.credits (packetLane q) - packetCost q),
            relay := y.relay ++ [⟨y.txSeq, 1, q⟩], txSeq := (y.txSeq + 5) % 4096,
            since := if y.relay = [] then now else y.since }, q)

/-- Send what may leave, in order within each channel: the port, the packets sent and those that wait. -/
def Port.drain (x : Port) (now : Nat) : List Nat → List Packet → Port × List Packet × List Packet
  | _, [] => (x, [], [])
  | held, k :: ks =>
    if x.canSend held k then
      let y := x.send now k
      let r := y.1.drain now held ks
      (r.1, y.2 :: r.2.1, r.2.2)
    else
      let r := x.drain now (k.vc.toNat :: held) ks
      (r.1, r.2.1, k :: r.2.2)

/-- Let waiting packets of a port leave. -/
def State.drainPort (s : State) (p : Nat) : State :=
  let x := s.port p
  if x.queue = [] then s else
  let r := x.drain s.dev.time [] x.queue
  let t := s.setPort p { r.1 with queue := r.2.2 }
  { t.wrapReg (pgFl p) 0x130 (5 * r.2.1.length) with sent := t.sent ++ r.2.1.map (.packet p) }

/-- Hand a packet to a port. A send over a dateline port sets `DL` (R412). -/
def State.toPort (s : State) (p : Nat) (k : Packet) : State :=
  let q := { k with dl := k.dl || bit (s.reg (pgFl p) 0x104) 30 }
  let x := s.port p
  (s.setPort p { x with queue := x.queue ++ [q] }).drainPort p

/-- A packet of this device: header fields that the origin fills (R397). -/
def State.newPacket (s : State) (type vc dst ctx tag addr : Nat) (data : List Byte) : Packet :=
  { hcrcOk := true, hbr := false, crdl := false, crcnt := 0, crvc := 0, epoch := (s.reg pgSch (0x180 + 4 * (ctx % 8))).truncate 8,
    ctx := BitVec.ofNat 3 ctx, type := BitVec.ofNat 5 type, vc := BitVec.ofNat 2 vc, dl := false,
    dst := BitVec.ofNat 11 dst, src := BitVec.ofNat 11 s.ownId, len := lenUnits data.length,
    tag := BitVec.ofNat 12 tag, hops := 0, addr := BitVec.ofNat 41 addr, data := data }

/-- Send a packet of this device by its route; without one it is lost (R411). -/
def State.sendOwn (s : State) (k : Packet) : State :=
  match s.routePort k with
  | none => s
  | some p => s.toPort p k

def State.sendAll (s : State) (ks : List Packet) : State := ks.foldl State.sendOwn s

/-- Cut bytes into pieces of at most n, with the address of each; `fuel` bounds the pieces. -/
def cutBytes (n : Nat) : Nat → Nat → List Byte → List (Nat × List Byte)
  | 0, _, _ => []
  | f + 1, a, bs => if bs = [] then [] else (a, bs.take n) :: cutBytes n f (a + n) (bs.drop n)

/-- Data packets of a transfer, at most 384 B each (R400): `last` is the type of the final one. -/
def State.dataPackets (s : State) (type last dst ctx tag addr : Nat) (bs : List Byte) : List Packet :=
  let ps := cutBytes 384 (bs.length / 384 + 1) addr bs
  ps.zipIdx.map fun x => s.newPacket (if x.2 + 1 = ps.length then last else type) 2 dst ctx tag x.1.1 x.1.2

/-! Host-window translation (R94-R96). -/

/-- Local address of the translation table. -/
def State.xlatBase (s : State) : Nat :=
  fld (s.reg pgHbr 0x204) 7 0 * 2 ^ 32 + (s.reg pgHbr 0x200).toNat / 2 ^ 21 * 2 ^ 21

/-- Entry i, cached or fetched into the cache (R96). -/
def State.xlatEntry (s : State) (i : Nat) : Quad × State :=
  match Store.get none s.xlat.cache i with
  | some q => (q, s)
  | none =>
    let q := BitVec.ofNat 64 (s.tiers.outerNum (s.xlatBase + 8 * i) 8)
    (q, { s with xlat := { s.xlat with cache := Store.set none s.xlat.cache i (some q) } })

/-- The pieces of a window span, at most 4 KiB each (R417): entry, window offset, length. -/
def windowPieces (off n : Nat) : List (Nat × Nat × Nat) :=
  (blocksOf off n).map fun b =>
    let lo := max off (4096 * b)
    (b / 512, lo, min (off + n) (4096 * b + 4096) - lo)

/-- Is an entry usable for an access (R95)? -/
def xlatOk (q : Quad) (write : Bool) : Bool := bit q 0 && fld q 20 2 = 0 && (!write || bit q 1)

/-- Translate a window span: the host addresses of its pieces, or none where R95 refuses it. -/
def State.translate (s : State) (off n : Nat) (write : Bool) : Option (List (Nat × Nat × Nat)) × State :=
  if !bit (s.reg pgHbr 0x200) 0 then (none, s) else
  (windowPieces off n).foldl (fun x p =>
    let e := x.2.xlatEntry p.1
    (match x.1 with
      | none => none
      | some ps => if xlatOk e.1 write then some (ps ++ [(e.1.toNat / 2 ^ 21 * 2 ^ 21 + p.2.1 % 0x200000, p.2.1, p.2.2)])
          else none, e.2)) (some [], s)

/-! Transactions. -/

/-- The transaction with a tag. -/
def State.txn (s : State) (tag : Nat) : Option Txn := s.txns.find? (·.tag = tag)

def State.onTxn (s : State) (tag : Nat) (f : Txn → Txn) : State :=
  { s with txns := s.txns.map fun t => if t.tag = tag then f t else t }

def State.dropTxn (s : State) (tag : Nat) : State := { s with txns := s.txns.filter (·.tag != tag) }

/-- The blocks of a span: address and length of each piece, on 64 B bounds. -/
def linkPieces (a n : Nat) : List (Nat × Nat) :=
  (blocksOf a n).map fun b =>
    let lo := max (a / 64 * 64) (4096 * b)
    (lo, min (roundUp (a + n) 64) (4096 * b + 4096) - lo)

/-- Packets of a read (R398). -/
def State.readPackets (s : State) (dst ctx tag a n : Nat) : List Packet :=
  (linkPieces a n).map fun p => { s.newPacket 2 0 dst ctx tag p.1 [] with len := lenUnits p.2 }

/-- Packets of a write: a whole block of an outer tier travels compressed where it has a compressed form (R263, R264). -/
def State.writePackets (s : State) (dst ctx tag a : Nat) (bs : List Byte) : List Packet :=
  ((splitBlocks a bs).map fun p =>
    let e := encodeStored p.2.2
    if p.2.2.length = 4096 && e.2 < 16 && p.2.1 < nearBase then s.dataPackets 7 8 dst ctx tag p.2.1 e.1
    else s.dataPackets 5 6 dst ctx tag p.2.1 p.2.2).flatten

/-- The epoch and the HBR mark of a client's packets: a core stamps its own with `CORE_RUN.EPOCH` (R343). -/
def State.stampFor (s : State) (cl : Client) (ks : List Packet) : List Packet :=
  match cl with
  | .tile n _ _ => ks.map fun k => { k with epoch := BitVec.ofNat 8 (s.core n).epoch }
  | .store n _ => ks.map fun k => { k with epoch := BitVec.ofNat 8 (s.core n).epoch }
  | .host => ks.map fun k => { k with hbr := true }
  | .firmware _ => ks.map fun k => { k with hbr := true }
  | _ => ks

/-- Write bytes to host memory, at most 512 B in each request (R13, R417). -/
def State.hostPost (s : State) (a : Nat) (bs : List Byte) : State :=
  (cutBytes 512 (bs.length / 512 + 1) a bs).foldl (fun s p => s.emit (.hostWrite p.1 p.2)) s

/-- Open a transaction and send its requests. A far device that no route reaches ends it at once with
`LINK_UNREACHABLE` (R411); a host access that the table refuses with `TENSOR_BOUNDS` (R95). -/
def State.request (s : State) (cl : Client) (ctx dst addr len : Nat) (write : Option (List Byte)) : State :=
  let tag := s.nextTag
  let new := fun (wait : Nat) (st : Nat) =>
    Txn.mk tag cl dst addr len write.isSome [] [] wait (st != 0) st s.dev.time
  let open' := fun (s : State) (t : Txn) => { s with txns := s.txns ++ [t], nextTag := (tag + 1) % 4096 }
  if dst = 2048 then
    let x := s.translate addr len write.isSome
    match x.1, write with
    | none, _ => open' x.2 (new 0 4)
    | some ps, none => ps.foldl (fun s p => s.emit (.hostRead tag p.1 p.2.2)) (open' x.2 (new 0 0))
    | some ps, some bs =>
      ps.foldl (fun s p => s.hostPost p.1 ((bs.drop (p.2.1 - addr)).take p.2.2))
        (open' x.2 { new 0 0 with done := true })
  else
    let ks := s.stampFor cl (match write with
      | none => s.readPackets dst ctx tag addr len
      | some bs => s.writePackets dst ctx tag addr bs)
    if ks.any fun k => (s.routePort k).isNone then open' s (new 0 12)
    else (open' s (new (if write.isSome then (blocksOf addr len).length else 0) 0)).sendAll ks

/-- Open a transaction toward a target that is not the device's own memory: a far device, or the host window, which a
device that is no anchor reaches through its anchor (R93). -/
def State.requestAt (s : State) (cl : Client) (ctx : Nat) (t : Target) (len : Nat) (write : Option (List Byte)) : State :=
  match t with
  | .far d a => s.request cl ctx d a len write
  | .host o =>
    if s.dev.anchor then s.request cl ctx 2048 o len write
    else s.request cl ctx (64 * s.dev.group.toNat) (hostBase + o) len write
  | _ => s

/-- Bytes of a read that have come, in address order. -/
def Txn.bytes (t : Txn) : List Byte :=
  (List.range t.len).map fun i =>
    match t.parts.find? fun p => p.1 ≤ t.addr + i && t.addr + i < p.1 + p.2.length with
    | some p => p.2[t.addr + i - p.1]?.getD 0
    | none => 0

/-! Replies to served accesses (R263, R398, R399). -/

/-- Answer a request with a status: `RD_ERR` or `WR_ACK`, in the request's context. -/
def State.respond (s : State) (write : Bool) (dst ctx tag status : Nat) : State :=
  s.sendOwn (s.newPacket (if write then 9 else 0xA) 1 dst ctx tag status [])

/-- Packets that answer a read of the own outer tier: a compressed block travels as its stream, other bytes raw. -/
def State.blockReply (s : State) (dst ctx tag a : Nat) (bs : List Byte) : List Packet :=
  ((splitBlocks a bs).map fun p =>
    let m := s.tiers.mapOf p.1
    if mapWritten m && mapNsec m < 16 then s.dataPackets 4 4 dst ctx tag (4096 * p.1) (encodeStored (s.tiers.block p.1)).1
    else s.dataPackets 3 3 dst ctx tag p.2.1 p.2.2).flatten

/-- Log an error by AER on the bridge (R423). -/
def State.aer (s : State) : State := ((s.errSet 0x31 0).errCount 0x31 1).raise 0x31 1

/-- A host read that the bridge answers with Unsupported Request (R418). -/
def State.hostUr (s : State) : State := (s.countReg 0x31 0x108 1).emit (.hostReply 1 [])

/-- The end of a host access: a write is posted, and one that fails is logged by AER (R418, R420). -/
def State.hostEnd (s : State) (write : Bool) (data : List Byte) (fault : Nat) : State :=
  if write then (if fault = 0 then s else s.aer)
  else if fault = 0 then s.emit (.hostReply 0 data)
  else if fault = 5 then s.emit (.hostReply 4 [])
  else s.hostUr

/-- Answer an access: bytes of a read, or the code it ended with. -/
def State.answer (s : State) (h : HeldAccess) (data : List Byte) (fault : Nat) : State :=
  match h.whom with
  | .unit => s
  | .host => s.hostEnd h.write data fault
  | .bus => s.emit (.readReply (if fault = 0 then data else []) fault)
  | .link tag src ctx =>
    if h.write || fault != 0 then s.respond h.write src.toNat ctx.toNat tag.toNat fault
    else s.sendAll (s.blockReply src.toNat ctx.toNat tag.toNat h.addr data)

/-- Answer the requester of a transaction that has ended, where that is not a unit that waits for it. -/
def State.settleOne (s : State) (t : Txn) : State :=
  match t.client with
  | .bus => s.emit (.readReply (if t.status = 0 && !t.write then t.bytes else []) t.status)
  | .host => s.hostEnd t.write t.bytes t.status
  | .relay src tag ctx =>
    if t.write || t.status != 0 then s.respond t.write src.toNat ctx.toNat tag.toNat t.status
    else s.sendAll
      (s.dataPackets 3 3 src.toNat ctx.toNat tag.toNat (if t.dst = 2048 then hostBase + t.addr else t.addr) t.bytes)
  | _ => s

/-- Firmware's transfers from this number on are writes that nothing waits for. -/
def lastFirmware : Nat := 2 ^ 21

/-- Is a transaction of a client that `settleOne` answers, or a write that nothing waits for? -/
def Txn.settles (t : Txn) : Bool :=
  t.done && match t.client with
    | .bus => true
    | .host => true
    | .relay _ _ _ => true
    | .pacer _ => t.write
    | .mediaOut => true
    | .firmware n => lastFirmware ≤ n
    | _ => false

/-- Settle the transactions that have ended. -/
def State.settle (s : State) : State :=
  (s.txns.filter Txn.settles).foldl State.settleOne { s with txns := s.txns.filter fun t => !t.settles }

end Sys2Proof.Machine
end

