-- ==== Sys2Proof/Machine/Tiers.lean ====
section
/-!
DEFINITION. The outer tier's service: sector decoding, reads, writes, scrubs, repair and poison, and their commands
(10 R248-R266, R281-R285, 18 R481).
-/
namespace Sys2Proof.Machine

/-! Sector decoding (R250-R252). -/

/-- What the code makes of a sector. `open'` says that the bytes delivered are open: R251 and R252 detect no such
pattern. -/
inductive SectorRead where
  | good | opened | bad
  deriving DecidableEq, Repr

/-- Corrupted symbols of a codeword. -/
def codewordErrs (x : SectorFault) (k : Nat) : List SymErr := (x.errs.filter fun e => e.codeword.val = k).eraseDups

/-! Windowed counters of the fault manager (18 R472). -/

def State.onFlm (s : State) (f : Flm → Flm) : State := { s with flm := f s.flm }

/-- Count one event of a resource: is the fault lasting now? `FLM_THRk` gives N and, in s, W. -/
def State.flmCount (s : State) (kind res : Nat) : Bool × State :=
  let th := s.reg pgFlm (0x200 + 8 * kind)
  let n := fld th 31 20 + 1
  let old := match s.flm.counters.find? fun c => c.kind = kind && c.res = res with | some c => c.times | none => []
  let times := (s.dev.time :: old).take n
  let rest := s.flm.counters.filter fun c => !(c.kind = kind && c.res = res)
  let lasting := n = 1 || (times.length = n && s.dev.time ≤ times.getLastD 0 + 1000000000 * fld th 19 0)
  (lasting, s.onFlm fun f => { f with counters := if lasting then rest else ⟨kind, res, times⟩ :: rest })

/-- Declare a lasting fault (R472, R493). -/
def State.flmDeclare (s : State) (kind res : Nat) : State :=
  let s0 := if kind = 1 || kind = 2 then s.onFlm fun f => { f with lastKind := Store.set 1 f.lastKind res kind } else s
  let s1 := ((s0.errSet pgFlm 0).raise pgFlm 0).countReg pgFlm 0x124 1
  (s1.countReg pgFlm (0x204 + 8 * kind) 1).flmLog kind 1 res res

/-- Does the module no longer detect errors in a group (R476)? -/
def State.undetected (s : State) : Bool :=
  let bad := fun (g : Nat) => Store.get 15 s.tiers.lost g != 15
  if s.dev.variant = .l9HTA then bad 0 && bad 2 else (List.range 4).any bad

/-- With `REPLACE_DEGRADED` and a spare in the job, the device is to be replaced (R476). -/
def State.planReplace (s : State) : State :=
  if s.undetected && bit (s.reg pgFlm 0x100) 0 && fld (s.reg pgFlm 0x104) 5 0 != 0 then
    s.onFlm fun f => { f with toReplace := true }
  else s

/-- Mark a package lost: the group enters DEGRADED, which the fault manager flags and logs (R252, R473, R476). -/
def State.losePackage (s : State) (g p : Nat) : State :=
  let t := { s with
    tiers := { s.tiers with lost := Store.set 15 s.tiers.lost g p }
    flm := { s.flm with pkgsLost := s.flm.pkgsLost ++ [(g, p)] } }
  ((((t.errSet (pgTre g) 1).raise (pgTre g) 1).service g).flmLog 0x12 3 (16 * g + p) 0).planReplace

/-- The action of a lasting kind-3 fault: the package is marked lost where its group is NORMAL, else flagged (R473). -/
def State.packageWorn (s : State) (res : Nat) : State :=
  if Store.get 15 s.tiers.lost (res / 16) = 15 then (s.losePackage (res / 16) (res % 16)).flmLog 3 2 res 0
  else s.flmLog 3 3 res 0

/-- A sector with a corrected symbol of package p is an event of kind 3 (R473). -/
def State.packageEvent (s : State) (g p : Nat) : State :=
  let x := s.flmCount 3 (16 * g + p)
  if x.1 then (x.2.flmDeclare 3 (16 * g + p)).packageWorn (16 * g + p) else x.2

/-- Count corrected symbols by package (R251). -/
def State.countSyms (s : State) (g : Nat) (es : List SymErr) : State :=
  es.foldl (fun s e => s.countReg (pgTre g) (0x120 + 4 * e.pkg.val) 1) s

/-- A sector is uncorrectable in NORMAL: the packages are probed, and a lost one is taken as erasures (R252). -/
def State.probe (s : State) (g : Nat) (x : SectorFault) : SectorRead × State :=
  match (List.range 9).find? fun p => x.probe.getLsbD p with
  | none => (.bad, s)
  | some p => (if x.errs.all fun e => e.pkg.val = p then .good else .opened, s.losePackage g p)

/-- Decode the sector that an access moves first (R251, R252); the fault manager counts its corrected packages. More than 12 symbols in a codeword: the spec does not say
whether the decoder reports them, so a free value does (log 41). -/
def State.decodeSector (s : State) (g : Nat) (x : SectorFault) : SectorRead × State :=
  let c0 := codewordErrs x 0
  let c1 := codewordErrs x 1
  let lost := Store.get 15 s.tiers.lost g
  if x.errs = [] then (.good, s)
  else if lost != 15 then (if x.errs.all fun e => e.pkg.val = lost then .good else .opened, s)
  else
    let fixed := (if c0.length ≤ 4 then c0 else []) ++ (if c1.length ≤ 4 then c1 else [])
    let t := ((fixed.map (·.pkg)).eraseDups).foldl (fun s p => s.packageEvent g p.val) (s.countSyms g fixed)
    if c0.length ≤ 4 && c1.length ≤ 4 then (.good, (t.errCount (pgTre g) 1).wrapReg (pgTre g) 0x15C 1)
    else if (4 < c0.length && c0.length ≤ 12) || (4 < c1.length && c1.length ≤ 12) then t.probe g x
    else if bit t.draw.1 0 then t.draw.2.probe g x else (.opened, t.draw.2)

/-! Repair (R281-R283). -/

def State.slotOf (s : State) (g n : Nat) : RepairSlot := Store.get RepairSlot.free s.tiers.slots (16 * g + n)

def State.setSlot (s : State) (g n : Nat) (r : RepairSlot) : State :=
  { s with tiers := { s.tiers with slots := Store.set RepairSlot.free s.tiers.slots (16 * g + n) r } }

/-- Poison a block (R281 step 6). -/
def State.poisonBlock (s : State) (b : Nat) : State :=
  let p := pgTre (s.groupOf b)
  let m := s.tiers.mapOf b
  let t := { s with tiers := s.tiers.setMap b (mapByte false true (mapWritten m) (mapNsec m)) }
  (t.countReg p 0x110 1).errSet p 3

/-- Poison a block and tell the FLM, which logs it with the group's packages, none of them named (R281 step 6, log 42). -/
def State.giveUpBlock (s : State) (b : Nat) : State := (s.poisonBlock b).flmLog 3 3 (16 * s.groupOf b + 15) b

/-- Put a block under repair, whatever it holds (R281 step 1), or poison it where no slot is free (R283). -/
def State.openRepair (s : State) (b : Nat) : State :=
  let g := s.groupOf b
  let m := s.tiers.mapOf b
  if mapRepair m then s else
  match (List.range 16).find? fun n => (s.slotOf g n).st = 0 with
  | none => (s.countReg (pgTre g) 0x114 1).giveUpBlock b
  | some n =>
    let t := s.setSlot g n ⟨1, b, [], s.dev.time⟩
    let u := { t with tiers := t.tiers.setMap b (mapByte true false (mapWritten m) (mapNsec m)) }
    ((u.countReg (pgTre g) 0x108 1).errSet (pgTre g) 0).raise (pgTre g) 0

/-- Begin the repair of a block with an uncorrectable sector. One that is poisoned already has no value to repair. -/
def State.beginRepair (s : State) (b : Nat) : State := if mapPoison (s.tiers.mapOf b) then s else s.openRepair b

/-- The blocks of the map word of a block: 8 group-local block numbers (R255, R249). -/
def State.mapWordBlocks (s : State) (b : Nat) : List Nat :=
  let hta := s.dev.variant == .l9HTA
  let q := place hta (4096 * b)
  let w := if hta then 2 else 4
  (List.range (8 * w)).filterMap fun i =>
    let c := w * (q.2.1 / 8 * 8) + i
    if (place hta (4096 * c)).1 = q.1 then some c else none

/-- Decode what an access to a block meets: the map word, the block stream, then the sector (R251-R255, R261). -/
def State.openBlock (s : State) (b : Nat) (x : SectorFault) : SectorRead × State :=
  let g := s.groupOf b
  if x.mapWord then
    (.bad, (s.mapWordBlocks b).foldl State.openRepair (s.errSet (pgTre g) 4))
  else
    let r := s.decodeSector g x
    if r.1 = .bad || (x.stream && mapNsec (s.tiers.mapOf b) < 16) then (.bad, r.2.beginRepair b) else r

/-- The slot that repairs a block. -/
def State.repairSlotOf (s : State) (b : Nat) : Option Nat :=
  (List.range 16).find? fun n => let r := s.slotOf (s.groupOf b) n; r.st != 0 && r.block = b

/-- A block of a span under repair. -/
def State.heldBlock (s : State) (a n : Nat) : Option Nat := (blocksOf a n).find? fun b => mapRepair (s.tiers.mapOf b)

/-- Hold an access in the slot of a block (R282). Those beyond 256 wait at their requesters, in the same order. -/
def State.hold (s : State) (b : Nat) (h : HeldAccess) : State :=
  match s.repairSlotOf b with
  | none => s
  | some n =>
    let r := s.slotOf (s.groupOf b) n
    s.setSlot (s.groupOf b) n { r with held := r.held ++ [h] }

/-- An access wakes the TRE of every block of its span (R461). -/
def State.thawBlocks (s : State) (a n : Nat) : State :=
  (blocksOf a n).foldl (fun s b => s.thawPage (pgTre (s.groupOf b))) s

/-- Apply an access that nothing holds, and answer it (R256-R258, R282). A unit's access only waits here: the unit moves
and charges it itself. `opened`: the bytes delivered are open. -/
def State.serve (s : State) (h : HeldAccess) (opened : Bool) : State :=
  if h.whom = .unit then s else
  let s := s.thawBlocks h.addr h.len
  if h.write then
    let r := s.writeOuter h.cls h.addr h.data
    r.1.answer h [] (if r.2 then 5 else 0)
  else
    let r := s.readOuter h.cls h.addr h.len
    if r.2.1 then r.2.2.answer h [] 5
    else if opened then
      let f := r.2.2.freeBytes h.len
      f.2.answer h f.1 0
    else r.2.2.answer h r.1 0

/-- Does an access read the packages of a block: a read of one with sectors, or a partial write of a written one? -/
def State.reads (s : State) (h : HeldAccess) (b : Nat) : Bool :=
  let m := s.tiers.mapOf b
  if mapPoison m || !mapWritten m then false
  else if h.write then !(h.addr ≤ 4096 * b && 4096 * b + 4096 ≤ h.addr + h.len)
  else true

/-- The block at which an access meets the packages or, with a bad map word, the map: every access reads the map. -/
def State.meets (s : State) (h : HeldAccess) (x : SectorFault) : Option Nat :=
  if x.mapWord then (blocksOf h.addr h.len).head? else (blocksOf h.addr h.len).find? (s.reads h)

/-- An access reaches the TRE: refused outside the populated tier, held on a block under repair, or decoded and
served. -/
def State.access (s : State) (h : HeldAccess) (x : SectorFault) : State :=
  if outerSize s.dev.variant < h.addr + h.len then s.answer h [] 4
  else match s.heldBlock h.addr h.len with
  | some b => s.hold b h
  | none =>
    match s.meets h x with
    | none => s.serve h false
    | some b =>
      let r := s.openBlock b x
      match r.1 with
      | .bad =>
        match r.2.heldBlock h.addr h.len with
        | some c => r.2.hold c h
        | none => r.2.serve h false
      | .opened => r.2.serve h true
      | .good => r.2.serve h false

/-- No fault on the packages. -/
def SectorFault.none : SectorFault := ⟨[], 0, false, false⟩

/-- Serve the accesses that a slot held, in arrival order; one that meets another block under repair waits there. -/
def State.serveHeld (s : State) (hs : List HeldAccess) : State := hs.foldl (fun s h => s.access h SectorFault.none) s

/-- Take the transaction of a slot's fetch away. -/
def State.dropRepairTxn (s : State) (g n : Nat) : State :=
  { s with txns := s.txns.filter fun t => t.client != .repair g n }

/-- End a repair in poison (R281 step 6). -/
def State.repairPoison (s : State) (g n : Nat) : State :=
  let r := s.slotOf g n
  (((s.setSlot g n RepairSlot.free).dropRepairTxn g n).giveUpBlock r.block).serveHeld r.held

/-- `REPAIR_TIMEOUT` in ns (R284). -/
def State.repairLimit (s : State) : Nat := 1000 * max 100 (fld (s.reg 0x40 0x118) 15 0)

/-- Rewrite a block from its source: the write and its read-back are background work (R281 step 4, R266). -/
def State.repairWrite (s : State) (b : Nat) (bs : List Byte) : State :=
  let n := (encodeStored bs).2
  let t := { s with tiers := (s.tiers.putOuter (4096 * b) bs).setMap b (mapByte true false true n) }
  t.charge .background b (2 * n)

/-- End a repair with the block rewritten (R281 step 5). -/
def State.repairDone (s : State) (g n : Nat) : State :=
  let r := s.slotOf g n
  let t := s.setSlot g n RepairSlot.free
  let u := { t with tiers := t.tiers.setMap r.block (mapByte false false true (mapNsec (t.tiers.mapOf r.block))) }
  ((u.countReg (pgTre g) 0x10C 1).dropRepairTxn g n).serveHeld r.held

/-! Commands. -/

/-- OUTER_READ (R256, R257, R282): a read of the own outer tier reaches its TRE. -/
def execOuterRead (cls : TierClass) (addr : BitVec 40) (len : Nat) (x : SectorFault) (s : State) :
    Host.Outcome State Fault Refusal :=
  .next (if len = 0 then s else s.access ⟨.bus, false, cls, addr.toNat, len, []⟩ x)

/-- OUTER_WRITE (R258, R282): a write of the own outer tier reaches its TRE. -/
def execOuterWrite (cls : TierClass) (addr : BitVec 40) (data : List Byte) (x : SectorFault) (s : State) :
    Host.Outcome State Fault Refusal :=
  .next (if data = [] then s else s.access ⟨.bus, true, cls, addr.toNat, data.length, data⟩ x)

/-- A write of `TRE_PKG` (R252, R284). -/
def State.pkgWrite (s : State) (g : Nat) (v : Word) : State :=
  if Store.get 15 s.tiers.lost g = 15 && fld v 3 0 ≤ 8 then s.losePackage g (fld v 3 0) else s

/-- Are three shares allowed (R265)? -/
def splitOk (v : Word) : Bool :=
  let a := fld v 4 0
  let b := fld v 12 8
  let c := fld v 20 16
  a != 0 && b != 0 && c != 0 && a ≤ 14 && b ≤ 14 && c ≤ 14 && a + b + c = 16

/-- A write of `TRE_SPLIT` (R265, R530). -/
def State.splitWrite (s : State) (g : Nat) (v : Word) : State :=
  if s.locked (pgTre g) then s
  else if splitOk v then s.setReg (pgTre g) 0x100 (v &&& 0x001F1F1F)
  else s.errSet (pgTre g) 2

/-- TRE_PKG_WRITE (R252, R284). -/
def execTrePkgWrite (r : Requester) (g : Fin 4) (v : Word) (s : State) : Host.Outcome State Fault Refusal :=
  .next (s.onWrite r (pgTre g) 0x104 fun s => s.pkgWrite g.val v)

/-- TRE_SPLIT_WRITE (R265, R530). -/
def execTreSplitWrite (r : Requester) (g : Fin 4) (v : Word) (s : State) : Host.Outcome State Fault Refusal :=
  .next (s.onWrite r (pgTre g) 0x100 fun s => s.splitWrite g.val v)

/-- Where the source that a slot's registers name lies (R281, R284). -/
def State.repairSource (s : State) (g n : Nat) : Target :=
  s.target (fld (s.reg (pgTre g) (0x20C + 16 * n)) 23 0 * 2 ^ 32 + (s.reg (pgTre g) (0x208 + 16 * n)).toNat) 4096

/-- A slot's fetch of a named source (R281 step 3), for the run context that may read the block. -/
def State.repairFetch (s : State) (g n : Nat) : State :=
  let r := s.slotOf g n
  let ctx := ((List.range 8).find? fun c => s.mayOuter c (4096 * r.block) 4096 false).getD 0
  ((s.dropRepairTxn g n).setSlot g n { r with st := 2 }).requestAt (.repair g n) ctx (s.repairSource g n) 4096 none

/-- A write of `TRE_REPAIRn_SRC_HI` (R281, R284). While a fetch is under way `GO` names another source in its place. -/
def State.repairGoWrite (s : State) (g n : Nat) (v : Word) : State :=
  let t := s.setReg (pgTre g) (0x20C + 16 * n) (v &&& 0x00FFFFFF)
  if bit v 31 && ((t.slotOf g n).st = 1 || (t.slotOf g n).st = 2) then t.repairFetch g n else t

/-- A write of `TRE_REPAIRn_CTRL` (R281 step 6, R284). -/
def State.nosrcWrite (s : State) (g n : Nat) (v : Word) : State :=
  if bit v 0 && (s.slotOf g n).st != 0 then s.repairPoison g n else s

/-- REPAIR_GO: a write of `TRE_REPAIRn_SRC_HI` (R281, R284). -/
def execRepairGo (r : Requester) (g : Fin 4) (slot : Fin 16) (v : Word) (s : State) : Host.Outcome State Fault Refusal :=
  .next (s.onWrite r (pgTre g) (0x20C + 16 * slot.val) fun s => s.repairGoWrite g.val slot.val v)

/-- NOSRC: a write of `TRE_REPAIRn_CTRL` (R281 step 6, R284). -/
def execNosrc (r : Requester) (g : Fin 4) (slot : Fin 16) (v : Word) (s : State) : Host.Outcome State Fault Refusal :=
  .next (s.onWrite r (pgTre g) (0x204 + 16 * slot.val) fun s => s.nosrcWrite g.val slot.val v)

/-- What a slot's source at x returned: the bytes of the own tier, where they lie there; the block that the links have brought,
or the one the command brings; none where the source returns poison, or lies in no range of R91. -/
def State.sourceBlock (s : State) (g n : Nat) (x : Target) (block : Option (List Byte)) : Option (List Byte) :=
  match x with
  | .outer l => if s.tiers.poisoned l 4096 then none else some (s.tiers.outerBytes l 4096)
  | .near o => if s.tiers.nearBad o 4096 then none else some (s.tiers.nearBytes o 4096)
  | .bad => none
  | _ =>
    match s.txns.find? fun t => t.client = .repair g n && t.done with
    | some t => if t.status = 0 then some t.bytes else none
    | none => block

/-- Does a source in the own outer tier wait for a repair of its own (R282)? -/
def State.sourceHeld (s : State) (x : Target) : Bool :=
  match x with
  | .outer l => s.tiers.repairing l 4096
  | _ => false

/-- The request to a source in the own outer tier charges its remote class (R281 step 3). -/
def State.chargeSource (s : State) (x : Target) : State :=
  match x with
  | .outer l => s.chargeRead .remote l 4096
  | _ => s

/-- REPAIR_BLOCK_ARRIVE (R281, steps 4 to 6): written, read back, written once more where the read-back fails; poison from
the source poisons the block (log 42). -/
def execRepairBlockArrive (g : Fin 4) (slot : Fin 16) (block : Option (List Byte)) (bad1 bad2 : Bool) (s : State) :
    Host.Outcome State Fault Refusal :=
  let r := s.slotOf g.val slot.val
  let x := s.repairSource g.val slot.val
  .next (if r.st != 2 || s.sourceHeld x then s else
    match s.sourceBlock g.val slot.val x block with
    | none => (s.chargeSource x).repairPoison g.val slot.val
    | some bs =>
      if bs.length != 4096 then s else
      let t := (s.chargeSource x).repairWrite r.block bs
      if !bad1 then t.repairDone g.val slot.val
      else
        let u := t.repairWrite r.block bs
        if bad2 then u.repairPoison g.val slot.val else u.repairDone g.val slot.val)

/-- REPAIR_TIMEOUT (R281 step 6). -/
def execRepairTimeout (g : Fin 4) (slot : Fin 16) (s : State) : Host.Outcome State Fault Refusal :=
  let r := s.slotOf g.val slot.val
  .next (if r.st != 0 && r.since + s.repairLimit ≤ s.dev.time then s.repairPoison g.val slot.val else s)

/-- Periods of 65,536 ns that `DEV_TIME` has completed (R271). -/
def State.agePeriods (s : State) : Nat := s.dev.time / 65536

/-- PAGE_AGE_TICK (R271): where periods of 65,536 ns have passed since the last tick, every pool page in use grows older by
as many; a FREE page's age is not read. -/
def execPageAgeTick (s : State) : Host.Outcome State Fault Refusal :=
  let n := s.agePeriods - s.tiers.aged
  .next { s with tiers := { s.tiers with
    aged := s.agePeriods
    pages := s.tiers.pages.map fun x => (x.1, { x.2 with age := min 255 (x.2.age + n) }) } }

end Sys2Proof.Machine
end

