-- ==== Sys2Proof/Machine/Pacer.lean ====
section
/-!
DEFINITION. The Pacer and its tier schedule, and the host-window translation (04 R94-R96, R110, 10 R267-R280).
-/
namespace Sys2Proof.Machine

/-! Schedule entries (R273). -/

/-- An entry: 96 bytes, little-endian. -/
abbrev PEntry := BitVec 768

namespace PEntry
def td (e : PEntry) : Tensor := Tensor.ofBits (e.truncate 256)
def first (e : PEntry) : Nat := dfld e 0x20 63 48
def last (e : PEntry) : Nat := dfld e 0x20 47 32
def slv (e : PEntry) : Bool := dbit e 0x20 31
def slice (e : PEntry) : Nat := dfld e 0x20 30 24
def trans (e : PEntry) : Bool := dbit e 0x20 23
def pin (e : PEntry) : Bool := dbit e 0x20 22
def wback (e : PEntry) : Bool := dbit e 0x20 21
def sen (e : PEntry) : Bool := dbit e 0x20 20
def ctr (e : PEntry) : Nat := dfld e 0x20 19 16
/-- Binding j: 0 `W` tiles, 1 `W` scales, 2 `Wᵀ` tiles, 3 `Wᵀ` scales. -/
def bindWord (e : PEntry) (j : Nat) : Nat := dfld e (0x28 + 4 * j) 31 0
def bindValid (e : PEntry) (j : Nat) : Bool := (bindWord e j).testBit 31
/-- Near-tier offset of the bound stream descriptor. -/
def bindOff (e : PEntry) (j : Nat) : Nat := 32 * (bindWord e j % 2 ^ 28)
def cmask (e : PEntry) : Nat := dfld e 0x40 127 0
def reserved (e : PEntry) : Bool :=
  dfld e 0x20 15 0 != 0 || dfld e 0x38 63 0 != 0 || dfld e 0x50 127 0 != 0 ||
    (List.range 4).any fun j => bindWord e j / 2 ^ 28 % 8 != 0
end PEntry

/-- The `Wᵀ` tensor of R110 at a base and a scale base. -/
def Tensor.transposed (t : Tensor) : Tensor := { t with rows := t.cols, cols := t.rows, kaxis := !t.kaxis }

/-- Lengths of the four regions of an entry's copies (R276 step 1). -/
def regionLens (e : PEntry) : List Nat :=
  let t := PEntry.td e
  let sl := if t.bs = 0 then 0 else t.scaleFootprint
  let u := t.transposed
  [t.footprint, sl, if PEntry.trans e then u.footprint else 0,
    if PEntry.trans e && t.bs != 0 then u.scaleFootprint else 0]

/-- Offsets of the four regions: each starts at the next 4 KiB boundary; and the end of the last. -/
def regionOffs (e : PEntry) : List Nat × Nat :=
  (regionLens e).foldl (fun x n => (x.1 ++ [roundUp x.2 4096], roundUp x.2 4096 + n)) ([], 0)

def regionOff (e : PEntry) (j : Nat) : Nat := (regionOffs e).1.getD j 0

/-- Pages that the copies need. -/
def entryPages (e : PEntry) : Nat := cdiv (regionOffs e).2 0x200000

/-- Pages that `W` and its scales need. -/
def entryWPages (e : PEntry) : Nat := cdiv (regionOff e 1 + (regionLens e).getD 1 0) 0x200000

/-- Does a home span break R92, R112 or the ownership rule of R274? -/
def State.homeBad (s : State) (ctx a n : Nat) : Bool :=
  match s.target a n with
  | .bad => true
  | .near _ => true
  | .outer l => !s.mayOuter ctx l n false
  | _ => false

/-- Is a span of the near tier inside the context's pinned pages? -/
def State.inPinned (s : State) (ctx off n : Nat) : Bool :=
  (pagesOf off n).all fun k => (s.tiers.page k).st = 1 && (s.tiers.page k).ctx = ctx

/-- A bad entry (R274); `prev` is `FIRST` of the entry before it. -/
def State.entryBad (s : State) (ctx prev : Nat) (e : PEntry) : Bool :=
  let t := PEntry.td e
  PEntry.reserved e || t.badFormat || t.badDescriptor || t.spd ||
    s.homeBad ctx t.base t.footprint || (t.bs != 0 && s.homeBad ctx t.scaleBase t.scaleFootprint) ||
    (PEntry.last e != 0xFFFF && PEntry.last e < PEntry.first e) || PEntry.first e < prev ||
    (PEntry.trans e && (PEntry.last e = 0xFFFF || t.layout != 0)) ||
    (!PEntry.trans e && (PEntry.bindValid e 2 || PEntry.bindValid e 3)) ||
    (t.bs = 0 && (PEntry.bindValid e 1 || PEntry.bindValid e 3)) ||
    ((List.range 4).any fun j => PEntry.bindValid e j && !s.inPinned ctx (PEntry.bindOff e j) 32) ||
    ((List.range 128).any fun i => (PEntry.cmask e).testBit i && !(s.claims ctx).cores.contains i) ||
    (!PEntry.sen e && PEntry.cmask e != 0) || 1536 < entryPages e

/-- Pacer registers. -/
def State.pacerCtx (s : State) : Nat := fld (s.reg 0x40 0x300) 30 28
def State.pacerOn (s : State) : Bool := bit (s.reg 0x40 0x300) 31
def State.pacerBase (s : State) : Nat := fld (s.reg 0x40 0x308) 23 0 * 2 ^ 32 + (s.reg 0x40 0x304).toNat

/-- Entry i of the schedule, in the context's pinned pages or its own outer tier (R273). -/
def State.pacerEntry (s : State) (i : Nat) : Option PEntry :=
  let a := s.pacerBase + 96 * i
  match s.target a 96 with
  | .near o => if s.inPinned s.pacerCtx o 96 && !s.tiers.nearBad o 96 then some (bitsOf 768 (s.tiers.nearBytes o 96)) else none
  | .outer l =>
    if s.mayOuter s.pacerCtx l 96 false && !s.tiers.poisoned l 96 then some (bitsOf 768 (s.tiers.outerBytes l 96)) else none
  | _ => none

def State.onPacer (s : State) (f : Pacer → Pacer) : State :=
  { s with tiers := { s.tiers with pacer := f s.tiers.pacer } }

/-- The Pacer fault of R274: the walk stops at the entry. -/
def State.pacerFault (s : State) : State := (s.onPacer fun p => { p with stopped := true }).raise 0x40 2

/-! Pages. -/

/-- Give pages a state. -/
def State.setPages (s : State) (k n : Nat) (x : PoolPage) : State :=
  { s with tiers := { s.tiers with
      pages := (List.range n).foldl (fun m i => Store.set PoolPage.free m (k + i) x) s.tiers.pages } }

/-- Are n pages from k all FREE? -/
def Tiers.freeAt (t : Tiers) (k n : Nat) : Bool :=
  k + n ≤ 3072 && (List.range n).all fun i => (t.page (k + i)).st = 0

/-- The lowest run of n free pages that begins among `cnt` pages from `lo`. -/
def Tiers.firstFit (t : Tiers) (lo cnt n : Nat) : Option Nat :=
  ((List.range cnt).map (lo + ·)).find? fun k => t.freeAt k n

/-- The allocation of R276 step 2: the preferred slice, its half, then the pool. -/
def Tiers.allocate (t : Tiers) (slice : Option Nat) (n : Nat) : Option Nat :=
  match slice with
  | none => t.firstFit 0 3072 n
  | some l => ((t.firstFit (24 * l) 24 n).or (t.firstFit (1536 * (l / 64)) 1536 n)).or (t.firstFit 0 3072 n)

/-- Is a page of an entry held (R270)? -/
def State.entryHeld (s : State) (e : PacerEntry) : Bool := (List.range e.pages).any fun i => s.pageInUse (e.page + i)

/-- Is a page that a context holds in a state still held? It is freed no earlier than its release (R270). -/
def State.pagesHeld (s : State) (ctx st : Nat) : Bool :=
  s.tiers.pages.any fun x => x.2.st = st && x.2.ctx = ctx && s.pageInUse x.1

/-- Free the pages that a context holds in a state. -/
def State.freeHeldFor (s : State) (ctx st : Nat) : State :=
  { s with tiers := { s.tiers with pages := s.tiers.pages.filter fun x => !(x.2.st = st && x.2.ctx = ctx) } }

/-- An entry's age: the smallest among its pages (R271). -/
def Tiers.entryAge (t : Tiers) (e : PacerEntry) : Nat :=
  (List.range e.pages).foldl (fun a i => min a (t.page (e.page + i)).age) 255

/-- The entry to be evicted next (R271). -/
def State.victim (s : State) : Option PacerEntry :=
  (s.tiers.pacer.resident.filter fun e =>
      PEntry.last e.bits = 0xFFFF && !PEntry.pin e.bits && !e.leaving && !s.entryHeld e).foldl (fun best e =>
    match best with
    | none => some e
    | some b =>
      let x := s.tiers.entryAge e
      let y := s.tiers.entryAge b
      if y < x || (x = y && e.page < b.page) then some e else best) none

/-! Bindings and signals. -/

/-- Write an address into the first word of a bound stream descriptor, bits 55:0 (R277 step 2). -/
def State.writeBinding (s : State) (e : PEntry) (j a : Nat) : State :=
  if PEntry.bindValid e j then { s with tiers := s.tiers.nearWrite (PEntry.bindOff e j) (natLe 7 a) } else s

/-- Bind an entry to its home copy, and `Wᵀ` to an address that faults (R278 step 3). -/
def State.bindHome (s : State) (e : PEntry) : State :=
  let t := PEntry.td e
  let dead := s.ownId * 2 ^ 45 + regBase
  (((s.writeBinding e 0 t.base).writeBinding e 1 t.scaleBase).writeBinding e 2 dead).writeBinding e 3 dead

/-- Add 1 to `CTR` of every logical core in `CMASK`, as a `SIGNAL` with `AFTER` does (R277 step 3). -/
def State.pacerSignal (s : State) (e : PEntry) : State :=
  if PEntry.sen e then
    { s with signals := s.signals ++ ((List.range 128).filter fun i => (PEntry.cmask e).testBit i).map fun i =>
        ⟨136, i, PEntry.ctr e, 1, true, none⟩ }
  else s

/-! Promotion (R276, R277). -/

/-- The home spans of an entry: region, address, length. -/
def homeSpans (e : PEntry) : List (Nat × Nat × Nat) :=
  let t := PEntry.td e
  (0, t.base, t.footprint) :: (if t.bs = 0 then [] else [(1, t.scaleBase, t.scaleFootprint)])

/-- Ask the links or the host for the home spans that are not in the own outer tier. -/
def State.fetchHome (s : State) (i : Nat) (e : PEntry) : State :=
  (homeSpans e).foldl (fun s p => s.requestAt (.pacer (2 * i + p.1)) s.pacerCtx (s.target p.2.1 p.2.2) p.2.2 none) s

/-- Start promoting an entry at page k (R276, R269). -/
def State.startPromotion (s : State) (i : Nat) (e : PEntry) (k : Nat) : State :=
  let n := entryPages e
  let pin := PEntry.pin e && s.tiers.pinnedPages + n ≤ 1536
  let t := if PEntry.pin e && !pin then s.countReg 0x40 0x32C 1 else s
  let u := (t.setPages k n ⟨2, s.pacerCtx, 0⟩).onPacer fun p =>
    { p with entry := p.entry + 1, waiting := none,
             promoting := p.promoting ++ [⟨i, e, k, n, entryWPages e, pin, false, false, false, false⟩] }
  u.fetchHome i e

/-- No run of pages is free: wait, and evict one entry unless an eviction is under way (R276 step 3, R271). -/
def State.makeRoom (s : State) : State :=
  let t := s.onPacer fun p => { p with waiting := some (p.waiting.getD (s.dev.time, false)) }
  if s.tiers.pacer.resident.any (·.leaving) then t
  else match s.victim with
  | none => t
  | some v =>
    (t.onPacer fun p => { p with resident := p.resident.map fun e =>
        if e.idx = v.idx then { e with leaving := true, evicted := true } else e }).countReg 0x40 0x328 1

/-- `FIRST` of the entry before entry i. -/
def State.prevFirst (s : State) (i : Nat) : Nat :=
  if i = 0 then 0 else match s.pacerEntry (i - 1) with | some x => PEntry.first x | none => 0

/-- The walk at entry i, which is not resident (R274, R276). -/
def State.walkEntry (s : State) (p : Pacer) (i : Nat) (e : PEntry) : State :=
  if s.entryBad s.pacerCtx (s.prevFirst i) e then s.pacerFault
  else if p.cursor + fld (s.reg 0x40 0x300) 11 8 < PEntry.first e then s
  else if PEntry.last e < p.cursor && PEntry.last e != 0xFFFF then
    (((s.onPacer fun p => { p with entry := p.entry + 1, waiting := none }).bindHome e).pacerSignal e).countReg 0x40 0x318 1
  else
    match s.tiers.allocate (if PEntry.slv e then some (PEntry.slice e) else none) (entryPages e) with
    | none => s.makeRoom
    | some k => s.startPromotion i e k

/-- The walk at entry i. An entry whose copies are there, or on their way, is not moved again (R276). -/
def State.walkAt (s : State) (p : Pacer) (i : Nat) : State :=
  if !s.pacerOn || p.stopped || p.ending || 4 ≤ p.promoting.length || fld (s.reg 0x40 0x30C) 15 0 ≤ i then s
  else
    match (p.promoting ++ p.resident).find? (·.idx = i) with
    | some e => if e.leaving then s else s.onPacer fun p => { p with entry := p.entry + 1, waiting := none }
    | none =>
      match s.pacerEntry i with
      | none => s.pacerFault
      | some e => s.walkEntry p i e

/-- One step of the walk (R274, R276, R279). -/
def State.pacerWalk (s : State) : State := s.walkAt s.tiers.pacer s.tiers.pacer.entry

/-- Bytes of a home span and whether they are poisoned, once they are there: from the own outer tier, or from the
transaction. The code is 0, or the fault the transfer ended with. -/
def State.homeBytes (s : State) (i : Nat) (p : Nat × Nat × Nat) : Option (List Byte × Nat) :=
  match s.target p.2.1 p.2.2 with
  | .outer l => if s.tiers.repairing l p.2.2 then none else some (s.tiers.outerBytes l p.2.2, 0)
  | _ =>
    match s.txns.find? fun t => t.client = .pacer (2 * i + p.1) && !t.write with
    | none => none
    | some t => if t.done then some (t.bytes, t.status) else none

/-- Poisoned blocks of an own outer span, as spans of the copy: offset, length. -/
def State.badSpans (s : State) (a n : Nat) : List (Nat × Nat) :=
  match s.target a n with
  | .outer l =>
    ((blocksOf l n).filter fun b => mapPoison (s.tiers.mapOf b)).map fun b =>
      let lo := max l (4096 * b)
      (lo - l, min (l + n) (4096 * b + 4096) - lo)
  | _ => []

/-- Read w bits at a bit address of a byte bank. -/
def bankBits (m : Store Byte) (bitAddr w : Nat) : Nat :=
  leNat ((List.range (spanBytes bitAddr w)).map fun i => Store.get 0 m (bitAddr / 8 + i)) / 2 ^ (bitAddr % 8) % 2 ^ w

/-- Replace w bits at a bit address of a byte bank. -/
def bankSetBits (m : Store Byte) (bitAddr w v : Nat) : Store Byte :=
  let n := spanBytes bitAddr w
  let old := leNat ((List.range n).map fun i => Store.get 0 m (bitAddr / 8 + i))
  let lo := old % 2 ^ (bitAddr % 8)
  let hi := old / 2 ^ (bitAddr % 8 + w)
  putBytes m (bitAddr / 8) (natLe n (lo + v % 2 ^ w * 2 ^ (bitAddr % 8) + hi * 2 ^ (bitAddr % 8 + w)))

/-- Every index (b, r, c) of a tensor. -/
def Tensor.indices (t : Tensor) : List (Nat × Nat × Nat) :=
  ((List.range (t.batchM1 + 1)).map fun b => (regionCells 0 t.rows 0 t.cols).map fun q => (b, q.1, q.2)).flatten

/-- Drop the bytes of a span: they read 0. -/
def dropSpan (m : Store Byte) (a n : Nat) : Store Byte := m.filter fun x => x.1 < a || a + n ≤ x.1

/-- Write `Wᵀ` from `W` in the near tier (R110): u is the transposed tensor; a word whose source is uncorrectable is
uncorrectable too. -/
def Tiers.transpose (x : Tiers) (t u : Tensor) : Tiers :=
  let w := t.fmt.width
  t.indices.foldl (fun x q =>
    let a := t.elemBit q.1 q.2.1 q.2.2
    let b := u.elemBit q.1 q.2.2 q.2.1
    let bad := x.nearBad (a / 8) (spanBytes a w)
    { x with near := bankSetBits x.near b w (bankBits x.near a w),
             nearPoison := if bad then markWords x.nearPoison true (wordsOf (b / 8) (spanBytes b w)) else x.nearPoison }) x

/-- Write the scales of `Wᵀ` from those of `W` (R110). -/
def Tiers.transposeScales (x : Tiers) (t u : Tensor) : Tiers :=
  ((List.range (t.batchM1 + 1)).map fun b => (regionCells 0 t.gridRows 0 t.gridCols).map fun q => (b, q.1, q.2)).flatten
    |>.foldl (fun x q =>
      let a := t.scaleBase + q.1 * t.gridPitch + q.2.1 * t.gridCols + q.2.2
      let b := u.scaleBase + q.1 * u.gridPitch + q.2.2 * u.gridCols + q.2.1
      { x with near := Store.set 0 x.near b (Store.get 0 x.near a),
               nearPoison := if x.nearBad a 1 then markWords x.nearPoison true (wordsOf b 1) else x.nearPoison }) x

/-- Write the copies of an entry into its pages (R276 step 1, R110, R283). -/
def State.writeCopies (s : State) (e : PacerEntry) (xs : List ((Nat × Nat × Nat) × List Byte × Nat)) : State :=
  let base := 0x200000 * e.page
  let clean := { s.tiers with
    near := dropSpan s.tiers.near base (0x200000 * e.pages),
    nearPoison := s.tiers.nearPoison.filter fun x => 8 * x.1 < base || base + 0x200000 * e.pages ≤ 8 * x.1 }
  let t := xs.foldl (fun (t : Tiers) x =>
    let off := base + regionOff e.bits x.1.1
    let t1 := { t with near := putBytes t.near off x.2.1 }
    if x.2.2 = 5 then t1.nearSpoil off x.1.2.2
    else (s.badSpans x.1.2.1 x.1.2.2).foldl (fun t q => t.nearSpoil (off + q.1) q.2) t1) clean
  let w := { PEntry.td e.bits with base := base, scaleBase := base + regionOff e.bits 1 }
  let u := { w.transposed with base := base + regionOff e.bits 2, scaleBase := base + regionOff e.bits 3 }
  let t := if PEntry.trans e.bits then
      (let t1 := t.transpose w u
       if w.bs = 0 then t1 else t1.transposeScales w u)
    else t
  { s with tiers := t }

/-- Charge the reads of an entry's own outer spans (R266). -/
def State.chargeHome (s : State) (e : PEntry) : State :=
  (homeSpans e).foldl (fun s p =>
    match s.target p.2.1 p.2.2 with
    | .outer l => s.chargeRead .read l p.2.2
    | _ => s) s

def State.dropPacerTxns (s : State) (i : Nat) : State :=
  { s with txns := s.txns.filter fun t => t.client != .pacer (2 * i) && t.client != .pacer (2 * i + 1) || t.write }

/-- Complete the first promotion (R277): copies, bindings, signals. A home copy that its device refuses is an entry that
R112 does not allow: its pages are given back and the walk stops at it (R274). -/
def State.promoted (s : State) (e : PacerEntry) (xs : List ((Nat × Nat × Nat) × List Byte × Nat)) : State :=
  let base := s.ownId * 2 ^ 45 + nearBase + 0x200000 * e.page
  let t := (s.onPacer fun p => { p with promoting := p.promoting.drop 1 }).dropPacerTxns e.idx
  if xs.any fun x => x.2.2 != 0 && x.2.2 != 5 then
    ((t.setPages e.page e.pages PoolPage.free).onPacer fun p => { p with entry := e.idx, waiting := none }).pacerFault
  else
    let t := (t.writeCopies e xs).chargeHome e.bits
    let t := (List.range 4).foldl (fun t j => t.writeBinding e.bits j (base + regionOff e.bits j)) t
    let t := t.pacerSignal e.bits
    let t := t.onPacer fun p => { p with resident := p.resident ++ [e] }
    if PEntry.first e.bits ≤ s.tiers.pacer.cursor then t.countReg 0x40 0x314 1 else t

/-! Demotion (R278). -/

/-- Is a demotion of an entry due? -/
def State.demotionDue (s : State) (e : PacerEntry) : Bool :=
  e.leaving || s.tiers.pacer.ending || (PEntry.last e.bits != 0xFFFF && PEntry.last e.bits < s.tiers.pacer.cursor)

/-- Write bytes of the near tier at an offset to a home outside the device. A block of it that would take an uncorrectable
word is marked poisoned and not written (R267, log 24). -/
def State.writeAway (s : State) (cl : Client) (off : Nat) (x : Target) (bs : List Byte) : State :=
  if !s.tiers.nearBad off bs.length then s.requestAt cl s.pacerCtx x bs.length (some bs)
  else (splitBlocks x.away.2 bs).foldl (fun t q =>
    let k := q.2.1 - x.away.2
    if s.tiers.nearBad (off + k) q.2.2.length then t.emit (.poison x.away.1 q.2.1)
    else t.requestAt cl s.pacerCtx (x.plus k) q.2.2.length (some q.2.2)) s

/-- Write a span of an entry's copy back to its home (R278 step 1); a block that takes an uncorrectable word is poisoned
(R267). -/
def State.writeHome (s : State) (e : PacerEntry) (p : Nat × Nat × Nat) : State :=
  let off := 0x200000 * e.page + regionOff e.bits p.1
  let bs := s.tiers.nearBytes off p.2.2
  match s.target p.2.1 p.2.2 with
  | .outer l =>
    let t := (s.writeOuter .write l bs).1
    ((blocksOf l p.2.2).filter fun b =>
        let lo := max l (4096 * b)
        s.tiers.nearBad (off + (lo - l)) (min (l + p.2.2) (4096 * b + 4096) - lo)).foldl State.poisonBlock t
  | x => s.writeAway (.pacer (2 * e.idx + p.1)) off x bs

/-- A run's last entry is gone: the Pacer stops, and the pinned pages of its run are freed, none of them held (R280,
R270). -/
def State.pacerFinish (s : State) : State :=
  let p := s.tiers.pacer
  if p.ending && p.promoting = [] && p.resident = [] && !s.pagesHeld s.pacerCtx 1 then
    ((s.freeHeldFor s.pacerCtx 1).onPacer fun p => { p with ending := false, stopped := false, waiting := none }).setRegBit 0x40 0x300 31 false
  else s

/-- Are answers to an entry's write-back still to come? -/
def State.awaitsHome (s : State) (e : PacerEntry) : Bool :=
  s.waitingOn fun c => c = .pacer (2 * e.idx) || c = .pacer (2 * e.idx + 1)

/-- The write-back of an entry is over: its bindings turn to the home copy and its pages are freed (R278 steps 2 to 4). -/
def State.demoted (s : State) (e : PacerEntry) : State :=
  let t := s.bindHome e.bits
  let t := (t.setPages e.page e.pages PoolPage.free).onPacer fun p =>
    { p with resident := p.resident.filter fun x => x.idx != e.idx }
  t.settle.pacerFinish

/-- Demote an entry none of whose pages is held (R278). A write-back that goes to another device holds the pages until it is
answered (R270). -/
def State.demote (s : State) (e : PacerEntry) : State :=
  let t := if PEntry.wback e.bits && e.written && !e.backing then (homeSpans e.bits).foldl (fun t p => t.writeHome e p) s else s
  if t.awaitsHome e then
    t.onPacer fun p => { p with resident := p.resident.map fun x => if x.idx = e.idx then { x with backing := true } else x }
  else t.demoted e

/-- Is a write-back held on a block under repair? -/
def State.homeHeld (s : State) (e : PacerEntry) : Bool :=
  PEntry.wback e.bits && e.written && (homeSpans e.bits).any fun p =>
    match s.target p.2.1 p.2.2 with
    | .outer l => s.tiers.repairing l p.2.2
    | _ => false

/-- The hurdle that the Pacer follows opens a new generation: its context must own it (R275). -/
def State.pacerAdvance (s : State) (h : Nat) : State :=
  if s.pacerOn && fld (s.reg 0x40 0x300) 21 16 = h && (s.claims s.pacerCtx).hurdles.contains h then s.onPacer fun p => { p with cursor := min 0xFFFF (p.cursor + 1) }
  else s

/-- The cursor returns to 0: entries with a last use are demoted and the walk restarts (R275). -/
def State.pacerHome (s : State) : State :=
  let go := fun (e : PacerEntry) => if PEntry.last e.bits = 0xFFFF then e else { e with leaving := true }
  if s.pacerOn then
    s.onPacer fun p => { p with
      cursor := 0, entry := 0, waiting := none, promoting := p.promoting.map go, resident := p.resident.map go }
  else s

/-- The run that holds the Pacer ends (R280). -/
def State.pacerEnd (s : State) : State := (s.onPacer fun p => { p with ending := true }).pacerFinish

/-! Commands. -/

/-- PACER_PROMOTE (R276). -/
def execPacerPromote (s : State) : Host.Outcome State Fault Refusal := .next s.pacerWalk

/-- PROMOTION_COMPLETE (R277): entries complete in list order. -/
def execPromotionComplete (entry : BitVec 16) (s : State) : Host.Outcome State Fault Refusal :=
  .next (match s.tiers.pacer.promoting with
    | [] => s
    | e :: _ =>
      if e.idx != entry.toNat then s else
      let xs := (homeSpans e.bits).map fun p => (p, s.homeBytes e.idx p)
      if xs.any fun x => x.2.isNone then s
      else s.promoted e (xs.filterMap fun x => x.2.map fun y => (x.1, y)))

/-- PACER_DEMOTE (R278). -/
def execPacerDemote (entry : BitVec 16) (s : State) : Host.Outcome State Fault Refusal :=
  .next (match s.tiers.pacer.resident.find? (·.idx = entry.toNat) with
    | none => s
    | some e => if s.demotionDue e && !s.entryHeld e && !s.homeHeld e then s.demote e else s)

/-- PACER_STALL (R279). -/
def execPacerStall (s : State) : Host.Outcome State Fault Refusal :=
  .next (match s.tiers.pacer.waiting with
    | some (t, false) =>
      if t + 10000000 ≤ s.dev.time then
        ((s.onPacer fun p => { p with waiting := some (t, true) }).countReg 0x40 0x31C 1).raise 0x40 3
      else s
    | _ => s)

/-- HOST_WINDOW_ACCESS (R93-R95): `origin` is the device and tag of an access that came over the links; the row names no
context, so its answer carries context 0. -/
def execHostWindowAccess (addr : BitVec 37) (len : Nat) (data : Option (List Byte))
    (origin : Option (BitVec 11 × BitVec 12)) (s : State) : Host.Outcome State Fault Refusal :=
  let cl := match origin with | none => Client.bus | some o => .relay o.1 o.2 0
  let n := match data with | none => len | some bs => bs.length
  .next (if n = 0 then s
    else if hostSize < addr.toNat + n then
      (match origin with
        | none => s.emit (.readReply [] 4)
        | some o => s.respond data.isSome o.1.toNat 0 o.2.toNat 4)
    else (s.requestAt cl 0 (.host addr.toNat) n data).settle)

/-- A write of `HBR_XLAT_INV` (R96). -/
def State.xlatInvWrite (s : State) (v : Word) : State :=
  { s with xlat := { s.xlat with busy := true, all := s.xlat.all || bit v 31,
                                 indexes := if bit v 31 then s.xlat.indexes else s.xlat.indexes ++ [fld v 15 0] } }

/-- HBR_XLAT_INV (R96). -/
def execHbrXlatInv (r : Requester) (v : Word) (s : State) : Host.Outcome State Fault Refusal :=
  .next (s.onWrite r pgHbr 0x208 fun s => s.xlatInvWrite v)

/-- XLAT_INV_DONE (R96). -/
def execXlatInvDone (s : State) : Host.Outcome State Fault Refusal :=
  .next (if s.xlat.busy then
    { s with xlat :=
        { cache := if s.xlat.all then [] else s.xlat.cache.filter fun e => !s.xlat.indexes.contains e.1,
          busy := false, all := false, indexes := [] } }
    else s)

/-- HOST_READ_COMPLETION (R95): data of the oldest part still to come, or the code that the read ends with. -/
def execHostReadCompletion (tag : Nat) (status : HostStatus) (data : List Byte) (s : State) :
    Host.Outcome State Fault Refusal :=
  .next (match s.txns.find? fun t => t.tag = tag && t.dst = 2048 && !t.done && !t.write with
    | none => s
    | some t =>
      let got := (t.parts.map fun p => p.2.length).sum
      let f := fun (t : Txn) => match status with
        | .ok => { t with parts := t.parts ++ [(t.addr + got, data)], done := t.len ≤ got + data.length }
        | .poisoned => { t with done := true, status := 5 }
        | _ => { t with done := true, status := 4 }
      (s.onTxn tag f).settle)

end Sys2Proof.Machine
end

