-- ==== Sys2Proof/Machine/Seq.lean ====
section
/-!
DEFINITION. The sequencer: fetch, issue, loops, and the control descriptors (05 R121-R137).
-/
namespace Sys2Proof.Machine

/-! Fetch. -/

/-- A fetched descriptor, or the fault of its fetch (R119, R121). -/
inductive Fetch where
  | desc (d : Desc)
  | fault (f : FaultAt)

/-- Fetch descriptor n of the list of a core. Past descriptor 1,048,575, of which R121 says nothing, the fetch faults as one
outside the tiers does (log 76). -/
def State.fetchAt (s : State) (c : Core) (n : Nat) : Fetch :=
  let a := c.seq.base + 64 * n
  if c.seq.baseSpd then
    if 2 ^ 20 ≤ n || outsideSpd a 64 then .fault ⟨.tensorBounds, a, true⟩
    else if c.spdPoison a 64 then .fault ⟨.poisonInput, a, true⟩
    else .desc (bitsOf 512 (c.bytes a 64))
  else if 2 ^ 20 ≤ n || a < nearBase || nearBase + nearSize < a + 64 then .fault ⟨.tensorBounds, s.ownAddr a, false⟩
  else if !s.mayNear c.ctx (a - nearBase) 64 then .fault ⟨.contextViolation, s.ownAddr a, false⟩
  else if s.tiers.nearBad (a - nearBase) 64 then .fault ⟨.poisonInput, s.ownAddr a, false⟩
  else .desc (bitsOf 512 (s.tiers.nearBytes (a - nearBase) 64))

/-! Loops (R133). -/

/-- The place after descriptor n, with the loop stack (innermost level last) after every return and pop: `fuel` bounds
the levels. -/
def loopNext : Nat → Nat → List LoopLevel → Nat × List LoopLevel
  | 0, n, ls => (n, ls)
  | f + 1, n, ls =>
    match ls.getLast? with
    | none => (n, ls)
    | some l =>
      if l.start + l.body != n then (n, ls)
      else if l.index + 1 < l.iter then (l.start, ls.dropLast ++ [{ l with index := l.index + 1 }])
      else loopNext f n ls.dropLast

/-- Move past the descriptor at the cursor; a `LOOP` that is issued pushes its level. A level that is popped keeps no
words (log 76). -/
def Sequencer.advance (q : Sequencer) (push : Option LoopLevel) : Sequencer :=
  let r := match push with
    | some l => (q.cursor + 1, q.loops ++ [l])
    | none => loopNext 5 (q.cursor + 1) q.loops
  { q with
    cursor := r.1, loops := r.2
    spare := if push.isSome then Store.set LoopLevel.zero q.spare q.loops.length LoopLevel.zero else q.spare }

/-- The level that a `LOOP` at index n pushes (R132). -/
def loopLevel (d : Desc) (n : Nat) : LoopLevel := ⟨dfld d 8 9 0, n + 1, dfld d 8 31 16, 0⟩

/-! Issue (R122). -/

/-- May the core issue at all: its list runs, nothing stops it, and its island is on? -/
def State.mayIssue (s : State) (n : Nat) : Bool :=
  let q := (s.core n).seq
  s.power.mod = 2 && s.present (pgCore n) && s.enabled (pgCore n) && s.island (pgCore n) = 0 &&
    q.st = .running && !q.faultStop && !q.reqStop && !q.abandoning

/-- The run's key for a stream set (R83). -/
def State.keyOf (s : State) (ctx stream : Nat) : BitVec 128 :=
  match (s.claims ctx).keys.find? fun k => k.1 = stream / 2 ^ 24 % 256 with
  | some k => k.2
  | none => 0

/-- `STEP` and `MB` of a draw (R82). -/
def State.drawPlace (s : State) (ctx : Nat) : Nat × Nat :=
  if (s.claims ctx).sch then
    ((s.reg pgSch 0x104).toNat, if s.slotIsOpen then (match s.sch.order[s.sch.slot]? with | some x => x.mb | none => 0) else 0)
  else (match s.run ctx with | some r => r.stepno | none => 0, 0)

/-- What a descriptor of a core sees (R82-R84, R126). -/
def State.env (s : State) (n : Nat) : Env :=
  let c := s.core n
  let p := s.drawPlace c.ctx
  { loops := c.seq.loops, free := s.free,
    draw := fun stream dr elem => stride (strideCounter stream p.1 p.2 dr elem) (s.keyOf c.ctx stream) }

/-- Does a descriptor still take a place in its engine? The array and the bank unit pass one on before it completes
(R122, R166). -/
def InFlight.holdsPlace (e : InFlight) (clk : Nat) : Bool :=
  e.incomplete && ((e.unit != 1 && e.unit != 5) || clk < e.slot.frees)

/-- Has an engine room: each holds one executing descriptor and one waiting one (R122, R166, R231)? The sequencer and the
ring descriptors take no engine room. -/
def Core.room (c : Core) (unit : Nat) : Bool :=
  unit = 0 || unit = 6 || (c.seq.window.filter fun e => e.unit = unit && e.holdsPlace c.clk).length < 2

/-- The phase rule (R140). -/
def Sequencer.phaseOk (q : Sequencer) (cls : Nat) : Bool :=
  if cls = 1 then q.phase != 2 else if cls = 2 then q.phase != 1 else true

/-- How a kind of descriptor issues: its opcode, its unit (0 sequencer, 1 array, 2 VXE, 3 ROW, 4 STU, 5 bank unit, 6
STU ring), its phase class, what else it waits for, its faults at issue, and what it does. `act` gets the serial. -/
structure Kind where
  code : Nat
  unit : Nat
  cls : Nat
  bank : Desc → Option (Nat × Nat)
  ready : State → Nat → Desc → Bool
  faults : State → Nat → Desc → List FaultAt
  act : State → Nat → Nat → Desc → State × EntryState × List FaultAt
  /-- when it runs, as far as the model follows it (log 76) -/
  slot : State → Nat → Desc → Slot := fun s n _ => let t := (s.core n).clk; ⟨t, t, t, 0, 0⟩
  /-- the bytes that it leaves undefined where it is cancelled after it began (R178) -/
  spoils : State → Nat → Desc → List Nat := fun _ _ _ => []

/-- The descriptor that an issue command may take. Its contents are read as it issues, so one written while its list
runs has its new contents from then on (R124 allows either; log 76). -/
def State.issuable (s : State) (n : Nat) (k : Kind) : Option Desc :=
  let c := s.core n
  if !s.mayIssue n then none else
  match s.fetchAt c c.seq.cursor with
  | .fault _ => none
  | .desc d =>
    if Dsc.opcode d = k.code && (!Dsc.wen d || reached (c.depCtr (Dsc.wctr d)) (Dsc.wval d)) && c.seq.inflight < 8 &&
        c.room k.unit && c.seq.phaseOk k.cls && k.ready s n d then some d else none

/-- Record an issued descriptor; the mark of its walk goes with it. -/
def Core.pushEntry (c : Core) (e : InFlight) : Core :=
  { c with seq := { c.seq with window := c.seq.window ++ [e], serial := c.seq.serial + 1, walk := c.seq.walk.drop 1 } }

/-- The descriptor at the cursor, 0 where its fetch fails. -/
def State.cursorDesc (s : State) (c : Core) : Desc := match s.fetchAt c c.seq.cursor with | .desc d => d | .fault _ => 0

/-- Pass the descriptor at the cursor as one that is complete: it keeps its place in the issue order, so that a second stop
counts from the right one (R145, R146). -/
def State.passOver (s : State) (c : Core) (push : Option LoopLevel) : Core :=
  let c1 := c.pushEntry ⟨c.seq.serial, c.seq.cursor, s.cursorDesc c, 0, 0, c.seq.loops, none, .done, [], s.dev.time,
    ⟨c.clk, c.clk, c.clk, 0, 0⟩, []⟩
  { c1 with seq := c1.seq.advance push }

/-- Walk over descriptors marked complete before the stop; a `LOOP` among them pushes again (R146). `fuel` bounds the
marks. -/
def State.walkOn (s : State) : Nat → Core → Core
  | 0, c => c
  | f + 1, c =>
    match c.seq.walk with
    | true :: _ =>
      s.walkOn f (s.passOver c (if Dsc.opcode (s.cursorDesc c) = 2 then some (loopLevel (s.cursorDesc c) c.seq.cursor) else none))
    | _ => c

/-- The entry of the descriptor at the cursor. -/
def State.entryOf (s : State) (n : Nat) (k : Kind) (d : Desc) (st : EntryState) (fs : List FaultAt) : InFlight :=
  let q := (s.core n).seq
  ⟨q.serial, q.cursor, d, k.unit, k.cls, q.loops, k.bank d, st, fs, s.dev.time, k.slot s n d,
    if st = .cancelled then k.spoils s n d else []⟩

/-- Move past the descriptor that was issued, and over those marked complete. -/
def State.moveOn (s : State) (n : Nat) (push : Option LoopLevel) : State :=
  s.onCore n fun c =>
    let c1 := { c with seq := c.seq.advance push }
    s.walkOn c1.seq.walk.length c1

/-- Issue the descriptor at the cursor: a fault at issue stops further issue and leaves nothing written (R142, R143). -/
def State.issue (s : State) (n : Nat) (k : Kind) (push : Desc → Nat → Option LoopLevel) : State :=
  match s.issuable n k with
  | none => s
  | some d =>
    let fs := k.faults s n d
    if fs != [] then
      s.onCore n fun c =>
        let c1 := c.pushEntry (s.entryOf n k d .faulted fs)
        { c1 with seq := { c1.seq with faultStop := true } }
    else
      let q := (s.core n).seq
      let r := k.act s n q.serial d
      let t := (r.1.onCore n fun c => c.pushEntry (s.entryOf n k d r.2.1 r.2.2)).moveOn n (push d q.cursor)
      if k.cls = 0 then t else t.rebalance (n / 4)

/-- No loop level is pushed. -/
def noPush (_ : Desc) (_ : Nat) : Option LoopLevel := none

/-! Control descriptors (R132-R137). -/

/-- Faults that every control descriptor checks: `fs` are its fields (R125-R127, R132). -/
def ctlFaults (c : Core) (d : Desc) (fs : List Field) (bad : Bool) : List FaultAt :=
  faultIf (commonBad d c.seq.loops fs [] false || bad) (.plain .badDescriptor)

/-- A control descriptor that waits for nothing. -/
def ctlKind (code : Nat) (faults : State → Nat → Desc → List FaultAt) (act : State → Nat → Nat → Desc → State) : Kind :=
  { code := code, unit := 0, cls := 0, bank := fun _ => none, ready := fun _ _ _ => true, faults := faults,
    act := fun s n k d => (act s n k d, .run, []) }

def nopKind : Kind := ctlKind 0 (fun s n d => ctlFaults (s.core n) d [] false) (fun s _ _ _ => s)

/-- Is every issued descriptor complete? -/
def Core.allEnded (c : Core) : Bool := c.seq.window.all fun e => !e.incomplete

def haltKind : Kind :=
  { ctlKind 1 (fun s n d => ctlFaults (s.core n) d [(8, 15, 0)] false) (fun s _ _ _ => s) with
    ready := fun s n _ => (s.core n).allEnded }

/-- HALT completes as it issues (R134): the code is copied, the list is HALTED, `SEN` counts, list-done is raised. -/
def State.issueHalt (s : State) (n : Nat) : State :=
  match s.issuable n haltKind with
  | none => s
  | some d =>
    if haltKind.faults s n d != [] then s.issue n haltKind noPush
    else
      (s.onCore n fun c =>
        let c1 := if Dsc.sen d then c.addDep (Dsc.sctr d) 1 else c
        { c1 with seq := { c1.seq with haltCode := dfld d 8 15 0, st := .halted, window := [], walk := [],
                                       serial := c1.seq.serial + 1 } }).raise (pgCore n) 0

def loopKind : Kind :=
  ctlKind 2 (fun s n d =>
    let q := (s.core n).seq
    ctlFaults (s.core n) d [(8, 9, 0), (8, 31, 16)]
      (dfld d 8 9 0 = 0 || dfld d 8 31 16 = 0 || 4 ≤ q.loops.length ||
        match q.loops.getLast? with
        | none => false
        | some l => l.start + l.body < q.cursor + 1 + dfld d 8 9 0))
    (fun s _ _ _ => s)

def waitKind : Kind :=
  { ctlKind 3 (fun s n d => ctlFaults (s.core n) d [(8, 0, 0)] false) (fun s _ _ _ => s) with
    ready := fun s n d => !dbit d 8 0 || (s.core n).allEnded }

/-- May a signal be sent: every descriptor ahead of it has completed (R130)? -/
def State.signalFree (s : State) (g : Signal) : Bool :=
  match g.src with
  | none => true
  | some (n, k) =>
    let q := (s.core n).seq
    k ≤ q.serial && q.window.all fun e => k ≤ e.serial || e.st = .done

/-- Send signals: they stand in the order in which they are sent, so one that still waits behind descriptors of its core
stands behind those that its core has sent since (R20, R130). -/
def State.sendSignals (s : State) (gs : List Signal) : State :=
  gs.foldl (fun s g =>
    let old := s.signals.map fun h => if s.signalFree h then { h with src := none } else h
    let ahead := fun (h : Signal) => h.sender != g.sender || h.src.isNone || g.src.isSome
    { s with signals := old.takeWhile ahead ++ g :: old.dropWhile ahead }) s

/-- Does an earlier signal of the same sender to the same receiver come first (R20)? -/
def State.signalBehind (s : State) (n : Nat) (g : Signal) : Bool :=
  (s.signals.take n).any fun h => h.sender = g.sender && h.lcore = g.lcore

/-- Does a logical core belong to a run context (R27, R135)? -/
def State.lcoreIn (s : State) (l ctx : Nat) : Bool := let c := s.core (s.siteOf l); c.ctxValid && c.ctx = ctx

def signalKind : Kind :=
  ctlKind 4 (fun s n d => ctlFaults (s.core n) d [(8, 6, 0), (8, 12, 8), (8, 31, 16)] false ++
      faultIf (!s.lcoreIn (dfld d 8 6 0) (s.core n).ctx) (.plain .contextViolation))
    (fun s n k d => s.sendSignals
      [⟨n, dfld d 8 6 0, dfld d 8 11 8, dfld d 8 31 16, dbit d 8 12, if dbit d 8 12 then some (n, k) else none⟩])

/-- A signal arrives, and wakes an island in RETENTION (R128, R135, R461). -/
def State.deliver (s : State) (g : Signal) : State :=
  (s.onCore (s.siteOf g.lcore) fun c => c.addDep g.ctr g.add).thawPage (pgCore (s.siteOf g.lcore))

/-- A hurdle by number. -/
def State.hurdleOf (s : State) (h : Nat) : Hurdle := Store.get Hurdle.reset s.sch.hurdles h

def State.setHurdle (s : State) (h : Nat) (x : Hurdle) : State :=
  { s with sch := { s.sch with hurdles := Store.set Hurdle.reset s.sch.hurdles h x } }

/-- Record a core's arrival (R136): the entry waits for the release; an arrival that the hurdle knows from before a
timeout is not counted again, and is complete where its generation has been released since. -/
def State.arrive (s : State) (h l : Nat) : State × EntryState :=
  let x := s.hurdleOf h
  if x.arrived.contains l then (s.setHurdle h { x with late := x.late.filter (· != l) }, .wait)
  else if x.late.contains l then (s.setHurdle h { x with late := x.late.filter (· != l) }, .run)
  else (s.setHurdle h { x with arrived := x.arrived ++ [l] }, .wait)

def hurdleKind : Kind :=
  { code := 5, unit := 0, cls := 0, bank := fun _ => none, ready := fun s n _ => (s.core n).allEnded,
    faults := fun s n d =>
      let x := s.hurdleOf (dfld d 8 5 0)
      let l := s.lcoreOf n
      ctlFaults (s.core n) d [(8, 5, 0), (8, 31, 16)] false ++
        (if !x.valid then [.plain .badDescriptor]
         else if x.ctx != (s.core n).ctx then [.plain .contextViolation]
         else faultIf (match l with | some i => !x.cmask.getLsbD i | none => true) (.plain .badDescriptor)),
    act := fun s n _ d =>
      let r := s.arrive (dfld d 8 5 0) ((s.lcoreOf n).getD 128)
      (r.1, r.2, []) }

def eventKind : Kind :=
  ctlKind 8 (fun s n d => ctlFaults (s.core n) d [(8, 0, 0), (8, 31, 16)] false)
    (fun s n _ d => (s.onCore n fun c => { c with seq := { c.seq with eventCode := dfld d 8 31 16 } }).raise (pgCore n)
      (2 + dfld d 8 0 0))

/-- Have the earlier descriptors that count in a slot completed (R137)? -/
def Core.slotQuiet (c : Core) (slot : Nat) : Bool :=
  c.seq.window.all fun e => !(e.incomplete && Dsc.hen e.desc && Dsc.hslot e.desc = slot)

def histCfgKind : Kind :=
  { ctlKind 9 (fun s n d => ctlFaults (s.core n) d [(8, 5, 0), (8, 24, 16)] false)
      (fun s n _ d => s.onCore n fun c =>
        let k := dfld d 8 3 0
        let c1 := if dbit d 8 4 then c.histClear k else c
        if dbit d 8 5 then { c1 with histBase := Store.set (-40) c1.histBase k (signedOf 9 (dfld d 8 24 16)) } else c1) with
    ready := fun s n d => (s.core n).slotQuiet (dfld d 8 3 0) }

/-- Add the 68 counts of an image into another with saturation; `CONFIG` and the rest stay (R80, R137). -/
def mergeImage (dst src : List Byte) : List Byte :=
  ((List.range 68).map fun i =>
    natLe 4 (satAdd32 (leNat ((dst.drop (4 * i)).take 4)) (leNat ((src.drop (4 * i)).take 4)))).flatten ++ dst.drop 272

/-- Where the image goes. -/
def histDest (d : Desc) : Bool × Nat := (dbit d 0x10 63, dfld d 0x10 55 0)

def histStoreFaults (s : State) (n : Nat) (d : Desc) : List FaultAt :=
  let t := histDest d
  ctlFaults (s.core n) d [(8, 5, 0), (0x10, 63, 63), (0x10, 55, 0)] (t.2 % 64 != 0) ++
    (if t.2 % 64 != 0 then []
     else if t.1 then faultIf (outsideSpd t.2 320) ⟨.tensorBounds, t.2, true⟩
     else match s.spanFault (s.core n).ctx t.2 320 true with
      | some f => [⟨f, t.2, false⟩]
      | none => [])

/-- Take the image, and clear the slot where the descriptor says so. -/
def histTake (c : Core) (d : Desc) : List Byte × Core :=
  let k := dfld d 8 3 0
  (c.histImage k, if dbit d 8 5 then c.histClear k else c)

/-- Undefined bytes where a merge met a word or a block that cannot be read: what is marked stays marked (R143, R282). -/
def State.spoilImage (s : State) (n : Nat) (d : Desc) : State :=
  let t := histDest d
  let f := s.freeBytes 320
  if t.1 then f.2.onCore n fun c => c.putBytes t.2 f.1
  else match s.target t.2 320 with
    | .near o => { f.2 with tiers := { f.2.tiers with near := putBytes f.2.tiers.near o f.1 } }
    | .outer l =>
      ((splitBlocks l f.1).filter fun p => !mapPoison (s.tiers.mapOf p.1)).foldl
        (fun s p => (s.writeOuter .write p.2.1 p.2.2).1) f.2
    | _ => s

/-- Store or merge the image: at once in SPD or in the own tiers, by transactions elsewhere. -/
def histStoreAct (s : State) (n serial : Nat) (d : Desc) : State × EntryState × List FaultAt :=
  let t := histDest d
  let r := histTake (s.core n) d
  let merge := dbit d 8 4
  let s1 := s.setCore n r.2
  if t.1 then
    if merge && r.2.spdPoison t.2 320 then (s1.spoilImage n d, .run, [⟨.poisonInput, t.2, true⟩])
    else (s.setCore n (r.2.write t.2 (if merge then mergeImage (r.2.bytes t.2 320) r.1 else r.1)), .run, [])
  else match s1.target t.2 320 with
    | .near o =>
      if merge && s1.tiers.nearBad o 320 then (s1.spoilImage n d, .run, [⟨.poisonInput, t.2, false⟩])
      else
        let img := if merge then mergeImage (s1.tiers.nearBytes o 320) r.1 else r.1
        ({ s1 with tiers := s1.tiers.nearWrite o img }, .run, [])
    | .outer l =>
      if s1.tiers.poisoned l 320 then (s1.spoilImage n d, .run, [⟨.poisonInput, t.2, false⟩])
      else
        let img := if merge then mergeImage (s1.tiers.outerBytes l 320) r.1 else r.1
        ((s1.writeOuter .write l img).1, .run, [])
    | x =>
      if merge then
        ((s1.onCore n fun c => { c with images := c.images ++ [(serial, r.1)] }).requestAt (.store n serial)
          (s.core n).ctx x 320 none, .wait, [])
      else (s1.requestAt (.store n serial) (s.core n).ctx x 320 (some r.1), .wait, [])

/-- Is a merge into this image of another memory under way on this device? Its read and its write are two transactions,
and a merge is indivisible (R137). -/
def State.merging (s : State) (a : Nat) : Bool :=
  s.txns.any fun x => x.addr < a + 320 && a < x.addr + x.len &&
    match x.client with
    | .store n k => (s.core n).seq.window.any fun e => e.serial = k && e.incomplete
    | _ => false

def histStoreKind : Kind :=
  { code := 0xA, unit := 0, cls := 0, bank := fun _ => none,
    ready := fun s n d => (s.core n).slotQuiet (dfld d 8 3 0) &&
      (match s.target (histDest d).2 320 with
       | .outer l => (histDest d).1 || !s.tiers.repairing l 320
       | .far _ a => (histDest d).1 || !s.merging a
       | .host o => (histDest d).1 || !(s.merging o || s.merging (hostBase + o))
       | _ => true),
    faults := histStoreFaults, act := histStoreAct }

/-! Commands. -/

/-- NOP (R132). -/
def execNop (site : Fin 136) (s : State) : Host.Outcome State Fault Refusal := .next (s.issue site.val nopKind noPush)

/-- HALT (R134). -/
def execHalt (site : Fin 136) (s : State) : Host.Outcome State Fault Refusal := .next (s.issueHalt site.val)

/-- LOOP (R133). -/
def execLoop (site : Fin 136) (s : State) : Host.Outcome State Fault Refusal :=
  .next (s.issue site.val loopKind fun d n => some (loopLevel d n))

/-- WAIT (R128, R132). -/
def execWait (site : Fin 136) (s : State) : Host.Outcome State Fault Refusal := .next (s.issue site.val waitKind noPush)

/-- SIGNAL (R130, R135). -/
def execSignal (site : Fin 136) (s : State) : Host.Outcome State Fault Refusal :=
  .next (s.issue site.val signalKind noPush)

/-- SIGNAL_DELIVERY (R20, R128, R130, R135): signal n of those on their way. -/
def execSignalDelivery (n : Nat) (s : State) : Host.Outcome State Fault Refusal :=
  .next (match s.signals[n]? with
    | none => s
    | some g => if s.signalFree g && !s.signalBehind n g then { s with signals := s.signals.eraseIdx n }.deliver g else s)

/-- HURDLE (R136). -/
def execHurdle (site : Fin 136) (s : State) : Host.Outcome State Fault Refusal :=
  .next (s.issue site.val hurdleKind noPush)

/-- EVENT (R150). -/
def execEvent (site : Fin 136) (s : State) : Host.Outcome State Fault Refusal := .next (s.issue site.val eventKind noPush)

/-- HIST_CFG (R132, R137). -/
def execHistCfg (site : Fin 136) (s : State) : Host.Outcome State Fault Refusal :=
  .next (s.issue site.val histCfgKind noPush)

/-- HIST_STORE (R132, R137). -/
def execHistStore (site : Fin 136) (s : State) : Host.Outcome State Fault Refusal :=
  .next (s.issue site.val histStoreKind noPush)

end Sys2Proof.Machine
end

