-- ==== Sys2Proof/Machine/Bucket.lean ====
section
/-!
DEFINITION. Gradient buckets: records, member and matrix tables, shards, state slots, reduction records, and the checks
that `HVU_CTRL.EN` makes (11 R287-R293, R305, 12 R331).
-/
namespace Sys2Proof.Machine

/-! Bucket records (R287). -/

/-- A bucket record: 128 bytes, little-endian. -/
abbrev Bucket := BitVec 1024

namespace Bk
def cls (d : Bucket) : Nat := dfld d 0 63 62
def mfmt (d : Bucket) : Nat := dfld d 0 61 60
def wfmt (d : Bucket) : Nat := dfld d 0 59 58
def gf16 (d : Bucket) : Bool := dbit d 0 57
def uclip (d : Bucket) : Bool := dbit d 0 56
def scale (d : Bucket) : Nat := dfld d 0 55 48
def aexp (d : Bucket) : Int := signedOf 8 (dfld d 0 47 40)
/-- `SCALE_GROWTH_STEPS`: 0 stands for 2,000. -/
def growth (d : Bucket) : Nat := if dfld d 0 31 16 = 0 then 2000 else dfld d 0 31 16
def clean (d : Bucket) : Nat := dfld d 0 15 0
def cexp (d : Bucket) : Nat := dfld d 8 63 48
def contrib (d : Bucket) : Nat := dfld d 8 47 32
def skips (d : Bucket) : Nat := dfld d 8 31 0
def nmat (d : Bucket) : Nat := dfld d 0x10 63 48
def mat (d : Bucket) : Nat := dfld d 0x10 44 0
def nmem (d : Bucket) : Nat := dfld d 0x18 63 56
def rank (d : Bucket) : Nat := dfld d 0x18 55 48
def hist (d : Bucket) : Nat := dfld d 0x18 44 0
def smap (d : Bucket) : Nat := dfld d 0x20 44 0
def lr (d : Bucket) : Nat := dfld d 0x28 63 32
def wd (d : Bucket) : Nat := dfld d 0x28 31 0
def b1 (d : Bucket) : Nat := dfld d 0x30 63 32
def b2 (d : Bucket) : Nat := dfld d 0x30 31 0
def eps (d : Bucket) : Nat := dfld d 0x38 63 32
def clipd (d : Bucket) : Nat := dfld d 0x38 31 0
def gmul (d : Bucket) : Nat := dfld d 0x40 63 32
def npatch (d : Bucket) : Nat := dfld d 0x40 31 16
def patch (d : Bucket) : Nat := dfld d 0x48 44 0
def slot (d : Bucket) : Nat := dfld d 0x50 63 48
def lap (d : Bucket) : Nat := dfld d 0x50 31 0
/-- 0 `OPEN`, 1 `READY`, 2 `VERDICT`, 3 `UPDATING`, 4 `PUBLISH`, 5 `DONE`, 6 `FAULT`. -/
def state (d : Bucket) : Nat := dfld d 0x58 63 60
def rlap (d : Bucket) : Nat := dfld d 0x58 31 0
def digest (d : Bucket) : Nat := dfld d 0x60 63 0
def mismatch (d : Bucket) : Nat := dfld d 0x68 63 32
end Bk

/-- Matrix-table entry (R289). -/
structure Matrix where
  rows : Nat
  cols : Nat
  w : Nat
  g : Nat
  deriving DecidableEq, Repr

/-! The registers of HVU 0 (R311). -/

def State.hvuOn (s : State) : Bool := s.regsUp && s.enabled (pgHvu 0) && bit (s.reg (pgHvu 0) 0x100) 31
def State.hvuCtx (s : State) : Nat := fld (s.reg (pgHvu 0) 0x100) 30 28
/-- A local address held in a register pair, `lo` its first offset. -/
def State.addrPair (s : State) (p lo : Nat) : Nat := fld (s.reg p (lo + 4)) 12 0 * 2 ^ 32 + (s.reg p lo).toNat
def State.bktBase (s : State) : Nat := s.addrPair (pgHvu 0) 0x104
def State.bktCount (s : State) : Nat := fld (s.reg (pgHvu 0) 0x10C) 12 0
def State.slotBytes (s : State) : Nat := fld (s.reg (pgHvu 0) 0x118) 15 0 * 0x200000
def State.slotCount (s : State) : Nat := fld (s.reg (pgHvu 0) 0x118) 31 16
def State.slotAddr (s : State) (i : Nat) : Nat := s.addrPair (pgHvu 0) 0x110 + i * s.slotBytes
def State.lap (s : State) : Nat := (s.reg pgSch 0x104).toNat

/-- The record of bucket b. -/
def State.bucket (s : State) (b : Nat) : Bucket := bitsOf 1024 (s.tiers.localBytes (s.bktBase + 128 * b) 128)

/-- Write n bytes at offset `off` of a record. -/
def State.putBucket (s : State) (b off n v : Nat) : State := s.localWrite (s.bktBase + 128 * b + off) (natLe n v)

/-- Every write of the record by the HVU leaves the lap in `RLAP` (R287). -/
def State.putRlap (s : State) (b : Nat) : State := s.putBucket b 0x58 4 (s.reg pgSch 0x104).toNat

/-- A step of an update writes `STATE` with the lap in `RLAP` (R287, R301). -/
def State.stepState (s : State) (b st fcode : Nat) : State :=
  s.putBucket b 0x58 8 (st * 2 ^ 60 + fcode * 2 ^ 52 + (s.reg pgSch 0x104).toNat)

/-- Device ID of member k (R288). -/
def State.member (s : State) (d : Bucket) (k : Nat) : Nat := s.tiers.localNum (Bk.smap d + 2 * k) 2 % 2048

/-- The other members in the order `RANK` + 1, `RANK` + 2 … mod n (R332, R336). -/
def others (d : Bucket) : List Nat := (List.range (Bk.nmem d - 1)).map fun i => (Bk.rank d + 1 + i) % Bk.nmem d

/-- Entry j of the matrix table, as it stands. -/
def State.matBits (s : State) (d : Bucket) (j : Nat) : BitVec 256 := bitsOf 256 (s.tiers.localBytes (Bk.mat d + 32 * j) 32)

def Matrix.ofBits (m : BitVec 256) : Matrix := ⟨dfld m 0 23 0, dfld m 0 47 24, dfld m 8 44 0, dfld m 0x10 44 0⟩

/-- The matrices of a bucket, in index order. -/
def State.matrices (s : State) (d : Bucket) : List Matrix := (List.range (Bk.nmat d)).map fun j => Matrix.ofBits (s.matBits d j)

/-! Shards (R288). -/

/-- A square-tile tensor; a block-scaled one has `BS` 3, `SDIR` 0, `KAXIS` 1 and its grid at the next 4 KiB boundary
(R289). -/
def squareTensor (code rows cols base : Nat) : Tensor :=
  let t : Tensor := { spd := false, base := base, scaleBase := 0, fmtCode := code, cols := cols, rows := rows, sdir := 0,
                      bs := if code = 3 then 3 else 0, pitch := 0, kaxis := code = 3, layout := 0, batchM1 := 0,
                      bstride := 0, resv := false }
  { t with scaleBase := roundUp (base + t.footprint) 4096 }

/-- Format codes of `W` and `G`, and of the moment. -/
def wCode (d : Bucket) : Nat := Bk.wfmt d + 1
def gCode (d : Bucket) : Nat := if Bk.gf16 d then 2 else 1
def mCode (d : Bucket) : Nat := if Bk.mfmt d = 1 then 1 else 3

def wTensor (d : Bucket) (m : Matrix) : Tensor := squareTensor (wCode d) m.rows m.cols m.w
def gTensor (d : Bucket) (m : Matrix) : Tensor := squareTensor (gCode d) m.rows m.cols m.g

/-- Tile rows of matrix j that member k owns: first, and one past the last. -/
def ownTiles (d : Bucket) (k j : Nat) (m : Matrix) : Nat × Nat :=
  let t := cdiv m.rows 64
  if Bk.cls d = 2 then (if j % Bk.nmem d = k then (0, t) else (0, 0))
  else (k * t / Bk.nmem d, (k + 1) * t / Bk.nmem d)

/-- Rows of matrix j that member k owns within `ROWS`: first, and one past the last. -/
def ownRows (d : Bucket) (k j : Nat) (m : Matrix) : Nat × Nat :=
  let t := ownTiles d k j m
  (64 * t.1, max (64 * t.1) (min m.rows (64 * t.2)))

/-- Address and length of a tensor's tile rows. -/
def tileRowSpan (t : Tensor) (q : Nat × Nat) : Nat × Nat :=
  let n := cdiv t.cols 64 * t.tileBytes
  (t.base + q.1 * n, (q.2 - q.1) * n)

/-- Address and length of the grid rows of the scales of rows (R305). -/
def gridSpan (t : Tensor) (rows : Nat × Nat) : Nat × Nat :=
  let g := (rows.1 / t.rowDiv, cdiv rows.2 t.rowDiv)
  (t.scaleBase + g.1 * t.gridCols, if rows.2 ≤ rows.1 then 0 else (g.2 - g.1) * t.gridCols)

/-- Matrices with their indexes. -/
def State.indexed (s : State) (d : Bucket) : List (Nat × Matrix) := (s.matrices d).zipIdx.map fun x => (x.2, x.1)

/-- Spans that are not empty. -/
def realSpans (xs : List (Nat × Nat)) : List (Nat × Nat) := xs.filter fun x => x.2 != 0

/-- Spans of the rows of shard k in `G`, in the order of R305. -/
def State.gSpans (s : State) (d : Bucket) (k : Nat) : List (Nat × Nat) :=
  realSpans ((s.indexed d).map fun x => tileRowSpan (gTensor d x.2) (ownTiles d k x.1 x.2))

/-- Spans of shard k in `W`: tile rows, then the grid rows of their scales (R305). -/
def State.wSpans (s : State) (d : Bucket) (k : Nat) : List (Nat × Nat) :=
  realSpans (((s.indexed d).map fun x => tileRowSpan (wTensor d x.2) (ownTiles d k x.1 x.2)) ++
    (if Bk.wfmt d = 2 then (s.indexed d).map fun x => gridSpan (wTensor d x.2) (ownRows d k x.1 x.2) else []))

def spansLen (xs : List (Nat × Nat)) : Nat := (xs.map (·.2)).sum

/-- Z of R331 for shard k: bytes of its tile rows in `G`. -/
def State.shardBytes (s : State) (d : Bucket) (k : Nat) : Nat := spansLen (s.gSpans d k)

/-- The bytes of some spans, one after another. -/
def State.spanBytesOf (s : State) (xs : List (Nat × Nat)) : List Byte :=
  (xs.map fun x => s.tiers.localBytes x.1 x.2).flatten

/-- The digest of shard k from this device's `W` (R305). -/
def State.digestOf (s : State) (d : Bucket) (k : Nat) : Quad :=
  let xs := s.wSpans d k
  if xs = [] then 0 else crc64 (s.spanBytesOf xs)

/-- Write +0 codes over some spans, in whole blocks (R332 step 6, R334). -/
def State.zeroSpans (s : State) (xs : List (Nat × Nat)) : State :=
  xs.foldl (fun s x => s.localWrite x.1 (List.replicate x.2 0)) s

/-! State slots (R290). -/

/-- Where the parts of matrix j lie in a slot: master, moment, row and column vectors, as offsets. -/
structure SlotPart where
  idx : Nat
  mat : Matrix
  master : Nat
  moment : Nat
  rvec : Nat
  cvec : Nat
  deriving DecidableEq, Repr

/-- Bytes of a tensor with its scales, from its base. -/
def tensorSpan (t : Tensor) : Nat := if t.bs = 0 then t.footprint else t.scaleBase + t.scaleFootprint - t.base

/-- Owned rows in number. -/
def ownedRows (d : Bucket) (k j : Nat) (m : Matrix) : Nat := (ownRows d k j m).2 - (ownRows d k j m).1

/-- One matrix's parts from an offset on, and the end of the last. -/
def slotPart (d : Bucket) (off j : Nat) (m : Matrix) : SlotPart × Nat :=
  let n := ownedRows d (Bk.rank d) j m
  let a := roundUp off 4096
  let e1 := a + (squareTensor 0 n m.cols a).footprint
  let b := roundUp e1 4096
  let e2 := if Bk.mfmt d = 0 then e1 else b + tensorSpan (squareTensor (mCode d) n m.cols b)
  let r := roundUp e2 4096
  let c := roundUp (r + 4 * m.rows) 4096
  (⟨j, m, a, b, r, c⟩, if Bk.cls d = 2 then c + 4 * m.cols else e2)

/-- Every part of a bucket's slot, and its length. -/
def State.slotLayout (s : State) (d : Bucket) : List SlotPart × Nat :=
  (s.indexed d).foldl (fun x q =>
    if ownedRows d (Bk.rank d) q.1 q.2 = 0 then x else
      let p := slotPart d x.2 q.1 q.2
      (x.1 ++ [p.1], p.2)) ([], 4096)

/-- Slots that no bucket names (R290). -/
def State.spareSlot (s : State) : Option Nat :=
  let used := (List.range s.bktCount).map fun b => Bk.slot (s.bucket b)
  (List.range s.slotCount).find? fun i => !used.contains i

/-- `STAMP` of a slot, all 8 bytes: bits 63:32 of a good one are 0 (R290). -/
def State.stampOf (s : State) (i : Nat) : Nat := s.tiers.localNum (s.slotAddr i) 8

/-- Bucket number in the header of a slot. -/
def State.slotOwner (s : State) (i : Nat) : Nat := s.tiers.localNum (s.slotAddr i + 8) 8

/-- The spare slot that an update of a bucket has begun to write and left (R303). -/
def State.heldSpare (s : State) (b : Nat) : Option Nat :=
  let used := (List.range s.bktCount).map fun b => Bk.slot (s.bucket b)
  (List.range s.slotCount).find? fun i => !used.contains i && s.stampOf i = 0xFFFFFFFF && s.slotOwner i = b

/-! Reduction records (R331). -/

def State.redAddr (s : State) (b : Nat) : Nat := s.addrPair pgSch 0x12C + 32 * b

def State.red (s : State) (b : Nat) : BitVec 256 := bitsOf 256 (s.tiers.localBytes (s.redAddr b) 32)

namespace Rd
def stage (d : BitVec 256) : Nat := dfld d 0 44 0
def owncnt (d : BitVec 256) : Nat := dfld d 8 63 48
def carried (d : BitVec 256) : Nat := dfld d 8 47 32
def wd (d : BitVec 256) : Bool := dbit d 8 2
def closed (d : BitVec 256) : Bool := dbit d 8 1
def isLocal (d : BitVec 256) : Bool := dbit d 8 0
def present (d : BitVec 256) : Nat := dfld d 0x10 63 0
def replied (d : BitVec 256) : Nat := dfld d 0x18 63 0
end Rd

/-- Write one of the four words of a reduction record. -/
def State.putRed (s : State) (b i v : Nat) : State := s.localWrite (s.redAddr b + 8 * i) (natLe 8 v)

/-- Write the counts and flags of a reduction record. -/
def State.putRedFlags (s : State) (b owncnt carried : Nat) (wd closed isLocal : Bool) : State :=
  s.putRed b 1 (owncnt * 2 ^ 48 + carried * 2 ^ 32 + 4 * wd.toNat + 2 * closed.toNat + isLocal.toNat)

/-! The checks of R291. -/

/-- Is an FP32 code finite, and does it lie in [0, 1]? -/
def f32Finite (c : Nat) : Bool := (val32 c).finite
def f32Unit (c : Nat) : Bool := f32Finite c && !(val32 c).lt .zero && !Val.one.lt (val32 c)
def f32Pos (c : Nat) : Bool := f32Finite c && Val.zero.lt (val32 c)

/-- Fields of a record that break R287. -/
def bucketBad (d : Bucket) : Bool :=
  Bk.cls d = 3 || Bk.mfmt d = 3 || Bk.wfmt d = 3 || (Bk.mfmt d = 0 && Bk.cls d != 2) || (Bk.uclip d && Bk.cls d != 2) ||
  Bk.scale d = 0xFF || dfld d 0 39 32 != 0 || Bk.cexp d = 0 || Bk.nmat d = 0 || dfld d 0x10 47 45 != 0 ||
  Bk.mat d % 64 != 0 || Bk.nmem d = 0 || 64 < Bk.nmem d || Bk.nmem d ≤ Bk.rank d || dfld d 0x18 47 45 != 0 ||
  Bk.hist d % 64 != 0 || dfld d 0x20 63 45 != 0 || dfld d 0x40 15 0 != 0 || dfld d 0x48 63 45 != 0 ||
  Bk.patch d % 8 != 0 || (Bk.npatch d != 0 && (Bk.patch d < nearBase || nearBase + nearSize < Bk.patch d + 8 * Bk.npatch d)) ||
  dfld d 0x50 47 32 != 0 || 6 < Bk.state d || dfld d 0x58 51 32 != 0 || dfld d 0x68 31 0 != 0 || dfld d 0x70 63 0 != 0 ||
  dfld d 0x78 63 0 != 0 ||
  !(f32Finite (Bk.lr d) && f32Finite (Bk.wd d) && f32Unit (Bk.b1 d) && f32Unit (Bk.b2 d) && f32Finite (Bk.gmul d)) ||
  (Bk.cls d = 2 && !f32Pos (Bk.eps d)) || (Bk.uclip d && !f32Pos (Bk.clipd d))

/-- A matrix-table entry that breaks R289. -/
def State.matrixBad (s : State) (d : Bucket) (x : BitVec 256) : Bool :=
  let m := Matrix.ofBits x
  let o := outerSize s.dev.variant
  dfld x 0 63 48 != 0 || m.rows = 0 || m.cols = 0 || dfld x 8 63 45 != 0 || m.w % 4096 != 0 || dfld x 0x10 63 45 != 0 ||
  m.g % 4096 != 0 || dfld x 0x18 63 0 != 0 || o < m.w + tensorSpan (wTensor d m) || o < m.g + (gTensor d m).footprint

/-- A bucket, or its tables, or its reduction record, that R291 or R331 refuses. -/
def State.bucketRefused (s : State) (b : Nat) : Bool :=
  let d := s.bucket b
  let r := s.red b
  bucketBad d || ((List.range (Bk.nmem d)).any fun k => 2048 ≤ s.tiers.localNum (Bk.smap d + 2 * k) 2) ||
  s.member d (Bk.rank d) != s.ownId || ((List.range (Bk.nmat d)).any fun j => s.matrixBad d (s.matBits d j)) ||
  s.slotBytes < (s.slotLayout d).2 || s.slotCount ≤ Bk.slot d || s.stampOf (Bk.slot d) != Bk.lap d ||
  s.slotOwner (Bk.slot d) != b || s.lap ≤ Bk.lap d || dfld r 0 63 45 != 0 || Rd.stage r % 4096 != 0 ||
  !s.mayOuter s.hvuCtx (Rd.stage r) (Bk.nmem d * s.shardBytes d (Bk.rank d)) true

/-- Do the checks of R291 fail? The records lie in the context's own outer tier (R287), and so do the reduction records
(R331). -/
def State.bucketsRefused (s : State) : Bool :=
  let n := s.bktCount
  n = 0 || 4096 < n || !s.mayOuter s.hvuCtx s.bktBase (128 * n) true || !s.mayOuter s.hvuCtx (s.redAddr 0) (32 * n) true ||
   s.slotCount < n + 1 || ((List.range n).any s.bucketRefused) ||
  ((List.range n).any fun b => (List.range b).any fun c => Bk.slot (s.bucket b) = Bk.slot (s.bucket c))

/-! What the HVUs reach beside gradients, weights and slots (R286, R310). -/

/-- May a context access a span at a local address (R27, R268)? -/
def State.mayLocal (s : State) (ctx a n : Nat) (write : Bool) : Bool :=
  if nearBase ≤ a then a + n ≤ nearBase + nearSize && s.mayNear ctx (a - nearBase) n else s.mayOuter ctx a n write

/-- The record, the matrix table, the member table and the histogram image of a bucket, and whether they are written. -/
def State.bucketTables (s : State) (b : Nat) (d : Bucket) : List (Nat × Nat × Bool) :=
  [(s.bktBase + 128 * b, 128, true), (Bk.mat d, 32 * Bk.nmat d, false), (Bk.smap d, 128, false), (Bk.hist d, 320, true)]

/-- The fault that an access to them ends with: `CONTEXT_VIOLATION` (R286) or `POISON_INPUT` (R310). -/
def State.tablesFault (s : State) (b : Nat) (d : Bucket) : Option Nat :=
  if (s.bucketTables b d).any fun x => !s.mayLocal s.hvuCtx x.1 x.2.1 x.2.2 then some 9
  else if (s.bucketTables b d).any fun x => s.tiers.localBad x.1 x.2.1 then some 5
  else none

/-- Charge a read at a local address (R266). -/
def State.chargeLocal (s : State) (a n : Nat) : State := if nearBase ≤ a then s else s.chargeRead .read a n

/-- Charge the reads of a bucket's tables (R286). -/
def State.chargeTables (s : State) (b : Nat) (d : Bucket) : State :=
  (s.bucketTables b d).foldl (fun s x => s.chargeLocal x.1 x.2.1) s

/-! The patch list (R292). -/

/-- The scale exponent that the drains of a bucket take, (`SCALE` − 127) − `AEXP`. -/
def patchExp (d : Bucket) : Int := (Bk.scale d : Int) - 127 - Bk.aexp d

/-- Write one patch entry. -/
def State.patchOne (s : State) (d : Bucket) (i : Nat) : State :=
  let e := s.tiers.localNum (Bk.patch d + 8 * i) 8
  if e < nearBase || nearBase + nearSize < e + 64 || e % 64 != 0 || s.tiers.localNum e 1 != 0x12 then s.countReg (pgHvu 0) 0x15C 1
  else s.localWrite (e + 0x22) [BitVec.ofInt 8 (patchExp d)]

/-- Write the patch words of every bucket: at run start and after each lap advance. -/
def State.writePatches (s : State) : State :=
  if !s.hvuOn then s else
  (List.range s.bktCount).foldl (fun s b =>
    let d := s.bucket b
    (List.range (Bk.npatch d)).foldl (fun s i => s.patchOne d i) s) s

/-! Batons (R322-R324): sending. -/

/-- Does a context hold the SCH, or the HVUs? -/
def State.holdsSch (s : State) (ctx : Nat) : Bool := (s.claims ctx).sch
def State.schOn (s : State) : Bool := s.regsUp && s.enabled pgSch && bit (s.reg pgSch 0x100) 31
def State.schCtx (s : State) : Nat := fld (s.reg pgSch 0x100) 30 28
def State.ctxEpoch (s : State) (ctx : Nat) : Nat := fld (s.reg pgSch (0x180 + 4 * ctx)) 7 0

/-- A baton of this device. -/
def State.newBaton (s : State) (type ctx dst arg pay : Nat) : Baton :=
  { type := BitVec.ofNat 8 type, epoch := BitVec.ofNat 8 (s.ctxEpoch ctx), ctx := BitVec.ofNat 3 ctx,
    src := BitVec.ofNat 11 s.ownId, dst := BitVec.ofNat 11 dst, seq := BitVec.ofNat 16 (Store.get 0 s.sch.sendNo dst),
    lap := if s.holdsSch ctx then s.reg pgSch 0x104 else 0xFFFFFFFF, arg := BitVec.ofNat 32 arg, pay := BitVec.ofNat 384 pay }

/-- The 64 bytes of a baton (R322). -/
def batonBytes (b : Baton) : List Byte :=
  natLe 8 (b.type.toNat * 2 ^ 56 + b.epoch.toNat * 2 ^ 48 + b.ctx.toNat * 2 ^ 45 + b.src.toNat * 2 ^ 32 +
    b.dst.toNat * 2 ^ 16 + b.seq.toNat) ++ natLe 8 (b.lap.toNat * 2 ^ 32 + b.arg.toNat) ++ natLe 48 b.pay.toNat

/-- The baton that 64 bytes spell. -/
def batonOf (bs : List Byte) : Baton :=
  let d : BitVec 512 := bitsOf 512 bs
  { type := BitVec.ofNat 8 (dfld d 0 63 56), epoch := BitVec.ofNat 8 (dfld d 0 55 48), ctx := BitVec.ofNat 3 (dfld d 0 47 45),
    src := BitVec.ofNat 11 (dfld d 0 42 32), dst := BitVec.ofNat 11 (dfld d 0 26 16), seq := BitVec.ofNat 16 (dfld d 0 15 0),
    lap := BitVec.ofNat 32 (dfld d 8 63 32), arg := BitVec.ofNat 32 (dfld d 8 31 0), pay := BitVec.ofNat 384 (fld d 511 128) }

/-- The packet that carries a baton (R398, R401). -/
def State.batonPacket (s : State) (b : Baton) : Packet :=
  { s.newPacket 0x10 3 b.dst.toNat b.ctx.toNat 0 0 (batonBytes b) with epoch := b.epoch }

/-- Does a route lead to a device? -/
def State.reaches (s : State) (dst : Nat) : Bool := s.routePorts dst != []

/-- Send a baton to another device; its send number advances (R324). -/
def State.launchBaton (s : State) (b : Baton) : State :=
  let d := b.dst.toNat
  let t := { s with sch := { s.sch with sendNo := Store.set 0 s.sch.sendNo d ((Store.get 0 s.sch.sendNo d + 1) % 65536) } }
  t.sendOwn (s.batonPacket b)

/-- A baton of the SCH or the HVUs to another device; one that ROUTE cannot deliver is not sent (R326). -/
def State.sendBaton (s : State) (type ctx dst arg pay : Nat) : State :=
  if s.reaches dst then s.launchBaton (s.newBaton type ctx dst arg pay)
  else (s.errSet pgSch 3).raise pgSch 2

end Sys2Proof.Machine
end

