-- ==== Sys2Proof/Machine/Harvest.lean ====
section
/-!
DEFINITION. The Harvest units: verdicts, the update passes, commit and publish, the buddy mirror and the reduce
pass (11 R286-R312, 12 R334, R336).
-/
namespace Sys2Proof.Machine

def State.onHvu (s : State) (f : Hvu → Hvu) : State := { s with hvu := f s.hvu }

def State.setJob (s : State) (j : Option HvuJob) : State := s.onHvu fun h => { h with job := j }

/-- The HVU page of HVU 0. -/
def pHvu : Nat := pgHvu 0

/-- A bucket enters `FAULT` (R300, R310, R312). -/
def State.bucketFault (s : State) (b code : Nat) : State :=
  ((((s.stepState b 6 code).setJob none).errSet pHvu 0).errCount pHvu 1).raise pHvu 0

/-- What follows unless a fault stops the bucket. -/
def State.unlessFault (s : State) (b : Nat) (f : Option Nat) (next : State) : State :=
  match f with
  | some c => s.bucketFault b c
  | none => next

/-! The buddy mirror (R307, R308). -/

def State.buddyOn (s : State) : Bool := bit (s.reg pHvu 0x11C) 31
def State.buddyDev (s : State) : Nat := fld (s.reg pHvu 0x11C) 10 0
def State.mirrorSlot (s : State) (i : Nat) : Nat := s.addrPair pHvu 0x120 + i * s.slotBytes
def State.mirrorRec (s : State) (i : Nat) : Nat := s.mirrorSlot (2 * s.bktCount) + 128 * i

/-- Which of a bucket's two copies holds the older value. -/
def olderCopy (m : Store Nat) (b : Nat) : Nat :=
  if Store.get 0 m (2 * b + 1) < Store.get 0 m (2 * b) then 2 * b + 1 else 2 * b

/-- Copy n bytes of the own outer tier to the buddy. -/
def State.mirror (s : State) (b src dst n : Nat) : State :=
  (s.chargeLocal src n).request (.buddy b) s.hvuCtx s.buddyDev dst n (some (s.tiers.localBytes src n))

/-- Write the record into the copy with the older `RLAP` (R307 step 5); the copy counts once it is acknowledged. -/
def State.mirrorRecord (s : State) (b : Nat) : State :=
  if !s.buddyOn then s else
  let i := olderCopy s.hvu.buddyLap b
  (s.mirror b (s.bktBase + 128 * b) (s.mirrorRec i) 128).onHvu fun h =>
    { h with lapSent := Store.set 0 h.lapSent i (Bk.rlap (s.bucket b) + 1) }

/-- Send the spare slot's bytes to the buddy slot with the older stamp, whose `STAMP` is first written as "being
written" (R307 steps 2 and 3); the header follows with the stamp. -/
def State.mirrorSpare (s : State) (b spare : Nat) : State :=
  if !s.buddyOn then s else
  let i := olderCopy s.hvu.buddyStamp b
  let n := (s.slotLayout (s.bucket b)).2
  let t := (s.mirror b (s.slotAddr spare) (s.mirrorSlot i) 64).onHvu fun h =>
    { h with buddyStamp := Store.set 0 h.buddyStamp i 0, stampSent := Store.set 0 h.stampSent i 0 }
  if n ≤ 4096 then t else t.mirror b (s.slotAddr spare + 4096) (s.mirrorSlot i + 4096) (n - 4096)

/-- Write the buddy slot's `STAMP`, with the rest of its header (R307 step 4), unless a write of the slot has failed. -/
def State.mirrorStamp (s : State) (b slot : Nat) : State :=
  if !s.buddyOn || s.hvu.snapLost.contains b then s else
  let i := olderCopy s.hvu.buddyStamp b
  (s.mirror b (s.slotAddr slot) (s.mirrorSlot i) 4096).onHvu fun h =>
    { h with stampSent := Store.set 0 h.stampSent i (s.stampOf slot + 1) }

/-- Are buddy writes of a bucket on their way? -/
def State.mirroring (s : State) (b : Nat) : Bool := s.txns.any fun t => t.client = .buddy b

/-- Does the buddy hold, or is it being sent, the stamp of a slot of a bucket? -/
def State.stamped (s : State) (b slot : Nat) : Bool :=
  [2 * b, 2 * b + 1].any fun i =>
    Store.get 0 s.hvu.buddyStamp i = s.stampOf slot + 1 || Store.get 0 s.hvu.stampSent i = s.stampOf slot + 1

/-- The snapshot of the lap is complete (R308). -/
def State.snapCheck (s : State) : State :=
  if s.buddyOn && (List.range s.bktCount).all (fun b =>
      Bk.state (s.bucket b) = 5 && !s.mirroring b && !s.hvu.snapLost.contains b) then
    s.setReg pHvu 0x130 (s.reg pgSch 0x104)
  else s

/-- A buddy write of bucket b has been acknowledged: a whole header makes its slot's stamp count, a record its copy. -/
def State.buddyHolds (s : State) (b : Nat) (t : Txn) : State :=
  [2 * b, 2 * b + 1].foldl (fun s i => s.onHvu fun h => { h with
    buddyStamp := if t.addr = s.mirrorSlot i && 4096 ≤ t.len then
      Store.set 0 h.buddyStamp i (Store.get 0 h.stampSent i) else h.buddyStamp
    buddyLap := if t.addr = s.mirrorRec i then Store.set 0 h.buddyLap i (Store.get 0 h.lapSent i) else h.buddyLap }) s

/-- The bucket of a buddy write. -/
def Txn.buddy (t : Txn) : Option Nat := match t.client with | .buddy b => some b | _ => none

/-- Take the buddy writes that have ended; one that failed makes the snapshot fail (R308). -/
def State.settleBuddy (s : State) : State :=
  let ended := s.txns.filterMap fun t => if t.done then t.buddy.map fun b => (b, t) else none
  let s1 := { s with txns := s.txns.filter fun t => t.buddy.isNone || !t.done }
  let lost := (ended.filter fun x => x.2.status != 0).map (·.1)
  let s2 := (ended.filter fun x => x.2.status = 0).foldl (fun s x => s.buddyHolds x.1 x.2) s1
  let s3 := if lost = [] then s2 else
    ((s2.onHvu fun h => { h with snapLost := (h.snapLost ++ lost).eraseDups }).errSet pHvu 2).raise pHvu 2
  (if s3.txns.any fun t => t.buddy.isSome then s3 else s3.onHvu fun h => { h with seeding := false }).snapCheck

/-- Copy every committed slot and record into copy 0 (R307 step 1). -/
def State.seedMirror (s : State) : State :=
  if !s.buddyOn then s else
  let t := (List.range s.bktCount).foldl (fun s b =>
    let d := s.bucket b
    let t := s.mirror b (s.slotAddr (Bk.slot d)) (s.mirrorSlot (2 * b)) (s.slotLayout d).2
    (t.mirror b (s.bktBase + 128 * b) (s.mirrorRec (2 * b)) 128).onHvu fun h =>
      { h with stampSent := Store.set 0 h.stampSent (2 * b) (Bk.lap d + 1),
               lapSent := Store.set 0 h.lapSent (2 * b) (Bk.rlap d + 1) }) s
  (t.onHvu fun h => { h with seeding := true }).settleBuddy

/-! Encoding a region (R299). -/

/-- Group the cells of a block-scaled tensor by block. -/
def blockKeys (t : Tensor) (cells : List (Nat × Nat × Val)) : List (Nat × Nat) :=
  (cells.map fun q => (q.1 / t.rowDiv, q.2.1 / t.colDiv)).eraseDups

/-- Codes of some elements, and the scale codes of their blocks, under RNE with `OVF` 0. -/
def encodeRegion (t : Tensor) (cells : List (Nat × Nat × Val)) : List (Nat × Nat × Enc) × List (Nat × Nat) :=
  if t.bs = 0 then (cells.map fun q => (q.1, q.2.1, encode t.fmt 0 0 0 q.2.2), [])
  else (blockKeys t cells).foldl (fun x k =>
    let mine := cells.filter fun q => q.1 / t.rowDiv = k.1 && q.2.1 / t.colDiv = k.2
    let p := encodeBlock t.fmt 0 0 (mine.map fun q => (0, q.2.2))
    (x.1 ++ (mine.zip p.2).map fun z => (z.1.1, z.1.2.1, z.2), x.2 ++ [(t.scaleBase + k.1 * t.gridCols + k.2, p.1)])) ([], [])

/-- A bank of bytes that holds the codes, and 0 elsewhere: padding is +0 (R104). -/
def imageOf (t : Tensor) (x : List (Nat × Nat × Enc) × List (Nat × Nat)) : Core :=
  let c := x.1.foldl (fun c q => c.setCode t 0 q.1 q.2.1 q.2.2.code) Core.reset
  x.2.foldl (fun c q => c.setByte q.1 (BitVec.ofNat 8 q.2)) c

/-- Write the bytes of some spans from an image. -/
def State.writeImage (s : State) (c : Core) (xs : List (Nat × Nat)) : State :=
  xs.foldl (fun s x => if x.2 = 0 then s else s.localWrite x.1 (c.bytes x.1 x.2)) s

/-- The outer tier as a bank that elements are read from. -/
def State.outerBank (s : State) : Core := { Core.reset with spd := s.tiers.outer }

/-! The update passes (R296-R300). -/

/-- The parameters of a bucket, with its quotients (R296). -/
def optParams (d : Bucket) : OptParams × Tally :=
  let q := fdiv32 .zero (.num false (Bk.cexp d) 0) (.num false (Bk.contrib d) 0)
  let o1 := fadd32 q.2 .one (val32 (Bk.b1 d)).neg
  let o2 := fadd32 o1.2 .one (val32 (Bk.b2 d)).neg
  ({ cls := Bk.cls d, scale := Bk.scale d, gmul := val32 (Bk.gmul d), q := q.1, lr := val32 (Bk.lr d), wd := val32 (Bk.wd d),
     b1 := val32 (Bk.b1 d), b2 := val32 (Bk.b2 d), omb1 := o1.1, omb2 := o2.1, eps := val32 (Bk.eps d),
     clipd := val32 (Bk.clipd d), uclip := Bk.uclip d, hasM := Bk.mfmt d != 0 }, o2.2)

/-- What the passes make of one matrix: new elements by local row and column, new vectors, whether R300 stops them, and
the roundings of each element and of the vectors. -/
structure PassOut where
  outs : List (Nat × Nat × OptOut)
  rvec : List Val
  cvec : List Val
  bad : Bool
  shared : Tally

/-- A list of FP32 values at an address. -/
def Core.vecAt (c : Core) (a n : Nat) : List Val := (List.range n).map fun i => val32 (c.num (a + 4 * i) 4)

/-- Run the passes over the owned part of a matrix; `slot` is the address of the committed slot. -/
def State.passMatrix (s : State) (d : Bucket) (p : OptParams) (slot : Nat) (x : SlotPart) : PassOut :=
  let bank := s.outerBank
  let lo := (ownRows d (Bk.rank d) x.idx x.mat).1
  let n := ownedRows d (Bk.rank d) x.idx x.mat
  let gT := gTensor d x.mat
  let wT := squareTensor 0 n x.mat.cols (slot + x.master)
  let mT := squareTensor (mCode d) n x.mat.cols (slot + x.moment)
  let grad := fun (i j : Nat) => gradOf p .zero (bank.value gT 0 (lo + i) j)
  let w := fun (i j : Nat) => bank.value wT 0 i j
  let m := fun (i j : Nat) => if p.hasM then bank.value mT 0 i j else Val.zero
  let cells := regionCells 0 n 0 x.mat.cols
  if p.cls = 2 then
    let v := factorPasses p (fun i j => (grad i j).1) (bank.vecAt (slot + x.rvec) x.mat.rows)
      (bank.vecAt (slot + x.cvec) x.mat.cols) x.mat.rows x.mat.cols .zero
    let outs := cells.map fun q => (q.1, q.2, factorElem p v (grad q.1 q.2).2 (grad q.1 q.2).1 (m q.1 q.2) (w q.1 q.2) q.1 q.2)
    ⟨outs, v.rn, v.cn, v.bad || outs.any (·.2.2.bad), v.t⟩
  else
    let outs := cells.map fun q =>
      let g := grad q.1 q.2
      (q.1, q.2, if p.cls = 0 then momentumSgd p g.2 g.1 (m q.1 q.2) (w q.1 q.2)
        else signMomentum p g.2 g.1 (m q.1 q.2) (w q.1 q.2))
    ⟨outs, [], [], outs.any (·.2.2.bad), .zero⟩

/-- Count roundings in an HVU page (R81). -/
def State.hvuTally (s : State) (g : Nat) (t : Tally) : State :=
  let s1 := if t.lost = 0 then s else s.countReg (pgHvu g) 0x160 t.lost
  if t.flush = 0 then s1 else s1.countReg (pgHvu g) 0x164 t.flush

/-- Group of a parameter: that of its gradient block (R286). -/
def State.paramGroup (s : State) (d : Bucket) (m : Matrix) (row col : Nat) : Nat :=
  s.groupOf ((gTensor d m).elemBit 0 row col / 8 / 4096)

/-- Which HVU counts the roundings of a bucket that belong to no parameter is not stated: a free value of the bucket and its
record names it, so that equal inputs count alike (R72). -/
def State.anyHvu (s : State) (b : Nat) (d : Bucket) : Nat :=
  if s.dev.variant = .l9HTA then 2 * (Config.sharedHvu b d % 2) else Config.sharedHvu b d % 4

/-- Write `W` over the owned rows of a matrix, and count its conversions (R299). -/
def State.writeW (s : State) (d : Bucket) (idx : Nat) (m : Matrix) (cells : List (Nat × Nat × Val)) : State :=
  let t := wTensor d m
  let rows := ownRows d (Bk.rank d) idx m
  let e := encodeRegion t (cells.map fun q => (rows.1 + q.1, q.2.1, q.2.2))
  let s1 := s.writeImage (imageOf t e)
    (tileRowSpan t (ownTiles d (Bk.rank d) idx m) :: (if t.bs = 0 then [] else [gridSpan t rows]))
  e.1.foldl (fun s q => s.hvuTally (s.paramGroup d m q.1 q.2.1) (Tally.zero.add q.2.2)) s1

/-- Write what the passes made of a matrix into the spare slot and `W` (R299). -/
def State.writePass (s : State) (d : Bucket) (spare : Nat) (x : SlotPart) (o : PassOut) : State :=
  let n := ownedRows d (Bk.rank d) x.idx x.mat
  let lo := (ownRows d (Bk.rank d) x.idx x.mat).1
  let wT := squareTensor 0 n x.mat.cols (spare + x.master)
  let mT := squareTensor (mCode d) n x.mat.cols (spare + x.moment)
  let s1 := s.writeImage (imageOf wT (encodeRegion wT (o.outs.map fun q => (q.1, q.2.1, q.2.2.w)))) [(wT.base, wT.footprint)]
  let s2 := if Bk.mfmt d = 0 then s1 else
    let e := encodeRegion mT (o.outs.map fun q => (q.1, q.2.1, q.2.2.m))
    e.1.foldl (fun s q => s.hvuTally (s.paramGroup d x.mat (lo + q.1) q.2.1) (Tally.zero.add q.2.2))
      (s1.writeImage (imageOf mT e) ((mT.base, mT.footprint) :: (if mT.bs = 0 then [] else [(mT.scaleBase, mT.scaleFootprint)])))
  let vec := fun (vs : List Val) => (vs.map fun v => natLe 4 (round32 v).code).flatten
  let s3 := if Bk.cls d = 2 then (s2.localWrite (spare + x.rvec) (vec o.rvec)).localWrite (spare + x.cvec) (vec o.cvec) else s2
  let s4 := s3.writeW d x.idx x.mat (o.outs.map fun q => (q.1, q.2.1, q.2.2.w))
  o.outs.foldl (fun s q =>
    let g := s.paramGroup d x.mat (lo + q.1) q.2.1
    (s.hvuTally g q.2.2.t).wrapReg (pgHvu g) 0x140 1) s4

/-- The spans that an update of a bucket reads and writes in the own outer tier. -/
def State.updateSpans (s : State) (d : Bucket) (spare : Nat) : List (Nat × Nat) :=
  let n := (s.slotLayout d).2
  [(s.slotAddr (Bk.slot d), n), (s.slotAddr spare, n)] ++ s.gSpans d (Bk.rank d) ++ s.wSpans d (Bk.rank d)

/-- The fault that stops an update before its passes: of its tables, then of its arrays (R286, R310). -/
def State.updateFault (s : State) (b : Nat) (d : Bucket) (spare : Nat) : Option Nat :=
  let n := (s.slotLayout d).2
  (s.tablesFault b d).or
    (if (s.updateSpans d spare).any fun x => !s.mayOuter s.hvuCtx x.1 x.2 true then some 9
    else if ((s.slotAddr (Bk.slot d), n) :: s.gSpans d (Bk.rank d)).any fun x => s.tiers.poisoned x.1 x.2 then some 5
    else none)

/-- Is a block that an update reads or writes under repair? -/
def State.updateHeld (s : State) (d : Bucket) (spare : Nat) : Bool :=
  (s.updateSpans d spare).any fun x => s.tiers.repairing x.1 x.2

/-- Charge the reads of the passes: the tables, `G` once for each pass, the slot once (R286, R302). -/
def State.chargePasses (s : State) (b : Nat) (d : Bucket) : State :=
  let passes := if Bk.cls d = 2 then (if Bk.uclip d then 3 else 2) else 1
  let s1 := (s.chargeTables b d).chargeRead .read (s.slotAddr (Bk.slot d)) (s.slotLayout d).2
  (List.range passes).foldl (fun s _ =>
    (s.gSpans d (Bk.rank d)).foldl (fun s x => s.chargeRead .read x.1 x.2) s) s1

/-- What the passes compute, part by part. -/
def State.passOuts (s : State) (d : Bucket) : List (SlotPart × PassOut) :=
  (s.slotLayout d).1.map fun x => (x, s.passMatrix d (optParams d).1 (s.slotAddr (Bk.slot d)) x)

/-- Write what the passes computed into the spare slot, the counters and `W`. -/
def State.writePasses (s : State) (b : Nat) (d : Bucket) (spare : Nat) (outs : List (SlotPart × PassOut)) : State :=
  outs.foldl (fun s x => s.writePass d (s.slotAddr spare) x.1 x.2) (s.chargePasses b d)

/-- Count what the parts share in one HVU, mirror the spare slot, and go on to the commit. A buddy that no route reaches
answers at once (R308). -/
def State.finishPasses (s : State) (j : HvuJob) (hvu : Nat) (tally : Tally) : State :=
  (((s.hvuTally hvu tally).mirrorSpare j.bucket j.spare).setJob (some { j with phase := 4 })).settleBuddy

/-- Step 3 of R301 for a bucket record. -/
def State.passesOf (s : State) (j : HvuJob) (d : Bucket) : State :=
  s.unlessFault j.bucket ((s.updateFault j.bucket d j.spare).or (if (s.passOuts d).any (·.2.bad) then some 8 else none))
    ((s.writePasses j.bucket d j.spare (s.passOuts d)).finishPasses j (s.anyHvu j.bucket d)
      ((s.passOuts d).foldl (fun t x => t.join x.2.shared) (optParams d).2))

/-- Step 3 of R301. -/
def State.runPasses (s : State) (j : HvuJob) : State := s.passesOf j (s.bucket j.bucket)

/-! Verdicts (R294, R295). -/

/-- 0 `CLEAN`, 1 `NONFINITE`, 2 `EMPTY`. -/
def State.ownVerdict (s : State) (d : Bucket) : Nat :=
  if Bk.contrib d = 0 then 2
  else if s.tiers.localNum (Bk.hist d + 0x100) 4 + s.tiers.localNum (Bk.hist d + 0x104) 4 != 0 then 1 else 0

/-- The verdicts of the other members that have come for a bucket. -/
def State.verdictsFor (s : State) (b : Nat) : List (Nat × Nat) :=
  s.hvu.verdicts.filterMap fun v => if v.1 = b then some v.2 else none

def combined (vs : List Nat) : Nat := if vs.contains 1 then 1 else if vs.contains 2 then 2 else 0

/-- May `SCALE` change by one, up or down (R295)? -/
def scaleFits (d : Bucket) (up : Bool) : Bool :=
  let n : Int := if up then Bk.scale d + 1 else (Bk.scale d : Int) - 1
  0 ≤ n && n ≤ 0xFE && -128 ≤ n - 127 - Bk.aexp d && n - 127 - Bk.aexp d ≤ 127

/-- Write `SCALE` and `CLEAN`, noting a change of scale (R333). -/
def State.putScale (s : State) (b sc clean : Nat) : State :=
  let d := s.bucket b
  let t := (s.putBucket b 6 1 sc).putBucket b 0 2 clean
  let x := { Store.get BktRun.reset t.sch.bkts b with scaleChanged := true }
  if sc = Bk.scale d then t else { t with sch := { t.sch with bkts := Store.set BktRun.reset t.sch.bkts b x } }

/-- Apply the combined verdict to the record (R295). A withheld growth leaves the count of clean steps rising. -/
def State.applyScale (s : State) (b v : Nat) : State :=
  let d := s.bucket b
  if v = 0 then
    let t := s.countReg pHvu 0x148 1
    if Bk.growth d ≤ Bk.clean d + 1 then
      if scaleFits d true then t.putScale b (Bk.scale d + 1) 0
      else (t.countReg pHvu 0x154 1).putScale b (Bk.scale d) (min 65535 (Bk.clean d + 1))
    else t.putScale b (Bk.scale d) (Bk.clean d + 1)
  else if v = 1 then
    let t := ((s.putBucket b 8 4 (satAdd32 (Bk.skips d) 1)).countReg pHvu 0x14C 1).raise pHvu 3
    if scaleFits d false then t.putScale b (Bk.scale d - 1) 0 else (t.countReg pHvu 0x154 1).putScale b (Bk.scale d) 0
  else s.countReg pHvu 0x150 1

/-- Release `G`: the owned rows are zeroed (R301, R334). -/
def State.releaseG (s : State) (b : Nat) : State :=
  let d := s.bucket b
  s.zeroSpans (s.gSpans d (Bk.rank d))

/-- The header of a slot (R290). -/
def State.writeHeader (s : State) (i b stamp : Nat) : State :=
  s.localWrite (s.slotAddr i) (natLe 8 stamp ++ natLe 8 b ++ List.replicate 4080 0)

/-- Steps 2 and 2′ of R301, once every verdict is present. -/
def State.verdictStep (s : State) : State :=
  match s.hvu.job with
  | none => s
  | some j =>
    let d := s.bucket j.bucket
    let vs := s.verdictsFor j.bucket
    if j.phase != 1 || j.interrupted || !((others d).all fun k => vs.any fun v => v.1 = k) then s
    else
      let v := combined (s.ownVerdict d :: vs.map (·.2))
      if v = 0 then
        match (s.heldSpare j.bucket).or s.spareSlot with
        | none => s
        | some i => ((s.stepState j.bucket 3 0).writeHeader i j.bucket 0xFFFFFFFF).setJob (some { j with phase := 3, spare := i })
      else
        (((((s.applyScale j.bucket v).releaseG j.bucket).stepState j.bucket 5 0).setJob none).mirrorRecord j.bucket).settleBuddy

/-- Send the own verdict to every other member. -/
def State.sendVerdict (s : State) (b : Nat) : State :=
  let d := s.bucket b
  (others d).foldl (fun s k =>
    s.sendBaton 9 s.hvuCtx (s.member d k) (s.ownVerdict d * 2 ^ 16 + b) (Bk.rank d * 2 ^ 16)) s

/-! Publishing (R301 steps 4 to 6, R336). -/

def gatherOf (b k : Nat) (t : Txn) : Bool := t.client = .gather b k

/-- A member's all-gather writes are acknowledged: `BKT_GATHER` (R336). -/
def State.gatherDone (s : State) (b k : Nat) : State :=
  if s.txns.any fun t => gatherOf b k t && (!t.done || t.status != 0) then s
  else
    let d := s.bucket b
    { s with txns := s.txns.filter fun t => !gatherOf b k t }.sendBaton 8 s.hvuCtx (s.member d k) b (Bk.rank d * 2 ^ 16)

/-- Write the owned rows of `W` into the `W` of each other member (R336). -/
def State.allGather (s : State) (b : Nat) : State :=
  let d := s.bucket b
  (others d).foldl (fun s k =>
    ((s.wSpans d (Bk.rank d)).foldl (fun s x =>
      (s.chargeLocal x.1 x.2).request (.gather b k) s.hvuCtx (s.member d k) x.1 x.2
        (some (s.tiers.localBytes x.1 x.2))) s).gatherDone b k) s

/-- The buddy's stamp, once its slot bytes are acknowledged, and the record (R307 steps 4 and 5). -/
def State.stampBuddy (s : State) (j : HvuJob) : State :=
  (((s.mirrorStamp j.bucket j.spare).mirrorRecord j.bucket).setJob (some { j with phase := 6 })).settleBuddy

/-- Step 5 of R301; one that is resumed does not stamp the buddy again (R303). -/
def State.publish (s : State) (j : HvuJob) : State :=
  let b := j.bucket
  let s1 := (s.stepState b 4 0).putBucket b 0x60 8 (s.digestOf (s.bucket b) (Bk.rank (s.bucket b))).toNat
  let s2 := s1.allGather b
  if j.phase = 6 then s2.setJob (some j)
  else if s2.mirroring b then s2.setJob (some { j with phase := 5 })
  else s2.stampBuddy j

/-- Step 4 of R301. -/
def State.commitBucket (s : State) (j : HvuJob) : State :=
  let b := j.bucket
  let s1 := s.localWrite (s.slotAddr j.spare) (natLe 8 s.lap)
  let s2 := s1.putBucket b 0x50 8 (j.spare * 2 ^ 48 + s.lap)
  ((s2.applyScale b 0).releaseG b).publish j

/-- Steps 5 and 6 of R301: the buddy's stamp once its slot bytes are acknowledged, then `DONE`. -/
def State.finishBucket (s : State) (j : HvuJob) : State :=
  let b := j.bucket
  if s.mirroring b then s
  else if j.phase = 5 then s.stampBuddy j
  else if s.txns.any fun t => match t.client with | .gather c _ => c = b | _ => false then s
  else (((s.stepState b 5 0).setJob none)).snapCheck

/-- Rewrite the owned rows of `W` from the committed master (R303). -/
def State.rewriteW (s : State) (b : Nat) : State :=
  let d := s.bucket b
  (s.slotLayout d).1.foldl (fun s x =>
    let n := ownedRows d (Bk.rank d) x.idx x.mat
    let wT := squareTensor 0 n x.mat.cols (s.slotAddr (Bk.slot d) + x.master)
    (s.chargeRead .read wT.base wT.footprint).writeW d x.idx x.mat
      ((regionCells 0 n 0 x.mat.cols).map fun q => (q.1, q.2, s.outerBank.value wT 0 q.1 q.2))) s

/-- Is a committed master poisoned? The HVU cannot read it (R310). -/
def State.masterBad (s : State) (b : Nat) : Bool :=
  s.tiers.poisoned (s.slotAddr (Bk.slot (s.bucket b))) (s.slotLayout (s.bucket b)).2

/-- Resume the publish of a bucket whose commit stands (R303): the gather writes begin again with `W`; buddy writes on
their way go on. -/
def State.resumePublish (s : State) (j : HvuJob) : State :=
  let t := { s with txns := s.txns.filter fun t => match t.client with | .gather c _ => c != j.bucket | _ => true }
  if t.masterBad j.bucket then t.bucketFault j.bucket 5 else (t.rewriteW j.bucket).publish { j with interrupted := false }

/-- A bucket in `FAULT` is queued again: for its reduce pass where that faulted, else for step 1; one that committed in this
lap resumes its publish when its turn comes (R303). -/
def State.requeueFault (s : State) (b : Nat) : State :=
  if Bk.state (s.bucket b) != 6 then s
  else if s.hvu.reduceQ.contains b then s.stepState b 0 0
  else (s.stepState b 1 0).onHvu fun h => { h with queue := h.queue ++ [b] }

/-- `REQUEUE` of R303. -/
def State.requeue (s : State) (b : Nat) : State :=
  match s.hvu.job with
  | some j =>
    if j.bucket = b then
      if !j.interrupted then s
      else if j.phase = 1 then ((s.setJob (some { j with interrupted := false })).sendVerdict b).verdictStep
      else if j.phase ≤ 4 then s.setJob (some { j with phase := 3, interrupted := false })
      else s.resumePublish j
    else s.requeueFault b
  | none => s.requeueFault b

/-- `ABANDON` of a bucket in `FAULT`: `W` is written from the committed master where the passes had begun (R303). -/
def State.abandonFault (s : State) (b : Nat) : State :=
  if Bk.state (s.bucket b) = 6 && (s.heldSpare b).isSome && !s.masterBad b then s.rewriteW b else s

/-- `ABANDON` of R303. -/
def State.abandonBucket (s : State) (b : Nat) : State :=
  match s.hvu.job with
  | some j =>
    if j.bucket != b then s.abandonFault b
    else if !j.interrupted then s
    else
      let t := if 3 ≤ j.phase && j.phase ≤ 4 && !s.masterBad b then s.rewriteW b else s
      t.bucketFault b (if 3 ≤ j.phase && j.phase ≤ 4 && s.masterBad b then 5 else 0)
  | none => s.abandonFault b

/-! The reduce pass (R334). -/

/-- Ranks whose partial is included with data, ascending. -/
def State.includedRanks (s : State) (b : Nat) : List Nat :=
  let r := s.red b
  let x := Store.get BktRun.reset s.sch.bkts b
  (List.range 64).filter fun k => (Rd.present r).testBit k && !x.nodata.contains k

/-- The sum of the included counts. -/
def State.includedCount (s : State) (b : Nat) : Nat :=
  ((Store.get BktRun.reset s.sch.bkts b).counts.map (·.2)).sum

/-- Sum the partials of one element in ascending rank (R334). -/
def sumPartials (vs : List Val) : Val × Tally :=
  match vs with
  | [] => (.zero, .zero)
  | v :: vs => vs.foldl (fun a x => fadd32 a.2 a.1 x) (v, .zero)

/-- The sums of every element of the owned shard, matrix by matrix: row, column, value, roundings. `before` is the number
of shard bytes that earlier matrices take in a staging slot. -/
def State.reduceMatrix (s : State) (d : Bucket) (stage z before : Nat) (ranks : List Nat) (idx : Nat) (m : Matrix) :
    List (Nat × Nat × Val × Tally) :=
  let bank := s.outerBank
  let t := gTensor d m
  let rows := ownRows d (Bk.rank d) idx m
  let first := (tileRowSpan t (ownTiles d (Bk.rank d) idx m)).1
  (regionCells rows.1 (rows.2 - rows.1) 0 m.cols).map fun q =>
    let a := t.elemBit 0 q.1 q.2 / 8
    let v := sumPartials (ranks.map fun r =>
      if r = Bk.rank d then bank.value t 0 q.1 q.2
      else decode t.fmt (bank.num (stage + r * z + before + (a - first)) 2))
    (q.1, q.2, v.1, v.2)

/-- Add the counts of the pass into the bucket's histogram image (R79, R80, R293): the image is held in slot 0 of a core
without any other state. -/
def State.histAddTo (s : State) (addr : Nat) (es : List (Val × Enc)) : State :=
  let img := s.tiers.localBytes addr 320
  let base := signedOf 9 (leNat ((img.drop 0x110).take 4) % 512)
  let c := es.foldl (fun c e => c.histWritten 0 e.1 e.2) { Core.reset with histBase := Store.set (-40) [] 0 base }
  s.localWrite addr (mergeImage img (c.histImage 0))

/-- Every matrix with the shard bytes before it. -/
def State.withOffsets (s : State) (d : Bucket) : List (Nat × Nat × Matrix) :=
  ((s.indexed d).foldl (fun x q =>
    (x.1 ++ [(x.2, q.1, q.2)], x.2 + (tileRowSpan (gTensor d q.2) (ownTiles d (Bk.rank d) q.1 q.2)).2)) ([], 0)).1

/-- Spans that the reduce pass reads. -/
def State.reduceReads (s : State) (d : Bucket) (b : Nat) : List (Nat × Nat) :=
  let z := s.shardBytes d (Bk.rank d)
  ((s.includedRanks b).map fun r =>
    if r = Bk.rank d then s.gSpans d r else [(Rd.stage (s.red b) + r * z, z)]).flatten

/-- The fault of a reduce pass: of the tables, then of the spans that it reads (R286, R310). -/
def State.reduceFault (s : State) (b : Nat) (d : Bucket) : Option Nat :=
  (s.tablesFault b d).or
    (if (s.reduceReads d b).any fun x => !s.mayOuter s.hvuCtx x.1 x.2 true then some 9
    else if (s.reduceReads d b).any fun x => s.tiers.poisoned x.1 x.2 then some 5
    else none)

/-- The included partials of a closed reduction summed into the owned rows of `G`; the bucket turns `READY` (R334). -/
def State.sumReduction (s : State) (b : Nat) (d : Bucket) : State :=
  let ranks := s.includedRanks b
  let z := s.shardBytes d (Bk.rank d)
  let n := s.includedCount b
  let cnt := if n < 65536 then n else Config.contribOver n % 65536
  let s0 := s.chargeTables b d
  let s1 := if ranks = [] then s0 else
    (s.withOffsets d).foldl (fun t q =>
      let sums := s.reduceMatrix d (Rd.stage (s.red b)) z q.1 ranks q.2.1 q.2.2
      let gT := gTensor d q.2.2
      let e := sums.map fun x => (x.1, x.2.1, encode gT.fmt 0 1 0 x.2.2.1)
      let t1 := t.writeImage (imageOf gT (e, [])) [tileRowSpan gT (ownTiles d (Bk.rank d) q.2.1 q.2.2)]
      let t2 := (sums.zip e).foldl (fun t x =>
        t.hvuTally (t.paramGroup d q.2.2 x.1.1 x.1.2.1) (x.1.2.2.2.add x.2.2.2)) t1
      t2.histAddTo (Bk.hist d) (e.map fun x => (decode gT.fmt x.2.2.code, x.2.2)))
      ((s.reduceReads d b).foldl (fun s x => s.chargeRead .read x.1 x.2) s0)
  ((s1.putBucket b 0xC 2 cnt).stepState b 1 0).onHvu fun h => { h with queue := h.queue ++ [b] }

/-- The reduce pass of the first closed reduction. One that faults stays among the closed ones, for `REQUEUE` (R303). -/
def State.reducePass (s : State) (b : Nat) : State :=
  let d := s.bucket b
  let f := s.reduceFault b d
  let t := s.onHvu fun h => { h with reduceQ := h.reduceQ.filter (· != b) ++ if f.isSome then [b] else [] }
  t.unlessFault b f (t.sumReduction b d)

/-! Commands. -/

/-- A write of `HVU_CTRL` (R291, R311): the other fields of the register are written while `EN` is 0. -/
def State.hvuCtrlWrite (s : State) (v : Word) : State :=
  if bit (s.reg pHvu 0x100) 31 then
    (if bit v 31 then s else { s.setRegBit pHvu 0x100 31 false with hvu := Hvu.reset })
  else
    let t := s.setReg pHvu 0x100 (v &&& 0x70000000)
    if !bit v 31 then t
    else if t.bucketsRefused then t.errSet pHvu 3
    else ({ t with hvu := Hvu.reset }.setRegBit pHvu 0x100 31 true).seedMirror

/-- HVU_ENABLE (R291, R307). -/
def execHvuEnable (r : Requester) (v : Word) (s : State) : Host.Outcome State Fault Refusal :=
  .next (s.onWrite r pHvu 0x100 fun s => s.hvuCtrlWrite v)

/-- Take a bucket from the head of the queue (R301 step 1): its tables are read, and its verdict goes out. One that
committed in this lap goes on with its publish (R303). -/
def State.startBucket (s : State) (b : Nat) : State :=
  let d := s.bucket b
  let t := s.chargeTables b d
  s.unlessFault b (s.tablesFault b d)
    (if Bk.lap d = s.lap then t.resumePublish ⟨b, if s.stamped b (Bk.slot d) then 6 else 5, Bk.slot d, false⟩
     else (((t.setJob (some ⟨b, 1, 0, false⟩)).stepState b 2 0).sendVerdict b).verdictStep)

/-- HVU_VERDICT_START (R301 step 1, R294). -/
def execHvuVerdictStart (s : State) : Host.Outcome State Fault Refusal :=
  .next (match s.hvu.job, s.hvu.queue with
    | none, b :: rest =>
      if !s.hvuOn then s else (s.onHvu fun h => { h with queue := rest }).startBucket b
    | _, _ => s)

/-- A `VERDICT` baton acted on: one that comes again is ignored (R294). -/
def State.takeVerdict (s : State) (b : Baton) : State :=
  let k := fld b.arg 11 0
  let r := fld b.pay 21 16
  if !s.hvuOn || s.bktCount ≤ k then s.countReg pgSch 0x158 1
  else if s.hvu.verdicts.any fun v => v.1 = k && v.2.1 = r then s
  else (s.onHvu fun h => { h with verdicts := h.verdicts ++ [(k, r, fld b.arg 17 16)] }).verdictStep

/-- HVU_PASSES (R301 step 3). -/
def execHvuPasses (s : State) : Host.Outcome State Fault Refusal :=
  .next (match s.hvu.job with
    | some j => if s.hvuOn && j.phase = 3 && !j.interrupted && !s.updateHeld (s.bucket j.bucket) j.spare then s.runPasses j else s
    | none => s)

/-- HVU_COMMIT (R301 steps 4 and 5). -/
def execHvuCommit (s : State) : Host.Outcome State Fault Refusal :=
  .next (match s.hvu.job with
    | some j => if s.hvuOn && j.phase = 4 && !j.interrupted then s.commitBucket j else s
    | none => s)

/-- HVU_DONE (R301 steps 5 and 6). -/
def execHvuDone (s : State) : Host.Outcome State Fault Refusal :=
  .next (match s.hvu.job with
    | some j => if s.hvuOn && 5 ≤ j.phase && !j.interrupted then s.finishBucket j else s
    | none => s)

/-- A write of `HVU_CMD` (R311). -/
def State.hvuCmdWrite (s : State) (v : Word) : State :=
  if !s.hvuOn || s.bktCount ≤ fld v 11 0 then s
  else if fld v 31 30 = 1 then s.requeue (fld v 11 0)
  else if fld v 31 30 = 2 then s.abandonBucket (fld v 11 0)
  else s

/-- REQUEUE: a write of `HVU_CMD` (R303). -/
def execRequeue (r : Requester) (v : Word) (s : State) : Host.Outcome State Fault Refusal :=
  .next (s.onWrite r pHvu 0x128 fun s => s.hvuCmdWrite v)

/-- HVU_ABANDON: a write of `HVU_CMD` (R303). -/
def execHvuAbandon (r : Requester) (v : Word) (s : State) : Host.Outcome State Fault Refusal :=
  .next (s.onWrite r pHvu 0x128 fun s => s.hvuCmdWrite v)

end Sys2Proof.Machine
end

