-- ==== Sys2Proof/Machine/Engines.lean ====
section
/-!
DEFINITION. The descriptors of the matrix, vector and row engines as they issue (06 R158-R178, 07 R188-R201, 08 R206-R223).
-/
namespace Sys2Proof.Machine

/-- A fault waits to be raised, or has been raised, by a descriptor that names the bank: those serialised behind it are
cancelled (R177, R178). So are those behind a VXE read that faults, of which the rules do not speak: R201 has its RESUME
read the same values again (log 76). -/
def InFlight.failing (e : InFlight) (b : Nat) : Bool :=
  (e.faults != [] || e.st = .faulted) && e.names b

def Core.bankFails (c : Core) (b : Nat) : Bool := c.seq.window.any fun e => e.failing b

/-- Give a bank the state it would hold had every descriptor so far run (R159). -/
def Core.expectBank (c : Core) (b : Nat) (after : Bank) : Core :=
  c.setBank b { c.bank b with tst := after.tst, tspk := after.tspk }

/-- Run a descriptor of an engine; one that a fault on its bank cancels has no effect (R177, R178), but for the bytes that
`State.raiseFault` spoils where it has begun by then. -/
def engineAct (run : Core → Env → Desc → RunRes) (bank : Desc → Option (Nat × Nat)) (s : State) (n : Nat) (_ : Nat)
    (d : Desc) : State × EntryState × List FaultAt :=
  let c := s.core n
  let e := s.env n
  let cancel := match bank d with | some k => c.bankFails k.1 | none => false
  if cancel then
    let b := (bank d).getD (0, 0)
    let x := c.bank b.1
    let r := run (c.setBank b.1 { x with st := x.tst, spk := x.tspk }) e d
    (s.setCore n (c.expectBank b.1 (r.core.bank b.1)), .cancelled, [])
  else
    let r := run c e d
    ({ s.setCore n r.core with free := s.free + r.drawn }, .run, r.faults)

/-- An engine's kind of descriptor. -/
def engineKind (code unit : Nat) (bank : Desc → Option (Nat × Nat)) (faults : Core → Env → Desc → List FaultAt)
    (run : Core → Env → Desc → RunRes) : Kind :=
  { code := code, unit := unit, cls := 1, bank := bank, ready := fun _ _ _ => true,
    faults := fun s n d => faults (s.core n) (s.env n) d, act := engineAct run bank }

/-- The same with the times it runs by and the bytes it writes. -/
def Kind.timed (k : Kind) (slot : Core → Env → Desc → Slot) (bytes : Core → Env → Desc → List Nat) : Kind :=
  { k with slot := fun s n d => slot (s.core n) (s.env n) d, spoils := fun s n d => bytes (s.core n) (s.env n) d }

def mxeNames (d : Desc) : Option (Nat × Nat) := some (mxeBank d)

def mmKind (code : Nat) (dw : Bool) : Kind :=
  (engineKind code 1 mxeNames (mmFaults dw) mmRun).timed (fun c e d => mmSlot (mmArgs c e d) c d) fun _ _ _ => []

/-- The bytes that a drain writes: none of a MASKED bank (R173). -/
def drainBytes (c : Core) (e : Env) (d : Desc) : List Nat :=
  let a := drainArgs c e d
  if (c.bank (mxeBank d).1).tst = 2 then [] else a.dst.regionBytes a.db a.cells

def drainKind : Kind :=
  (engineKind 0x12 5 mxeNames drainFaults drainRun).timed
    (fun c e d => drainSlot c e d (c.bank (mxeBank d).1).tst) drainBytes

/-- ACC_SPILL reads nothing but its bank, so that no word it reads can be uncorrectable. -/
def spillKind : Kind :=
  (engineKind 0x13 5 mxeNames (accFaults true false) accSpillRun).timed accSlot fun _ _ d =>
    (List.range spillSize).map (dfld d 0x10 20 0 + ·)

def resumeKind : Kind :=
  (engineKind 0x14 5 mxeNames (accFaults true true) accResumeRun).timed accSlot fun _ _ _ => []

def clearKind : Kind :=
  (engineKind 0x15 5 mxeNames (accFaults false false) accClearRun).timed accSlot fun _ _ _ => []

/-- A vector descriptor names a bank where it reads one (R165): the fields of R182. -/
def vecNames (o : VOp) (d : Desc) : Option (Nat × Nat) :=
  let v := vArgs Core.reset ⟨[], fun _ _ _ => 0, 0⟩ d
  if o.usesA && v.ak = 4 then some (v.bank, v.agrp) else none

def vecKind (o : VOp) : Kind :=
  (engineKind o.code 2 (vecNames o) (vFaults o) (vRun o)).timed (vSlot o) fun c e d => (vArgs c e d).writtenBytes o c

def rowKind (o : ROp) : Kind := engineKind o.code 3 (fun _ => none) (rFaults o) (rRun o)

/-! Commands. -/

/-- MM (R158). -/
def execMm (site : Fin 136) (s : State) : Host.Outcome State Fault Refusal :=
  .next (s.issue site.val (mmKind 0x10 false) noPush)

/-- MM_DW (R160). -/
def execMmDw (site : Fin 136) (s : State) : Host.Outcome State Fault Refusal :=
  .next (s.issue site.val (mmKind 0x11 true) noPush)

/-- ACC_DRAIN (R170). -/
def execAccDrain (site : Fin 136) (s : State) : Host.Outcome State Fault Refusal :=
  .next (s.issue site.val drainKind noPush)

/-- ACC_SPILL (R168). -/
def execAccSpill (site : Fin 136) (s : State) : Host.Outcome State Fault Refusal :=
  .next (s.issue site.val spillKind noPush)

/-- ACC_RESUME (R167). -/
def execAccResume (site : Fin 136) (s : State) : Host.Outcome State Fault Refusal :=
  .next (s.issue site.val resumeKind noPush)

/-- ACC_CLEAR (R167). -/
def execAccClear (site : Fin 136) (s : State) : Host.Outcome State Fault Refusal :=
  .next (s.issue site.val clearKind noPush)

/-- V_COPY (R189). -/
def execVCopy (site : Fin 136) (s : State) : Host.Outcome State Fault Refusal :=
  .next (s.issue site.val (vecKind .copy) noPush)

/-- V_ADD (R189). -/
def execVAdd (site : Fin 136) (s : State) : Host.Outcome State Fault Refusal :=
  .next (s.issue site.val (vecKind .add) noPush)

/-- V_SUB (R189). -/
def execVSub (site : Fin 136) (s : State) : Host.Outcome State Fault Refusal :=
  .next (s.issue site.val (vecKind .sub) noPush)

/-- V_MUL (R189). -/
def execVMul (site : Fin 136) (s : State) : Host.Outcome State Fault Refusal :=
  .next (s.issue site.val (vecKind .mul) noPush)

/-- V_FMA (R189). -/
def execVFma (site : Fin 136) (s : State) : Host.Outcome State Fault Refusal :=
  .next (s.issue site.val (vecKind .fma) noPush)

/-- V_MAX (R189). -/
def execVMax (site : Fin 136) (s : State) : Host.Outcome State Fault Refusal :=
  .next (s.issue site.val (vecKind .max) noPush)

/-- V_MIN (R189). -/
def execVMin (site : Fin 136) (s : State) : Host.Outcome State Fault Refusal :=
  .next (s.issue site.val (vecKind .min) noPush)

/-- V_NEG (R189). -/
def execVNeg (site : Fin 136) (s : State) : Host.Outcome State Fault Refusal :=
  .next (s.issue site.val (vecKind .neg) noPush)

/-- V_ABS (R189). -/
def execVAbs (site : Fin 136) (s : State) : Host.Outcome State Fault Refusal :=
  .next (s.issue site.val (vecKind .abs) noPush)

/-- V_CMP (R189). -/
def execVCmp (site : Fin 136) (s : State) : Host.Outcome State Fault Refusal :=
  .next (s.issue site.val (vecKind .cmp) noPush)

/-- V_SELECT (R189). -/
def execVSelect (site : Fin 136) (s : State) : Host.Outcome State Fault Refusal :=
  .next (s.issue site.val (vecKind .select) noPush)

/-- V_FUNC (R190). -/
def execVFunc (site : Fin 136) (s : State) : Host.Outcome State Fault Refusal :=
  .next (s.issue site.val (vecKind .func) noPush)

/-- V_REDUCE (R191). -/
def execVReduce (site : Fin 136) (s : State) : Host.Outcome State Fault Refusal :=
  .next (s.issue site.val (vecKind .reduce) noPush)

/-- V_PSUM (R193). -/
def execVPsum (site : Fin 136) (s : State) : Host.Outcome State Fault Refusal :=
  .next (s.issue site.val (vecKind .psum) noPush)

/-- V_PERM (R194). -/
def execVPerm (site : Fin 136) (s : State) : Host.Outcome State Fault Refusal :=
  .next (s.issue site.val (vecKind .perm) noPush)

/-- V_COMPRESS (R195). -/
def execVCompress (site : Fin 136) (s : State) : Host.Outcome State Fault Refusal :=
  .next (s.issue site.val (vecKind .compress) noPush)

/-- V_EXPAND (R196). -/
def execVExpand (site : Fin 136) (s : State) : Host.Outcome State Fault Refusal :=
  .next (s.issue site.val (vecKind .expand) noPush)

/-- V_RAND_U (R197). -/
def execVRandU (site : Fin 136) (s : State) : Host.Outcome State Fault Refusal :=
  .next (s.issue site.val (vecKind .randU) noPush)

/-- V_RAND_N (R197). -/
def execVRandN (site : Fin 136) (s : State) : Host.Outcome State Fault Refusal :=
  .next (s.issue site.val (vecKind .randN) noPush)

/-- V_DROPOUT (R197). -/
def execVDropout (site : Fin 136) (s : State) : Host.Outcome State Fault Refusal :=
  .next (s.issue site.val (vecKind .dropout) noPush)

/-- V_RAND_BITS (R197). -/
def execVRandBits (site : Fin 136) (s : State) : Host.Outcome State Fault Refusal :=
  .next (s.issue site.val (vecKind .randBits) noPush)

/-- ROW_SOFTMAX (R208). -/
def execRowSoftmax (site : Fin 136) (s : State) : Host.Outcome State Fault Refusal :=
  .next (s.issue site.val (rowKind .softmax) noPush)

/-- ROW_SOFTMAX_BWD (R209). -/
def execRowSoftmaxBwd (site : Fin 136) (s : State) : Host.Outcome State Fault Refusal :=
  .next (s.issue site.val (rowKind .softmaxBwd) noPush)

/-- ROW_XENT (R212). -/
def execRowXent (site : Fin 136) (s : State) : Host.Outcome State Fault Refusal :=
  .next (s.issue site.val (rowKind .xent) noPush)

/-- ROW_XENT_BWD (R209). -/
def execRowXentBwd (site : Fin 136) (s : State) : Host.Outcome State Fault Refusal :=
  .next (s.issue site.val (rowKind .xentBwd) noPush)

/-- ROW_LNORM (R208). -/
def execRowLnorm (site : Fin 136) (s : State) : Host.Outcome State Fault Refusal :=
  .next (s.issue site.val (rowKind .lnorm) noPush)

/-- ROW_LNORM_BWD (R209). -/
def execRowLnormBwd (site : Fin 136) (s : State) : Host.Outcome State Fault Refusal :=
  .next (s.issue site.val (rowKind .lnormBwd) noPush)

/-- ROW_RMSNORM (R208). -/
def execRowRmsnorm (site : Fin 136) (s : State) : Host.Outcome State Fault Refusal :=
  .next (s.issue site.val (rowKind .rms) noPush)

/-- ROW_RMSNORM_BWD (R209). -/
def execRowRmsnormBwd (site : Fin 136) (s : State) : Host.Outcome State Fault Refusal :=
  .next (s.issue site.val (rowKind .rmsBwd) noPush)

/-- ROW_TAG_CLOSE (R217). -/
def execRowTagClose (site : Fin 136) (s : State) : Host.Outcome State Fault Refusal :=
  .next (s.issue site.val (rowKind .tagClose) noPush)

end Sys2Proof.Machine
end

