-- ==== Sys2Proof/Machine/Stu.lean ====
section
/-!
DEFINITION. The stream unit: passes, tiles, rings and the stream descriptors (09 R225-R247).
-/
namespace Sys2Proof.Machine

def State.stu (s : State) (n k : Nat) : StuCtx := (s.core n).stuCtx k

def State.setStuCtx (s : State) (n k : Nat) (x : StuCtx) : State := s.onCore n fun c => c.setStu k x

def State.onStu (s : State) (n k : Nat) (f : StuCtx → StuCtx) : State := s.setStuCtx n k (f (s.stu n k))

/-! Tile order (R105, R232). -/

/-- Place of element (r, c) within a square tile, in elements (R103). -/
def tilePos (r c : Nat) : Nat := (r / 8 * 8 + ((c / 8) ^^^ (r / 8))) * 64 + r % 8 * 8 + c % 8

/-- A tile taken in column order: element (r, c) goes to (c, r); `w` is the element width in bits (R105). -/
def transposeTile (w : Nat) (bs : List Byte) : List Byte :=
  let v := leNat bs
  natLe bs.length ((regionCells 0 64 0 64).foldl (fun n q =>
    n + v / 2 ^ (w * tilePos q.1 q.2) % 2 ^ w * 2 ^ (w * tilePos q.2 q.1)) 0)

/-- Width of the elements of a tile of 64 × 64. -/
def tileWidth (bytes : Nat) : Nat := bytes / 512

def tileOrder (t : Tile) (bs : List Byte) : List Byte := if t.order then transposeTile (tileWidth bs.length) bs else bs

/-! How a tile ends. -/

/-- What a tile meets: nothing yet, a block under repair, a fault, or its end. -/
inductive TileEnd where
  | wait
  | hold (block : Nat)
  | fault (c : FaultCode)
  | ok
  deriving DecidableEq, Repr

/-- The transaction of a tile. -/
def State.tileTxn (s : State) (n k : Nat) (t : Tile) : Option Txn := s.txns.find? fun x => x.client = .tile n k t.slot

/-- Would a write of a span meet a poisoned block that it does not cover (R282)? -/
def Tiers.partPoison (t : Tiers) (a n : Nat) : Bool :=
  (blocksOf a n).any fun b => mapPoison (t.mapOf b) && !(a ≤ 4096 * b && 4096 * b + 4096 ≤ a + n)

/-- May a context access the span of a tile in the own tiers? Other targets check for themselves (R112). -/
def State.admits (s : State) (ctx : Nat) (d : StreamDesc) (idx : Nat) : Bool :=
  match s.target (tileAddr d idx) (Sd.bytes d) with
  | .near o => s.mayNear ctx o (Sd.bytes d)
  | .outer l => s.mayOuter ctx l (Sd.bytes d) (Sd.dir d = 1)
  | _ => true

/-- How a tile in flight ends now (R242, R243). What it may access was settled at its start: a grant that lapses later
does not stop it (R532). -/
def State.tileEnd (s : State) (n k : Nat) (t : Tile) : TileEnd :=
  let c := s.core n
  let len := Sd.bytes t.sd
  let store := Sd.dir t.sd = 1
  if store && c.spdPoison t.spd len then .fault .poisonInput else
  match s.target (tileAddr t.sd t.idx) len with
  | .bad => .fault .tensorBounds
  | .near o =>
    if !t.admitted then .fault .contextViolation
    else if !store && s.tiers.nearBad o len then .fault .poisonInput else .ok
  | .outer l =>
    if !t.admitted then .fault .contextViolation
    else match s.heldBlock l len with
    | some b => .hold b
    | none => if (if store then s.tiers.partPoison l len else s.tiers.poisoned l len) then .fault .poisonInput else .ok
  | _ =>
    match s.tileTxn n k t with
    | none => .wait
    | some x => if !x.done then .wait else match FaultCode.ofCode x.status with | some f => .fault f | none => .ok

/-- Move the bytes of a tile that ends well; a load that an ABANDON overtakes leaves undefined bytes (R244). -/
def State.moveTile (s : State) (n k : Nat) (t : Tile) : State :=
  let c := s.core n
  let len := Sd.bytes t.sd
  let store := Sd.dir t.sd = 1
  let gone := c.seq.abandoning && t.owner.isSome
  let put := fun (s : State) (bs : List Byte) =>
    if gone then
      let f := s.freeBytes len
      f.2.onCore n fun c => c.write t.spd f.1
    else s.onCore n fun c => c.write t.spd (tileOrder t bs)
  let out := if gone then (s.freeBytes len).1 else tileOrder t (c.bytes t.spd len)
  let s := if gone && store then (s.freeBytes len).2 else s
  let s1 := match s.target (tileAddr t.sd t.idx) len with
    | .near o =>
      if store then { s with tiers := s.tiers.nearWrite o out }
      else put { s with tiers := s.tiers.touch o len } (s.tiers.nearBytes o len)
    | .outer l =>
      if store then (s.writeOuter .write l out).1
      else let r := s.readOuter .read l len; put r.2.2 r.1
    | _ =>
      match s.tileTxn n k t with
      | none => s
      | some x => let s1 := s.dropTxn x.tag; if store then s1 else put s1 x.bytes
  s1.onCore n fun c => c.countWrap 0x500 (cdiv len 512)

/-! Handing over (R234, R237). -/

/-- Take tiles from the front: a moved tile is counted; a ring's slot is handed over; a tile whose S_LOAD or S_STORE has
not ended stays. The result: the tiles that stay, the increments by counter, and the slots handed over. -/
def handOver : List Tile → List Tile × List Nat × Nat
  | [] => ([], [], 0)
  | t :: ts =>
    if t.st = .moved then
      let r := handOver ts
      let inc := if Sd.cen t.sd && !t.counted then Sd.ctr t.sd :: r.2.1 else r.2.1
      if t.owner.isSome then ({ t with counted := true } :: r.1, inc, r.2.2)
      else (r.1, inc, r.2.2 + if Sd.ring t.sd then 1 else 0)
    else (t :: ts, [], 0)

/-- Hand over what may be handed over. -/
def State.handTiles (s : State) (n k : Nat) : State :=
  let x := s.stu n k
  let r := handOver x.tiles
  let y := if Sd.dir x.first = 1 then { x with tiles := r.1, head := x.head + r.2.2 }
    else { x with tiles := r.1, tail := x.tail + r.2.2 }
  (s.setStuCtx n k y).onCore n fun c => r.2.1.foldl (fun c i => c.addDep i 1) c

/-! Passes (R228, R229). -/

/-- Make a descriptor the one whose tiles start next; the STU fetches the one it chains to. -/
def StuCtx.take (x : StuCtx) (d : StreamDesc) : StuCtx :=
  { x with cur := some d, pos := 0, ahead := none, fetch := if Sd.chain d then some (Sd.next d, none) else none }

/-- Begin a pass (R229, R230). Pointers carry over from ring to ring. -/
def StuCtx.beginPass (x : StuCtx) (d : StreamDesc) : StuCtx :=
  let y := { x.take d with st := if x.st = .idle then .active else x.st, first := d, refused := none }
  if Sd.ring d && Sd.ring x.first && x.st != .idle then y
  else { y with tail := 0, acq := 0, head := 0, started := 0, relRec := 0 }

/-- The next tile of the pass has been started or taken: move on at the end of a descriptor (R228, R232). -/
def StuCtx.step (x : StuCtx) (d : StreamDesc) (cnt : Nat) : StuCtx :=
  if x.pos + cnt < Sd.ntiles d then { x with pos := x.pos + cnt }
  else match x.ahead with
    | some e => x.take e
    | none => { x with cur := none, pos := 0 }

/-- Does the pass have no tile left, fetched or to be fetched? -/
def StuCtx.noTileLeft (x : StuCtx) : Bool := x.cur.isNone && x.fetch.isNone && x.ahead.isNone && x.refused.isNone

/-- Is the pass complete: its last transfer has ended (R228)? -/
def StuCtx.passDone (x : StuCtx) : Bool := x.st = .active && x.noTileLeft && x.tiles = []

/-- Tiles in flight. -/
def StuCtx.moving (x : StuCtx) : Nat := (x.tiles.filter fun t => t.st = .moving).length

/-! Starting tiles (R233, R234). -/

/-- Ask for the bytes of a tile that is not in the own tiers, or send them. -/
def State.askTile (s : State) (n k : Nat) (t : Tile) : State :=
  let len := Sd.bytes t.sd
  s.requestAt (.tile n k t.slot) (s.core n).ctx (s.target (tileAddr t.sd t.idx) len) len
    (if Sd.dir t.sd = 1 then some (tileOrder t ((s.core n).bytes t.spd len)) else none)

/-- May a ring start its next tile? -/
def StuCtx.ringMay (x : StuCtx) (d : StreamDesc) : Bool :=
  x.moving < Sd.la d &&
    if Sd.dir d = 1 then x.started < x.tail else x.st = .active && x.started - x.head < Sd.slots d

/-- A draining ring whose pass is over turns to its shadow descriptor. -/
def StuCtx.turned (x : StuCtx) : StuCtx :=
  match x.cur, x.shadow with
  | none, some d =>
    if x.st = StuState.disarming && Sd.dir d = 1 && x.noTileLeft then { x.take d with first := d, shadow := none } else x
  | _, _ => x

/-- Start the next tile of a ring. -/
def State.startTile (s : State) (n k : Nat) (x : StuCtx) (d : StreamDesc) : State :=
  let t : Tile := ⟨d, x.pos, x.started, Sd.spdOff d + 64 * (x.started % Sd.slots d * Sd.spitch d), false, none, .moving, false,
    false, s.admits (s.core n).ctx d x.pos⟩
  (s.setStuCtx n k { x.step d 1 with started := x.started + 1, tiles := x.tiles ++ [t] }).askTile n k t

/-- Start the tiles that a ring may start; `fuel` bounds them. A disarming write ring goes on into the shadow (R238). -/
def State.startRing (s : State) (n k : Nat) : Nat → State
  | 0 => s
  | f + 1 =>
    match (s.stu n k).turned.cur with
    | none => s
    | some d =>
      if !Sd.ring d || !(s.stu n k).turned.ringMay d then s
      else (s.startTile n k (s.stu n k).turned d).startRing n k f

/-- The S_LOAD or S_STORE that executes: the first that has not ended (R231). -/
def State.loadOn (s : State) (n : Nat) : Option InFlight :=
  (s.core n).seq.window.find? fun e => e.unit = 4 && e.incomplete

/-- Context of a stream descriptor. -/
def scx (d : Desc) : Nat := dfld d 8 10 8

/-- Start the first queued tile of a serial. -/
def startFirst (may : Tile → Bool) (serial : Nat) : List Tile → List Tile × Option Tile
  | [] => ([], none)
  | t :: ts =>
    if t.st = .queued && t.owner = some serial then
      let u := { t with st := .moving, admitted := may t }
      (u :: ts, some u)
    else let r := startFirst may serial ts; (t :: r.1, r.2)

/-- Start tiles of the executing S_LOAD or S_STORE up to the lookahead (R233); `fuel` bounds them. -/
def State.startLoad (s : State) (n k serial : Nat) : Nat → State
  | 0 => s
  | f + 1 =>
    let x := s.stu n k
    let r := startFirst (fun t => s.admits (s.core n).ctx t.sd t.idx) serial x.tiles
    match r.2 with
    | none => s
    | some t =>
      if Sd.la t.sd ≤ x.moving then s
      else ((s.setStuCtx n k { x with tiles := r.1 }).askTile n k t).startLoad n k serial f

/-- Start what may start in a context and for the S_LOAD or S_STORE that executes. -/
def State.startTiles (s : State) (n k : Nat) : State :=
  let s1 := s.startRing n k 8
  match s1.loadOn n with
  | none => s1
  | some e => if (s1.core n).seq.abandoning then s1 else s1.startLoad n (scx e.desc) e.serial 8

/-- The faults that tiles of a serial ended with, in tile order. -/
def tileFaults (serial : Nat) (ts : List Tile) : List FaultAt :=
  ts.filterMap fun t =>
    if t.owner = some serial then
      match t.st with
      | .faulted c _ => some ⟨c, tileAddr t.sd t.idx, false⟩
      | _ => none
    else none

/-- End an S_LOAD or S_STORE once each of its tiles has ended (R231, R243); under an ABANDON once none moves (R244). -/
def State.endLoad (s : State) (n k serial : Nat) : State :=
  let ts := (s.stu n k).tiles.filter fun t => t.owner = some serial
  if ts.any fun t => t.st = .moving then s
  else if (s.core n).seq.abandoning then
    (s.onCore n fun c => { c with seq := c.seq.onEntry serial fun e => { e with st := .cancelled } }).onStu n k fun x =>
      { x with tiles := x.tiles.map fun t => if t.owner = some serial then { t with owner := none } else t }
  else if ts.any fun t => t.st = .queued then s
  else
    let fs := tileFaults serial ts
    let given := fun (t : Tile) => match t.st with
      | .faulted c _ => if t.owner = some serial then { t with st := .faulted c true } else t
      | _ => t
    (s.onStu n k fun x => { x with tiles := x.tiles.map given }).onCore n fun c =>
      if fs = [] then c.readyEntry serial
      else { c with seq := c.seq.onEntry serial fun e =>
          if e.st = .wait then { e with st := .run, faults := e.faults ++ fs } else e }

/-- After a tile has ended: count, hand over, start, and end the descriptor it belongs to. -/
def State.stuSettle (s : State) (n k : Nat) (owner : Option Nat) : State :=
  let s1 := (s.handTiles n k)
  let s2 := match owner with | some serial => s1.endLoad n k serial | none => s1
  s2.startTiles n k

/-- The n-th tile in flight of a context: its place in the list. -/
def StuCtx.movingAt (x : StuCtx) (i : Nat) : Option Nat :=
  ((x.tiles.zipIdx.filter fun t => t.1.st = .moving).map (·.2))[i]?

/-- Change the tile at a place. -/
def State.onTile (s : State) (n k p : Nat) (f : Tile → Tile) : State :=
  s.onStu n k fun x => { x with tiles := x.tiles.zipIdx.map fun t => if t.2 = p then f t.1 else t.1 }

/-- The destination of a faulted tile is undefined (R112, R143). -/
def State.spoilTile (s : State) (n : Nat) (t : Tile) : State :=
  let len := Sd.bytes t.sd
  let f := s.freeBytes len
  if Sd.dir t.sd = 0 then f.2.onCore n fun c => c.write t.spd f.1
  else match s.target (tileAddr t.sd t.idx) len with
    | .near o => if t.admitted then { f.2 with tiers := f.2.tiers.nearWrite o f.1 } else s
    | .outer l =>
      if t.admitted && !s.tiers.partPoison l len then (f.2.writeOuter .write l f.1).1 else s
    | _ => s

/-- A tile ends faulted (R243). A drain that faults while an S_DISARM waits gives it the fault. -/
def State.failTile (s : State) (n k p : Nat) (t : Tile) (c : FaultCode) : State :=
  let s1 := match s.tileTxn n k t with | some x => s.dropTxn x.tag | none => s
  let s2 := (s1.spoilTile n t).onTile n k p fun t => { t with st := .faulted c false }
  let s3 := s2.onStu n k fun x => { x with faultCode := c.code, faultTile := t.idx }
  let x := s3.stu n k
  match x.disarmer, t.owner with
  | some serial, none =>
    if Sd.dir t.sd = 1 then
      ((s3.onTile n k p fun t => { t with st := .faulted c true }).onCore n fun c' =>
        c'.faultEntry serial ⟨c, tileAddr t.sd t.idx, false⟩).onStu n k fun x => { x with disarmer := none }
    else s3
  | _, _ => s3

/-! Fetches of stream descriptors (R228, R231). -/

/-- Where a stream descriptor lies: an SPD offset, or the global address of a place in the own near tier (R145, R226). -/
def State.locAddr (s : State) (l : StreamLoc) : Nat := if l.spd then l.off else s.ownAddr (nearBase + l.off)

/-- A fetch from the near tier makes its page young again (R271). -/
def State.fetchTouch (s : State) (l : StreamLoc) : State :=
  if l.spd then s else { s with tiers := s.tiers.touch l.off 32 }

/-- A 32-byte stream descriptor, or the fault of its fetch. -/
def State.fetchSd (s : State) (n : Nat) (l : StreamLoc) : Except FaultAt StreamDesc :=
  let c := s.core n
  if l.spd then
    if outsideSpd l.off 32 then .error ⟨.tensorBounds, l.off, true⟩
    else if c.spdPoison l.off 32 then .error ⟨.poisonInput, l.off, true⟩
    else .ok (bitsOf 256 (c.bytes l.off 32))
  else if nearSize < l.off + 32 then .error ⟨.tensorBounds, s.locAddr l, false⟩
  else if !s.mayNear c.ctx l.off 32 then .error ⟨.contextViolation, s.locAddr l, false⟩
  else if s.tiers.nearBad l.off 32 then .error ⟨.poisonInput, s.locAddr l, false⟩
  else .ok (bitsOf 256 (s.tiers.nearBytes l.off 32))

/-- Must a shadow be refused after the pass of `first` (R230)? -/
def shadowBad (first d : StreamDesc) : Bool :=
  Sd.ring first && (!Sd.ring d || Sd.dir d != Sd.dir first || Sd.slots d != Sd.slots first ||
    Sd.spdOff d != Sd.spdOff first || Sd.spitch d != Sd.spitch first)

/-- Does a chained descriptor differ from the first of its pass where R228 forbids it? -/
def chainBad (first d : StreamDesc) : Bool :=
  Sd.dir d != Sd.dir first || Sd.ring d != Sd.ring first || Sd.slots d != Sd.slots first || Sd.la d != Sd.la first ||
  Sd.spdOff d != Sd.spdOff first || Sd.spitch d != Sd.spitch first || Sd.cen d != Sd.cen first || Sd.ctr d != Sd.ctr first

/-! Stream descriptors as they issue (R231-R238, R246). -/

/-- Stream opcodes have at most the field TI0 (R231). -/
def stuBad (c : Core) (d : Desc) (fs : List Field) (ti : Bool) : List FaultAt :=
  faultIf (commonBad d c.seq.loops fs (if ti then [0] else []) false) (.plain .badDescriptor)

def stuKind (code unit cls : Nat) (ready : State → Nat → Desc → Bool) (faults : State → Nat → Desc → List FaultAt)
    (act : State → Nat → Nat → Desc → State × EntryState × List FaultAt) : Kind :=
  { code := code, unit := unit, cls := cls, bank := fun _ => none, ready := ready, faults := faults, act := act }

/-- The descriptor in an `S_ARM`, and where an indirect one lies. -/
def armDesc (d : Desc) : StreamDesc := (d >>> 128).truncate 256
def armIndir (d : Desc) : Bool := dbit d 8 12
def armLoc (d : Desc) : StreamLoc := ⟨dbit d 0x10 28, 32 * dfld d 0x10 27 0⟩

def armFaults (s : State) (n : Nat) (d : Desc) : List FaultAt :=
  let c := s.core n
  let x := c.stuCtx (scx d)
  let l := armLoc d
  (if armIndir d then
    stuBad c d [(8, 10, 8), (8, 12, 12), (0x10, 28, 0)] false ++
      faultIf (if l.spd then outsideSpd l.off 32 else nearSize < l.off + 32)
        ⟨.tensorBounds, s.locAddr l, l.spd⟩
   else
    stuBad c d [(8, 10, 8), (8, 12, 12), (0x10, 255, 0)] false ++ s.streamFaults c.ctx (armDesc d) ++
      faultIf (x.st = .active && !streamBad (armDesc d) && shadowBad x.first (armDesc d)) (.plain .badDescriptor)) ++
  faultIf (x.shadow.isSome || x.shadowFetch.isSome) (.plain .streamRearmBusy)

/-- Place a descriptor: it begins a pass on an IDLE context or after a pass that is complete, else it is the shadow
(R229). -/
def State.placeStream (s : State) (n k : Nat) (d : StreamDesc) : State :=
  let x := s.stu n k
  if x.st = .idle || x.passDone then (s.setStuCtx n k (x.beginPass d)).startTiles n k
  else s.setStuCtx n k { x with shadow := some d }

def armAct (s : State) (n serial : Nat) (d : Desc) : State × EntryState × List FaultAt :=
  let k := scx d
  let x := s.stu n k
  let s1 := if x.st = .idle then s else s.onCore n fun c => c.countSat 0x508 1
  if armIndir d then
    if x.st = .idle then
      (s1.setStuCtx n k { x with st := .active, fetch := some (armLoc d, some serial) }, .wait, [])
    else (s1.setStuCtx n k { x with shadowFetch := some (armLoc d, serial) }, .wait, [])
  else (s1.placeStream n k (armDesc d), .run, [])

/-- Does the pass of an indirect arm wait for its first descriptor? -/
def StuCtx.armPending (x : StuCtx) : Bool := x.cur.isNone && match x.fetch with | some (_, some _) => true | _ => false

/-- An S_ARM that carries its descriptor is compared with the pass that it follows, so it waits until the first descriptor
of that pass has been fetched (R230, log 25). -/
def armReady (s : State) (n : Nat) (d : Desc) : Bool :=
  let x := s.stu n (scx d)
  x.st != .disarming && (armIndir d || !x.armPending || x.shadow.isSome || x.shadowFetch.isSome)

def armKind : Kind := stuKind 0x60 6 0 armReady armFaults armAct

/-! S_LOAD and S_STORE (R232, R233). -/

def ldCnt (d : Desc) : Nat := dfld d 8 31 16

/-- Tiles that an earlier, faulted issue of the descriptor left to move again (R243): those of the oldest serial that no
longer runs. -/
def Core.staleTiles (c : Core) (k : Nat) : List Tile :=
  let live := fun (o : Option Nat) => match o with
    | none => true
    | some i => c.seq.window.any fun e => e.serial = i && e.st != .faulted
  match (c.stuCtx k).tiles.find? fun t => !live t.owner with
  | none => []
  | some t => (c.stuCtx k).tiles.filter fun u => u.owner = t.owner

/-- Tiles that remain in the current descriptor. -/
def StuCtx.remain (x : StuCtx) : Nat := match x.cur with | some d => Sd.ntiles d - x.pos | none => 0

def loadFaults (dir : Nat) (s : State) (n : Nat) (d : Desc) : List FaultAt :=
  let c := s.core n
  let e := s.env n
  let x := c.stuCtx (scx d)
  let t := c.ti e d 0
  let cur := match c.staleTiles (scx d) with | u :: _ => u.sd | [] => x.cur.getD x.first
  let again := c.staleTiles (scx d) != []
  let cnt := ldCnt d
  let bad := x.st != .active || Sd.ring cur || Sd.dir cur != dir || cnt = 0 || (!again && x.remain < cnt)
  stuBad c d [(8, 11, 0), (8, 31, 16)] true ++ faultIf (bad && !(x.refused.isSome && x.cur.isNone)) (.plain .badDescriptor) ++
  faultIf (!bad && dbit d 8 11 && (t.layout != 0 || t.badFormat || Sd.bytes cur != t.tileBytes)) (.plain .badDescriptor) ++
  faultIf t.badFormat (.plain .badFormat) ++ faultIf t.badDescriptor (.plain .badDescriptor) ++
  faultIf (t.sound && (!t.spd || t.spdBounds || (!bad && t.footprint < cnt * Sd.bytes cur))) (.atSpd .tensorBounds t.base) ++
  (match x.refused with
   | some r => faultIf (x.cur.isNone && !again) ⟨r.2, s.locAddr r.1, r.1.spd⟩
   | none => [])

/-- Does the STU hold the descriptor whose tiles come next (R232)? A pass with no tile left, or a refused descriptor,
ends the wait with a fault. -/
def loadReady (s : State) (n : Nat) (d : Desc) : Bool :=
  let x := s.stu n (scx d)
  x.st != .active || x.cur.isSome || x.fetch.isNone || (s.core n).staleTiles (scx d) != []

/-- Queue the tiles of an S_LOAD or S_STORE, or those that a faulted issue left to move again. -/
def loadAct (s : State) (n serial : Nat) (d : Desc) : State × EntryState × List FaultAt :=
  let k := scx d
  let c := s.core n
  let x := c.stuCtx k
  let t := c.ti (s.env n) d 0
  let stale := c.staleTiles k
  match tiPoison c (s.env n) d [0] with
  | some a => (s, .run, [.atSpd .poisonInput a])
  | none =>
    match stale with
    | u :: _ =>
      let y := { x with tiles := x.tiles.map fun v =>
        if v.owner = u.owner then { v with owner := some serial, st := .queued } else v }
      (s.setStuCtx n k y, .wait, [])
    | [] =>
      match x.cur with
      | none => (s, .run, [])
      | some sd =>
        let ts := (List.range (ldCnt d)).map fun i =>
          (⟨sd, x.pos + i, x.started + i, t.base + i * Sd.bytes sd, dbit d 8 11, some serial, .queued, false, false, false⟩ : Tile)
        let y := { x.step sd (ldCnt d) with tiles := x.tiles ++ ts, started := x.started + ldCnt d }
        (s.setStuCtx n k y, .wait, [])

def loadKind (code dir : Nat) : Kind := stuKind code 4 2 loadReady (loadFaults dir) loadAct

/-! S_ACQUIRE (R235). -/

/-- The first faulted tile of a ring whose fault waits to be delivered, as its place in the list. -/
def StuCtx.undelivered (x : StuCtx) : Option (Nat × Tile × FaultCode) :=
  (x.tiles.zipIdx.filterMap fun t => match t.1.st with
    | .faulted c false => if t.1.owner.isNone then some (t.2, t.1, c) else none
    | _ => none).head?

/-- The fault that an S_ACQUIRE receives: of the slot it would take, of a drain, or of a refused descriptor whose tiles
its slot needs (R243). `addr` gives where a descriptor lies. -/
def StuCtx.acqFault (x : StuCtx) (addr : StreamLoc → Nat) : Option FaultAt :=
  match x.undelivered with
  | some (_, t, c) =>
    if Sd.dir t.sd = 1 || t.slot = x.acq then some ⟨c, tileAddr t.sd t.idx, false⟩ else none
  | none =>
    match x.refused with
    | some r => if x.started + x.remain ≤ x.acq then some ⟨r.2, addr r.1, r.1.spd⟩ else none
    | none => none

/-- Could an S_ACQUIRE never issue (R235)? -/
def StuCtx.acqNever (x : StuCtx) : Bool :=
  x.st = .idle || !Sd.ring (x.cur.getD x.first) ||
    (Sd.dir x.first = 0 && x.tail = x.acq && x.noTileLeft && x.tiles = [] && x.shadow.isNone && x.shadowFetch.isNone)

/-- Is the slot ready (R235)? -/
def StuCtx.acqReady (x : StuCtx) : Bool :=
  x.st = .active && if Sd.dir x.first = 0 then x.acq < x.tail else x.acq - x.head < Sd.slots x.first

def acquireFaults (s : State) (n : Nat) (d : Desc) : List FaultAt :=
  let c := s.core n
  let x := c.stuCtx (scx d)
  stuBad c d [(8, 10, 0), (8, 12, 12)] true ++ faultIf x.acqNever (.plain .badDescriptor) ++
    (if x.acqNever then [] else (x.acqFault s.locAddr).toList)

/-- The tile whose fault an S_ACQUIRE or S_DISARM has received. -/
def StuCtx.deliver (x : StuCtx) : StuCtx :=
  match x.undelivered with
  | none => x
  | some (p, _, c) => { x with tiles := x.tiles.zipIdx.map fun t =>
      if t.2 = p then { t.1 with st := .faulted c true } else t.1 }

/-- Take the slot; `REBASE` writes its offset and `SPD` into the tensor-table entry (R235). -/
def acquireAct (s : State) (n _ : Nat) (d : Desc) : State × EntryState × List FaultAt :=
  let k := scx d
  let x := s.stu n k
  let off := Sd.spdOff x.first + 64 * (x.acq % Sd.slots x.first * Sd.spitch x.first)
  let e := 0x17E000 + 32 * tensorIndex d (s.env n).loops 0
  let s1 := s.setStuCtx n k { x with acq := x.acq + 1 }
  ((if dbit d 8 12 then s1.onCore n fun c =>
      c.write e (natLe 8 (2 ^ 63 + c.num e 8 / 2 ^ 56 % 128 * 2 ^ 56 + off)) else s1), .run, [])

def acquireKind : Kind :=
  stuKind 0x63 6 0 (fun s n d =>
    let x := s.stu n (scx d)
    !x.armPending && (x.acqNever || (x.acqFault s.locAddr).isSome || x.acqReady)) acquireFaults acquireAct

/-! S_RELEASE (R236). -/

/-- Tile positions of a write ring fetched so far, counted from the arming; and whether more are to be fetched. -/
def StuCtx.positions (x : StuCtx) : Nat × Bool :=
  let more := fun (o : Option StreamDesc) => match o with | some d => Sd.ntiles d | none => 0
  let chained := match x.shadow with | some d => Sd.chain d | none => false
  (x.started + x.remain + more x.ahead + more x.shadow, x.fetch.isSome || x.shadowFetch.isSome || chained ||
    match x.ahead with | some d => Sd.chain d | none => false)

def relN (d : Desc) : Nat := dfld d 8 31 16

def releaseFaults (s : State) (n : Nat) (d : Desc) : List FaultAt :=
  let c := s.core n
  let x := c.stuCtx (scx d)
  stuBad c d [(8, 10, 8), (8, 31, 16)] false ++
    faultIf (x.st = .idle || !Sd.ring x.first || relN d = 0 || 8 < relN d || x.acq - x.relRec < relN d ||
      (Sd.dir x.first = 1 && x.positions.1 < x.relRec + relN d)) (.plain .badDescriptor)

/-- The wait for positions still to be fetched (R236). -/
def releaseReady (s : State) (n : Nat) (d : Desc) : Bool :=
  let x := s.stu n (scx d)
  !(x.st != .idle && Sd.ring x.first && Sd.dir x.first = 1 && relN d ≤ x.acq - x.relRec &&
    x.positions.1 < x.relRec + relN d && x.positions.2)

def releaseKind : Kind :=
  stuKind 0x64 6 0 releaseReady releaseFaults fun s n _ d =>
    (s.onStu n (scx d) fun x => { x with relRec := x.relRec + relN d }, .wait, [])

/-! S_DISARM (R238). -/

/-- Discard the tiles that are neither in flight nor moved, `keep` apart; the increments behind a discarded tile are not
made (R237). -/
def discard (keep : Tile → Bool) : Bool → List Tile → List Tile
  | _, [] => []
  | lost, t :: ts =>
    if t.st = .moving || t.st = .moved || keep t then { t with counted := t.counted || lost } :: discard keep lost ts
    else discard keep true ts

/-- Put a context into DISARMING (R238): it starts no fill, and only a write ring keeps its pass and its shadow. A fetch
for an S_ARM goes on, since that S_ARM completes with it (R231). `force`: an ABANDON, or the end of the run, to whom no fault is delivered (R244). -/
def StuCtx.disarm (force : Bool) (x : StuCtx) : StuCtx :=
  if x.st = .idle then x else
  let write := Sd.ring x.first && Sd.dir x.first = 1
  let y := { x with st := .disarming, refused := none, shadow := if write then x.shadow else none,
                    tiles := discard (fun t => write && !force && t.st != .queued) false x.tiles }
  if write then y else { y with cur := none, ahead := none, fetch := if x.armPending then x.fetch else none }

/-- Has every S_LOAD and S_STORE of a context completed? -/
def Core.loadsEnded (c : Core) (k : Nat) : Bool :=
  c.seq.window.all fun e => !(e.unit = 4 && e.incomplete && scx e.desc = k)

def disarmFaults (s : State) (n : Nat) (d : Desc) : List FaultAt :=
  let c := s.core n
  let x := c.stuCtx (scx d)
  stuBad c d [(8, 10, 8)] false ++
    match x.undelivered with
    | some (_, t, f) => faultIf (Sd.ring t.sd && Sd.dir t.sd = 1) ⟨f, tileAddr t.sd t.idx, false⟩
    | none => []

def disarmAct (s : State) (n serial : Nat) (d : Desc) : State × EntryState × List FaultAt :=
  let k := scx d
  let x := s.stu n k
  if x.st = .idle then (s, .run, [])
  else
    let s1 := s.setStuCtx n k { x with disarmer := some serial }
    (if (s.core n).loadsEnded k then (s1.onStu n k (StuCtx.disarm false)).startTiles n k else s1, .wait, [])

def disarmKind : Kind := stuKind 0x65 6 0 (fun s n d => (s.stu n (scx d)).disarmer.isNone) disarmFaults disarmAct

/-- A fault of a ring has been given to the descriptor that issued (R243). -/
def State.issueStream (s : State) (n : Nat) (k : Kind) : State :=
  match s.issuable n k with
  | none => s
  | some d =>
    let t := s.issue n k noPush
    if (t.core n).seq.faultStop && (k.code = 0x63 || k.code = 0x65) then t.onStu n (scx d) StuCtx.deliver
    else t.startTiles n (scx d)

/-! Commands. -/

/-- S_ARM (R229). -/
def execSArm (site : Fin 136) (s : State) : Host.Outcome State Fault Refusal := .next (s.issueStream site.val armKind)

/-- S_LOAD (R232). -/
def execSLoad (site : Fin 136) (s : State) : Host.Outcome State Fault Refusal :=
  .next (s.issueStream site.val (loadKind 0x61 0))

/-- S_STORE (R232). -/
def execSStore (site : Fin 136) (s : State) : Host.Outcome State Fault Refusal :=
  .next (s.issueStream site.val (loadKind 0x62 1))

/-- S_ACQUIRE (R235). -/
def execSAcquire (site : Fin 136) (s : State) : Host.Outcome State Fault Refusal :=
  .next (s.issueStream site.val acquireKind)

/-- S_RELEASE (R236). -/
def execSRelease (site : Fin 136) (s : State) : Host.Outcome State Fault Refusal :=
  .next (s.issueStream site.val releaseKind)

/-- S_DISARM (R238). -/
def execSDisarm (site : Fin 136) (s : State) : Host.Outcome State Fault Refusal :=
  .next (s.issueStream site.val disarmKind)

/-- Give up the place of an indirect arm whose descriptor faults: the context returns to the state it had, and what holds
its shadow slot stays (R229, R246). Behind a pass that never began, that is the next to begin. -/
def StuCtx.giveUp (x : StuCtx) (shadow : Bool) : StuCtx :=
  if shadow then { x with shadowFetch := none }
  else if x.st = .disarming then { x with fetch := none }
  else match x.shadow, x.shadowFetch with
    | some d, _ => x.toIdle.beginPass d
    | none, some (l, serial) => { x.toIdle with st := .active, fetch := some (l, some serial) }
    | none, none => x.toIdle

/-- Keep the descriptor of an indirect arm: it begins a pass, or is the shadow of a pass that goes on (R229). On a
DISARMING context only a write ring takes a shadow (R238). -/
def StuCtx.armed (x : StuCtx) (d : StreamDesc) (shadow : Bool) : StuCtx :=
  let y := if shadow then { x with shadowFetch := none } else { x with fetch := none }
  if x.st = .disarming then (if shadow && Sd.ring x.first && Sd.dir x.first = 1 then { y with shadow := some d } else y)
  else if !shadow || y.passDone then y.beginPass d
  else { y with shadow := some d }

/-- An indirect arm's descriptor has come: checked, and begun or kept as the shadow (R229, R246). -/
def State.armFetched (s : State) (n k serial : Nat) (l : StreamLoc) (shadow : Bool) : State :=
  let x := s.stu n k
  let t := s.fetchTouch l
  let fs := match s.fetchSd n l with
    | .error f => [f]
    | .ok d => s.streamFaults (s.core n).ctx d ++
        faultIf (!streamBad d && shadowBad x.first d) (.plain .badDescriptor)
  match s.fetchSd n l, fs with
  | .ok d, [] =>
    ((t.setStuCtx n k (x.armed d shadow)).onCore n fun c => c.readyEntry serial).startTiles n k
  | _, _ =>
    ((t.setStuCtx n k (x.giveUp shadow)).onCore n fun c => { c with seq := c.seq.onEntry serial fun e =>
      if e.st = .wait then { e with st := .run, faults := e.faults ++ fs } else e }).startTiles n k

/-- S_ARM_FETCH_DONE (R229). -/
def execSArmFetchDone (site : Fin 136) (c : Fin 8) (s : State) : Host.Outcome State Fault Refusal :=
  let x := s.stu site.val c.val
  .next (match x.fetch, x.shadowFetch with
    | some (l, some serial), _ => s.armFetched site.val c.val serial l false
    | _, some (l, serial) => s.armFetched site.val c.val serial l true
    | _, none => s)

/-- A chained descriptor has come (R228): it is the current one where the one before has no tile left. -/
def State.chainFetched (s : State) (n k : Nat) (l : StreamLoc) : State :=
  let x := s.stu n k
  let y := { x with fetch := none }
  let t := s.fetchTouch l
  let refuse := fun (c : FaultCode) => t.onStu n k fun _ =>
    { y with refused := some (l, c), faultCode := c.code, faultTile := 0 }
  match s.fetchSd n l with
  | .error f => refuse f.code
  | .ok d =>
    match firstFault (s.streamFaults (s.core n).ctx d ++
        faultIf (chainBad x.first d || (Sd.ring d && Sd.spitch d < Sd.psize d)) (.plain .badDescriptor)) with
    | some f => refuse f.code
    | none => (t.setStuCtx n k (if x.cur.isNone then y.take d else { y with ahead := some d })).startTiles n k

/-- CHAIN_FETCH_DONE (R228). -/
def execChainFetchDone (site : Fin 136) (c : Fin 8) (s : State) : Host.Outcome State Fault Refusal :=
  .next (match (s.stu site.val c.val).fetch with
    | some (l, none) => s.chainFetched site.val c.val l
    | _ => s)

/-- RELEASE_EFFECT (R236): every earlier descriptor has completed, or has ended under an ABANDON (R244). A release whose
ring is gone frees nothing. -/
def execReleaseEffect (site : Fin 136) (serial : Nat) (s : State) : Host.Outcome State Fault Refusal :=
  let n := site.val
  .next (match (s.core n).seq.entry serial with
    | none => s
    | some e =>
      if Dsc.opcode e.desc = 0x64 && e.st = .wait &&
          (s.core n).seq.window.all (fun u => serial ≤ u.serial || u.st = .done ||
            ((s.core n).seq.abandoning && u.st = .cancelled)) then
        ((s.onStu n (scx e.desc) fun x =>
          if e.unit = 0 then x
          else if Sd.dir x.first = 1 then { x with tail := x.tail + relN e.desc }
          else { x with head := x.head + relN e.desc }).onCore n fun c => c.readyEntry serial).startTiles n (scx e.desc)
      else s)

/-- TILE_COMPLETE (R234, R242): the n-th tile in flight ends well; on a block under repair it is held. -/
def execTileComplete (site : Fin 136) (c : Fin 8) (n : Fin 8) (s : State) : Host.Outcome State Fault Refusal :=
  let x := s.stu site.val c.val
  .next (match x.movingAt n.val with
    | none => s
    | some p =>
      match x.tiles[p]? with
      | none => s
      | some t =>
        match s.tileEnd site.val c.val t with
        | .ok => ((s.moveTile site.val c.val t).onTile site.val c.val p fun t => { t with st := .moved }).stuSettle site.val c.val t.owner
        | .hold b =>
          if t.held then s
          else
            let len := Sd.bytes t.sd
            let store := Sd.dir t.sd = 1
            ((s.hold b ⟨.unit, store, if store then .write else .read, gLocal (tileAddr t.sd t.idx), len, []⟩).onTile
              site.val c.val p fun t => { t with held := true }).onCore site.val fun c => c.countSat 0x504 1
        | _ => s)

/-- TILE_FAULT (R243): the n-th tile in flight ends faulted. -/
def execTileFault (site : Fin 136) (c : Fin 8) (n : Fin 8) (s : State) : Host.Outcome State Fault Refusal :=
  let x := s.stu site.val c.val
  .next (match x.movingAt n.val with
    | none => s
    | some p =>
      match x.tiles[p]? with
      | none => s
      | some t =>
        match s.tileEnd site.val c.val t with
        | .fault f => (s.failTile site.val c.val p t f).stuSettle site.val c.val t.owner
        | _ => s)

/-- Has a ring nothing left to hand over, and no release that is yet to take effect (R229)? -/
def StuCtx.drained (x : StuCtx) : Bool := !Sd.ring x.first || (x.head = x.tail && x.relRec = x.tail)

/-- A ring has gone: releases of it that have not taken effect free nothing any more. -/
def Core.orphanReleases (c : Core) (k : Nat) : Core :=
  let drop := fun (e : InFlight) =>
    if Dsc.opcode e.desc = 0x64 && scx e.desc = k && e.incomplete then { e with unit := 0 } else e
  { c with seq := { c.seq with window := c.seq.window.map drop } }

/-- PASS_COMPLETE (R229). While a fetch holds the shadow slot, the context waits for it. -/
def execPassComplete (site : Fin 136) (c : Fin 8) (s : State) : Host.Outcome State Fault Refusal :=
  let n := site.val
  let x := s.stu n c.val
  .next (if !x.passDone then s else
    match x.shadow, x.shadowFetch with
    | some d, _ => (s.setStuCtx n c.val ({ x with shadow := none }.beginPass d)).startTiles n c.val
    | none, some _ => s
    | none, none => if x.drained then s.setStuCtx n c.val x.toIdle else s)

/-- Have the transfers of a disarming context ended, the fetches for its S_ARMs, and the drains of every released slot,
its release effective or only recorded (R236, R238)? -/
def StuCtx.disarmed (x : StuCtx) : Bool :=
  x.st = .disarming && x.tiles = [] && !x.armPending && x.shadowFetch.isNone &&
    (!(Sd.ring x.first && Sd.dir x.first = 1) || (x.started = x.tail && x.tail = x.relRec))

/-- Drop what a disarming read ring or load stream has moved: nobody takes it any more. -/
def StuCtx.shedMoved (x : StuCtx) : StuCtx :=
  if x.st = .disarming && !(Sd.ring x.first && Sd.dir x.first = 1) then
    { x with tiles := x.tiles.filter fun t => t.st = .moving }
  else x

/-- DISARM_DONE (R238). -/
def execDisarmDone (site : Fin 136) (c : Fin 8) (s : State) : Host.Outcome State Fault Refusal :=
  let n := site.val
  let x := (s.stu n c.val).shedMoved
  .next (if x.disarmed then
    let t := (s.setStuCtx n c.val x.toIdle).onCore n fun y => y.orphanReleases c.val
    match x.disarmer with
    | some serial => t.onCore n fun c => c.readyEntry serial
    | none => t
    else s)

end Sys2Proof.Machine
end

