-- ==== Sys2Proof/Machine/Lists.lean ====
section
/-!
DEFINITION. Completion, faults, stops and the list commands of a core, and its migration (05 R116, R122, R142-R153,
09 R243-R245).
-/
namespace Sys2Proof.Machine

/-! Completion (R122, R128). -/

/-- May an entry complete: no earlier descriptor of its engine or its bank is still ahead (R123, R165)? -/
def Sequencer.mayComplete (q : Sequencer) (e : InFlight) : Bool :=
  e.st = .run && e.faults = [] && q.window.all fun u =>
    e.serial ≤ u.serial || !u.incomplete ||
      !((u.unit = e.unit && 1 ≤ e.unit && e.unit ≤ 5) ||
        match u.bank, e.bank with | some a, some b => a.1 = b.1 | _, _ => false)

/-- Drop what has completed from the front of the window. -/
def prune : List InFlight → List InFlight
  | [] => []
  | e :: es => if e.st = .done then prune es else e :: es

/-- An S_DISARM that waited for loads of its context (R238). -/
def State.disarmWhenReady (s : State) (n k : Nat) : State :=
  let x := s.stu n k
  if x.disarmer.isSome && x.st = .active && (s.core n).loadsEnded k then (s.onStu n k (StuCtx.disarm false)).startTiles n k
  else s

/-- After an S_LOAD or S_STORE: its tiles are handed over, and the next one starts. -/
def State.afterLoad (s : State) (n serial : Nat) : State :=
  (List.range 8).foldl (fun s k =>
    let free := fun (t : Tile) => if t.owner = some serial then { t with owner := none } else t
    let s1 := (s.onStu n k fun x => { x with tiles := x.tiles.map free }).handTiles n k
    (s1.disarmWhenReady n k).startTiles n k) s

/-- A descriptor completes: `SEN` counts (R128). -/
def State.complete (s : State) (n : Nat) (e : InFlight) : State :=
  let s1 := s.onCore n fun c =>
    let c1 := { c with seq := c.seq.onEntry e.serial fun x => { x with st := .done } }
    let c2 := if Dsc.sen e.desc then c1.addDep (Dsc.sctr e.desc) 1 else c1
    { c2 with seq := { c2.seq with window := prune c2.seq.window } }
  let s2 := if e.unit = 4 then s1.afterLoad n e.serial else s1
  if e.cls = 0 then s2 else s2.rebalance (n / 4)

/-- Fault of a transaction's status. -/
def statusFault (t : Txn) (a : Nat) : Option FaultAt := (FaultCode.ofCode t.status).map fun c => ⟨c, a, false⟩

/-- A HIST_STORE to another device or the host goes on: its read is merged and written, its write completes it. -/
def State.histGoesOn (s : State) (n : Nat) (e : InFlight) : State :=
  match s.txns.find? fun t => t.client = .store n e.serial with
  | none => s
  | some t =>
    let a := (histDest e.desc).2
    let done := s.dropTxn t.tag
    if !t.done then s
    else match statusFault t a with
    | some f => done.onCore n fun c => { c.faultEntry e.serial f with images := c.images.filter (·.1 != e.serial) }
    | none =>
      if t.write then (done.onCore n fun c => c.readyEntry e.serial).complete n e
      else match (s.core n).images.find? (·.1 = e.serial) with
      | none => s
      | some m =>
        (done.onCore n fun c => { c with images := c.images.filter (·.1 != e.serial) }).requestAt (.store n e.serial)
          (s.core n).ctx (s.target a 320) 320 (some (mergeImage t.bytes m.2))

/-- DESCRIPTOR_COMPLETE (R122). -/
def execDescriptorComplete (site : Fin 136) (serial : Nat) (s : State) : Host.Outcome State Fault Refusal :=
  let q := (s.core site.val).seq
  .next (match q.entry serial with
    | none => s
    | some e =>
      if q.mayComplete e then s.complete site.val e
      else if e.st = .wait && Dsc.opcode e.desc = 0xA then s.histGoesOn site.val e
      else s)

/-! Faults (R142-R145). -/

/-- Opcodes that R131 and the engine chapters assign. -/
def opcodeKnown (o : Nat) : Bool := o ≤ 0xA || (0x10 ≤ o && o ≤ 0x15) || (0x20 ≤ o && o ≤ 0x34) || (0x40 ≤ o && o ≤ 0x48) ||
  (0x60 ≤ o && o ≤ 0x65)

/-- Descriptors that wait for the completion of one that has faulted end without effect: a release behind it, and the
disarm of a context whose load it was (log 46). -/
def State.cancelBehind (s : State) (n : Nat) (e : InFlight) : State :=
  let hit := fun (u : InFlight) => u.st = .wait && e.serial < u.serial &&
    (Dsc.opcode u.desc = 0x64 || (Dsc.opcode u.desc = 0x65 && e.unit = 4 && scx u.desc = scx e.desc))
  let us := (s.core n).seq.window.filter hit
  let s1 := us.foldl (fun s u => s.onStu n (scx u.desc) fun x =>
    if Dsc.opcode u.desc = 0x64 then { x with relRec := x.relRec - relN u.desc } else { x with disarmer := none }) s
  let stop := fun (u : InFlight) => if hit u then { u with st := .cancelled } else u
  s1.onCore n fun c => { c with seq := { c.seq with window := c.seq.window.map stop } }

/-- Behind a drain or spill that faults, a cancelled drain, spill or bank read that has begun by now leaves the bytes it
writes undefined (R178, R201). -/
def State.spoilBegun (s : State) (n : Nat) (e : InFlight) : State :=
  if Dsc.opcode e.desc != 0x12 && Dsc.opcode e.desc != 0x13 then s
  else
    let c := s.core n
    let begun := fun (u : InFlight) => e.serial < u.serial && u.st = .cancelled && u.slot.begins ≤ c.clk &&
      u.names (mxeBank e.desc).1
    let lost := ((c.seq.window.filter begun).map fun (u : InFlight) => u.spoils).flatten
    { s.setCore n (c.scramble s.free lost) with free := s.free + lost.length }

/-- Raise the faults of an entry (R142). Under an ABANDON it only ends (R146). The S_LOAD or S_STORE behind one that faults
starts its tiles (R233). -/
def State.raiseFault (s : State) (n : Nat) (e : InFlight) : State :=
  let s1 := (s.spoilBegun n e).onCore n fun c =>
    let q := c.seq.onEntry e.serial fun x => { x with st := .faulted }
    { c with seq := { q with faultStop := q.faultStop || !q.abandoning } }
  let s2 := s1.cancelBehind n e
  let s3 := if e.unit = 4 then (List.range 8).foldl (fun s k => s.startTiles n k) s2 else s2
  if e.cls = 0 then s3 else s3.rebalance (n / 4)

/-- The faults of the descriptor at the cursor that no opcode owns: its fetch fails, or its opcode is not assigned. -/
def State.cursorFault (s : State) (n : Nat) : Option (Desc × List FaultAt) :=
  let c := s.core n
  if !s.mayIssue n || 8 ≤ c.seq.inflight then none else
  match s.fetchAt c c.seq.cursor with
  | .fault f => some (0, [f])
  | .desc d =>
    if opcodeKnown (Dsc.opcode d) || (Dsc.wen d && !reached (c.depCtr (Dsc.wctr d)) (Dsc.wval d)) then none
    else some (d, .plain .badOpcode :: faultIf (headBad d) (.plain .badDescriptor))

/-- DESCRIPTOR_FAULT (R142): a descriptor in flight, or, by the next serial, the one being fetched. -/
def execDescriptorFault (site : Fin 136) (serial : Nat) (s : State) : Host.Outcome State Fault Refusal :=
  let n := site.val
  let q := (s.core n).seq
  .next (match q.entry serial with
    | some e => if e.st = .run && e.faults != [] then s.raiseFault n e else s
    | none =>
      if serial != q.serial then s else
      match s.cursorFault n with
      | none => s
      | some (d, fs) =>
        let k : Kind := nopKind
        s.onCore n fun c =>
          let c1 := c.pushEntry (s.entryOf n k d .faulted fs)
          { c1 with seq := { c1.seq with faultStop := true } })

/-- `ENGINE` of R151. -/
def engineOf (e : InFlight) : Nat := match e.unit with | 5 => 1 | 6 => 4 | u => u

/-- The fault record (R143, R145): `e` is the first faulted descriptor, `rest` those issued after it, `all` every one
that ended in the stop. -/
def faultRec (e : InFlight) (rest all : List InFlight) : FaultRec :=
  let f := (firstFault e.faults).getD (.plain .badOpcode)
  let also := (all.map fun u => if u.st = .faulted then u.faults else []).flatten
  ⟨f.code.code, Dsc.opcode e.desc, engineOf e,
    ((List.range 13).filter fun k => k != f.code.code && also.any fun g => g.code.code = k).foldl (fun m k => m + 2 ^ k) 0,
    f.addr, f.spd, e.idx, (rest.take 7).map fun (u : InFlight) => u.st = .done, e.desc⟩

/-- The window from the first faulted descriptor on. -/
def fromFault (es : List InFlight) : List InFlight := es.dropWhile fun e => e.st != .faulted

/-- A signal behind a stop waits for the descriptors that the walk passes again, the first of which takes the next serial
(R130, R146). -/
def Signal.afterStop (g : Signal) (n serial : Nat) (left : List InFlight) : Signal :=
  match g.src, left with
  | some (m, k), e :: _ =>
    if m != n then g else if k ≤ e.serial then { g with src := none } else { g with src := some (n, serial + (k - e.serial)) }
  | some (m, _), [] => if m != n then g else { g with src := none }
  | none, _ => g

/-- Each bank holds what the descriptors that ran left it (R177, R178). -/
def Core.settleBanks (c : Core) : Core :=
  { c with bank0 := { c.bank0 with tst := c.bank0.st, tspk := c.bank0.spk },
           bank1 := { c.bank1 with tst := c.bank1.st, tspk := c.bank1.spk } }

/-- The list stops (R142, R145, R147). `DONE` marks the seven descriptors behind the stop point, whether they were issued
since the last stop or still stand marked from it (R145). -/
def State.stopList (s : State) (n : Nat) : State :=
  let q := (s.core n).seq
  let left := fromFault q.window
  let s1 := { s with signals := s.signals.map fun (g : Signal) => g.afterStop n q.serial left }
  match left with
  | [] =>
    (s1.onCore n fun c => { c.settleBanks with seq := { c.seq with
      st := .stoppedReq, reqStop := false, faultStop := false, window := [], frec := { c.seq.frec with done := [] } } }).raise
      (pgCore n) 1
  | e :: rest =>
    ((s1.onCore n fun c => { c.settleBanks with seq := { c.seq with
      st := .stoppedFault, reqStop := false, faultStop := false, window := [], cursor := e.idx, loops := e.loops,
      walk := false :: ((rest.map fun (u : InFlight) => decide (u.st = .done)) ++ c.seq.walk).take 7,
      frec := { faultRec e rest left with
        done := ((rest.map fun (u : InFlight) => decide (u.st = .done)) ++ c.seq.walk).take 7 } } }).errSet
        (pgCore n) 0).raise (pgCore n) 1

/-- LIST_STOPPED (R142, R147): every issued descriptor has ended. -/
def execListStopped (site : Fin 136) (s : State) : Host.Outcome State Fault Refusal :=
  let q := (s.core site.val).seq
  .next (if q.st = .running && (q.faultStop || q.reqStop) && !q.abandoning && q.inflight = 0 then s.stopList site.val
    else s)

/-! Settling a fault of the stream unit (R243). -/

/-- The first faulted tile of a ring, by place. -/
def StuCtx.given (x : StuCtx) : Option (Nat × Tile) :=
  (x.tiles.zipIdx.filterMap fun t => match t.1.st with
    | .faulted _ true => if t.1.owner.isNone then some (t.2, t.1) else none
    | _ => none).head?

/-- Fetch a refused descriptor again. -/
def StuCtx.refetch (x : StuCtx) : StuCtx :=
  match x.refused with
  | some r => if x.fetch.isNone then { x with refused := none, fetch := some (r.1, none) } else x
  | none => x

/-- `RESUME` of a stream descriptor: the slot is filled or drained again, or the descriptor fetched again. -/
def State.streamResume (s : State) (n : Nat) (d : Desc) : State :=
  let o := Dsc.opcode d
  let k := scx d
  if o = 0x61 || o = 0x62 then (if ((s.core n).staleTiles k) = [] then s.onStu n k StuCtx.refetch else s)
  else if o = 0x63 || o = 0x65 then
    match (s.stu n k).given with
    | some (p, t) =>
      (s.onTile n k p fun t => { t with st := .moving, held := false, admitted := s.admits (s.core n).ctx t.sd t.idx }).askTile n k t
    | none => if o = 0x63 then s.onStu n k StuCtx.refetch else s
  else s

/-- `SKIP` of a stream descriptor: the faulted tiles count as moved, or the pass ends at the refused descriptor. -/
def State.streamSkip (s : State) (n : Nat) (d : Desc) : State :=
  let o := Dsc.opcode d
  let k := scx d
  let cut := fun (s : State) => s.onStu n k fun x => { x with refused := none }
  if o = 0x61 || o = 0x62 then
    match (s.core n).staleTiles k with
    | [] => cut s
    | u :: _ =>
      ((s.onStu n k fun x => { x with tiles := x.tiles.map fun t =>
        if t.owner = u.owner then { t with st := .moved, owner := none } else t }).handTiles n k).startTiles n k
  else if o = 0x63 || o = 0x65 then
    match (s.stu n k).given with
    | some (p, t) =>
      let s1 := (s.onTile n k p fun t => { t with st := .moved }).handTiles n k
      let s2 := if Sd.dir t.sd = 0 then s1.onStu n k fun x => { x with acq := x.acq + 1 } else s1
      s2.startTiles n k
    | none => if o = 0x63 then cut s else s
  else s

/-! List commands (R146-R149). -/

/-- The core no longer answers for arrivals that timed out (R136). -/
def State.forgetLate (s : State) (n : Nat) : State :=
  match s.lcoreOf n with
  | none => s
  | some l => { s with sch := { s.sch with
      hurdles := s.sch.hurdles.map fun h => (h.1, { h.2 with late := h.2.late.filter (· != l) }) } }

/-- Disarm every context of a core by force (R244). -/
def State.abandonStreams (s : State) (n : Nat) : State :=
  (List.range 8).foldl (fun s k =>
    let x := s.stu n k
    if x.st = .idle then s else
    let s1 := (x.tiles.filter fun t => t.owner.isSome && t.st != .moving).foldl (fun s t => s.spoilTile n t) s
    let s2 := (s1.onStu n k (StuCtx.disarm true)).handTiles n k
    let s3 := ((s2.core n).seq.window.filter fun e => e.unit = 4 && e.st = .wait && scx e.desc = k).foldl
      (fun s e => s.endLoad n k e.serial) s2
    s3.startTiles n k) s

/-- The list is over: IDLE (R146). -/
def State.endList (s : State) (n : Nat) : State :=
  let gs := s.signals.filterMap fun g => match g.src with
    | some (m, _) => if m = n then (if s.signalFree g then some { g with src := none } else none) else some g
    | none => some g
  { s with signals := gs }.onCore n fun c => { c.settleBanks with images := [], seq := { c.seq with
    st := .idle, abandoning := false, faultStop := false, reqStop := false, window := [], loops := [], spare := [], walk := [] } }

/-- ABANDON: a running list ends once what was issued has ended; any other is IDLE at once. -/
def State.abandon (s : State) (n : Nat) : State :=
  let run := (s.core n).seq.st = .running
  let s1 := s.onCore n fun c => { c with seq := { c.seq with loops := [], spare := [], abandoning := run } }
  let s2 := (s1.abandonStreams n).forgetLate n
  if run then s2 else s2.endList n

def State.startList (s : State) (n : Nat) : State :=
  (s.forgetLate n).onCore n fun c => { c with seq := { c.seq with
    st := .running, cursor := 0, faultStop := false, reqStop := false, abandoning := false, window := [], walk := [],
    loops := [], spare := [], frec := FaultRec.clear } }

/-- RESUME: walk on from the stop point (R146). -/
def State.resumeList (s : State) (n : Nat) : State :=
  let q := (s.core n).seq
  let s1 := if q.st = .stoppedFault then s.streamResume n q.frec.desc else s
  s1.onCore n fun c =>
    let c1 := { c with seq := { c.seq with st := .running } }
    s.walkOn c1.seq.walk.length c1

/-- The bank change that SKIP applies of a drain that faulted in execution (R178); one that faulted at issue leaves the
banks as they are (R177). -/
def skipBank (c : Core) (d : Desc) : Core :=
  if Dsc.opcode d = 0x12 && (c.seq.frec.code = FaultCode.poisonInput.code || c.seq.frec.code = FaultCode.ovfFault.code) then
    let k := mxeBank d
    c.setBank k.1 (drainedBank (c.bank k.1) (dbit d 0x20 6) k.2)
  else c

/-- SKIP: the faulting descriptor counts as complete, `SEN` included (R146). -/
def State.skipList (s : State) (n : Nat) : State :=
  let q := (s.core n).seq
  let d := q.frec.desc
  let s1 := (s.streamSkip n d).forgetLate n
  s1.onCore n fun c =>
    let c1 := skipBank c d
    let c2 := if Dsc.sen d then c1.addDep (Dsc.sctr d) 1 else c1
    let c3 := s1.passOver { c2 with seq := { c2.seq with st := .running } } none
    s1.walkOn c3.seq.walk.length c3

/-- A write of `CORE_LIST_CTRL` (R148). -/
def State.listCtrl (s : State) (n : Nat) (v : Word) : State :=
  let q := (s.core n).seq
  let ignored := s.errSet (pgCore n) 1
  if fld v 4 0 = 0 then s
  else if q.abandoning then ignored
  else if bit v 4 then (if q.st = .idle then ignored else s.abandon n)
  else if bit v 1 then
    (if q.st = .running then s.onCore n fun c => { c with seq := { c.seq with reqStop := true } } else ignored)
  else if bit v 3 then (if q.st = .stoppedFault then s.skipList n else ignored)
  else if bit v 2 then (if q.st = .stoppedFault || q.st = .stoppedReq then s.resumeList n else ignored)
  else if q.st = .idle || q.st = .halted then s.startList n else ignored

def State.listCommand (s : State) (r : Requester) (n : Nat) (v : Word) : State :=
  s.onWrite r (pgCore n) 0x110 fun s => s.listCtrl n v

/-- START: a write of `CORE_LIST_CTRL` (R149). -/
def execStart (r : Requester) (site : Fin 136) (v : Word) (s : State) : Host.Outcome State Fault Refusal :=
  .next (s.listCommand r site.val v)

/-- STOP: a write of `CORE_LIST_CTRL` (R147). -/
def execStop (r : Requester) (site : Fin 136) (v : Word) (s : State) : Host.Outcome State Fault Refusal :=
  .next (s.listCommand r site.val v)

/-- RESUME: a write of `CORE_LIST_CTRL` (R146). -/
def execResume (r : Requester) (site : Fin 136) (v : Word) (s : State) : Host.Outcome State Fault Refusal :=
  .next (s.listCommand r site.val v)

/-- SKIP: a write of `CORE_LIST_CTRL` (R146). -/
def execSkip (r : Requester) (site : Fin 136) (v : Word) (s : State) : Host.Outcome State Fault Refusal :=
  .next (s.listCommand r site.val v)

/-- ABANDON: a write of `CORE_LIST_CTRL` (R146). -/
def execAbandon (r : Requester) (site : Fin 136) (v : Word) (s : State) : Host.Outcome State Fault Refusal :=
  .next (s.listCommand r site.val v)

/-- ABANDON_DONE (R146). -/
def execAbandonDone (site : Fin 136) (s : State) : Host.Outcome State Fault Refusal :=
  let q := (s.core site.val).seq
  .next (if q.abandoning && q.inflight = 0 then s.endList site.val else s)

/-! Registers of the sequencer (R153). -/

/-- The words of level l, active or not. -/
def Sequencer.level (q : Sequencer) (l : Nat) : LoopLevel := q.loops[l]?.getD (Store.get LoopLevel.zero q.spare l)

/-- Give level l the words x, active or not as it is. -/
def Sequencer.setLevel (q : Sequencer) (l : Nat) (x : LoopLevel) : Sequencer :=
  if l < q.loops.length then { q with loops := q.loops.set l x }
  else { q with spare := Store.set LoopLevel.zero q.spare l x }

/-- A write of level l of the loop stack: `lo` is the A word. A level that is dropped keeps its words; one that becomes
active takes up those it has; a level cannot become active above one that is not (R153). -/
def loopWrite (q : Sequencer) (l : Nat) (lo : Bool) (v : Word) : Option Sequencer :=
  let old := q.level l
  if !lo then some (q.setLevel l { old with iter := fld v 31 16, index := fld v 15 0 })
  else
    let new := { old with body := fld v 29 20, start := fld v 19 0 }
    if !bit v 31 then
      let kept := (q.loops.zipIdx.drop l).foldl (fun m x => Store.set LoopLevel.zero m x.2 x.1) q.spare
      some { q with loops := q.loops.take l, spare := Store.set LoopLevel.zero kept l new }
    else if q.loops.length < l then none
    else if q.loops.length = l then
      some { q with loops := q.loops ++ [new], spare := Store.set LoopLevel.zero q.spare l LoopLevel.zero }
    else some (q.setLevel l new)

/-- May firmware write the sequencer's registers (R153)? -/
def State.listWritable (s : State) (n : Nat) : Bool := (s.core n).seq.st != .running

/-- Carry out a write that R153 allows outside `RUNNING` only. -/
def State.idleWrite (s : State) (n : Nat) (f : Core → Core) : State :=
  if s.listWritable n then s.onCore n f else s.errSet (pgCore n) 1

/-- A write of register i of the loop stack (R153). -/
def State.loopStackWrite (s : State) (n i : Nat) (v : Word) : State :=
  match loopWrite (s.core n).seq (i / 2) (i % 2 = 0) v with
  | none => s.errSet (pgCore n) 1
  | some q => s.idleWrite n fun c => { c with seq := q }

/-- CORE_LOOP_WRITE (R153). -/
def execCoreLoopWrite (r : Requester) (site : Fin 136) (ix : Fin 8) (v : Word) (s : State) :
    Host.Outcome State Fault Refusal :=
  .next (s.onWrite r (pgCore site.val) (0x180 + 4 * ix.val) fun s => s.loopStackWrite site.val ix.val v)

/-! Migration (R116, R245). -/

/-- Name the new site where state names the old one. Transfers of tiles in flight do not come with the core. -/
def State.renameSite (s : State) (a b : Nat) : State :=
  { s with
    signals := s.signals.map fun g =>
      { g with sender := if g.sender = a then b else g.sender, src := g.src.map fun x => if x.1 = a then (b, x.2) else x },
    txns := (s.txns.filter fun t => match t.client with | .tile n _ _ => n != a | _ => true).map fun t =>
      { t with client := match t.client with
        | .store n i => if n = a then .store b i else .store n i
        | x => x } }

/-- Start the tiles again that were in flight on the old site (R245). -/
def State.restartTiles (s : State) (n : Nat) : State :=
  (List.range 8).foldl (fun s k =>
    let again := fun (t : Tile) => { t with held := false, admitted := s.admits (s.core n).ctx t.sd t.idx }
    let t := s.onStu n k fun x => { x with tiles := x.tiles.map fun t => if t.st = .moving then again t else t }
    ((t.stu n k).tiles.filter fun t => t.st = .moving).foldl (fun s t => s.askTile n k t) t) s

/-- Carry a logical core to a spare site: SPD, histogram bank, counters, loop stack and list registers, side memory and
stream contexts; the banks of the new site are EMPTY (R116, R179). The old site is left as a core is after reset, with the
bytes that its SPD held (log 76). -/
def State.migrate (s : State) (l b : Nat) : State :=
  let a := s.siteOf l
  let c := s.core a
  let d := s.core b
  let moved : Core := { c with bank0 := Bank.empty 0, bank1 := Bank.empty 0, cnt := d.cnt, clk := d.clk }
  let left : Core := { Core.reset with spd := c.spd, poison := c.poison, cnt := c.cnt, clk := c.clk }
  let s1 := ((s.setCore b moved).setCore a left).renameSite a b
  { s1 with dev := { s1.dev with coreMap := Store.set (if l < 64 then l else l + 4) s1.dev.coreMap l b } }.restartTiles b

end Sys2Proof.Machine
end

