-- ==== Sys2Proof/Machine/Kvd.lean ====
section
/-!
DEFINITION. The KV directory: groups and slots, the admission of a step, walks, scores and moves (13 R348-R368).
-/
namespace Sys2Proof.Machine

def State.onKvd (s : State) (f : Kvd → Kvd) : State := { s with kvd := f s.kvd }

def State.kvdOn (s : State) : Bool := s.regsUp && s.enabled pgKvd && bit (s.reg pgKvd 0x100) 31
def State.kvdCtx (s : State) : Nat := fld (s.reg pgKvd 0x100) 30 28
def State.kvdLayers (s : State) : Nat := fld (s.reg pgKvd 0x104) 24 16

/-! Directory entries (R350). -/

namespace Kd
def state (d : BitVec 256) : Nat := dfld d 0 63 62
def ctx (d : BitVec 256) : Nat := dfld d 0 61 59
def drops (d : BitVec 256) : Bool := dbit d 0 58
def len (d : BitVec 256) : Nat := dfld d 0 47 24
def sink (d : BitVec 256) : Nat := dfld d 0 23 16
def recent (d : BitVec 256) : Nat := max 1 (dfld d 0 15 8)
def maxpg (d : BitVec 256) : Nat := dfld d 8 63 48
def pt (d : BitVec 256) : Nat := dfld d 8 44 0
def budget (d : BitVec 256) : Nat := dfld d 0x10 63 48
def outbase (d : BitVec 256) : Nat := dfld d 0x10 44 0
def nres (d : BitVec 256) : Nat := dfld d 0x18 63 48
def massv (d : BitVec 256) : Nat := dfld d 0x18 44 0
/-- groups of the sequence -/
def groups (d : BitVec 256) : Nat := cdiv (len d) 64
end Kd

def State.seqEntry (s : State) (q : Nat) : BitVec 256 := Store.get 0 s.kvd.dir q

def State.setSeq (s : State) (q : Nat) (d : BitVec 256) : State := s.onKvd fun k => { k with dir := Store.set 0 k.dir q d }

def State.setLen (s : State) (q n : Nat) : State := s.setSeq q (setFld (s.seqEntry q) 47 24 n)
def State.setNres (s : State) (q n : Nat) : State := s.setSeq q (setFld (s.seqEntry q) (192 + 63) (192 + 48) n)

/-- Is a sequence context ASSIGNED to the KVD's context? -/
def State.seqOurs (s : State) (q : Nat) : Bool := Kd.state (s.seqEntry q) = 1 && Kd.ctx (s.seqEntry q) = s.kvdCtx

def State.ourSeqs (s : State) : List Nat := (s.kvd.dir.map (·.1)).filter s.seqOurs

/-! Page-table entries (R351). -/

def State.groupAddr (s : State) (q p : Nat) : Nat := Kd.pt (s.seqEntry q) + p * (16 + 8 * s.kvdLayers)

/-- The header of a group. -/
def State.groupHead (s : State) (q p : Nat) : BitVec 128 := bitsOf 128 (s.tiers.localBytes (s.groupAddr q p) 16)

namespace Gh
def loc (h : BitVec 128) : Nat := dfld h 0 63 62
def moving (h : BitVec 128) : Bool := dbit h 0 61
def backed (h : BitVec 128) : Bool := dbit h 0 60
def fill (h : BitVec 128) : Nat := dfld h 0 38 32
def score (h : BitVec 128) : Nat := dfld h 8 31 0
end Gh

/-- Write a header. -/
def State.putHead (s : State) (q p loc : Nat) (moving backed : Bool) (fill score : Nat) : State :=
  s.localWrite (s.groupAddr q p)
    (natLe 8 (loc * 2 ^ 62 + moving.toNat * 2 ^ 61 + backed.toNat * 2 ^ 60 + fill * 2 ^ 32) ++ natLe 8 score)

/-- Write the slot words of a group. -/
def State.putSlots (s : State) (q p : Nat) (as : List Nat) : State :=
  s.localWrite (s.groupAddr q p + 16) ((as.map fun a => natLe 8 a).flatten)

def State.slotWord (s : State) (q p l : Nat) : Nat := s.tiers.localNum (s.groupAddr q p + 16 + 8 * l) 8 % 2 ^ 45

def State.kvSlotAddr (s : State) (n : Nat) : Nat := nearBase + s.kvdFirst * 0x200000 + n * (2 * s.kvdPslot)
def State.kvSlotAt (s : State) (a : Nat) : Nat := (a - nearBase - s.kvdFirst * 0x200000) / (2 * s.kvdPslot)

def State.groupSlots (s : State) (q p : Nat) : List Nat :=
  (List.range s.kvdLayers).map fun l => s.kvSlotAt (s.slotWord q p l)

/-- The backing copy of a group (R352). -/
def State.backing (s : State) (q p l : Nat) : Nat :=
  Kd.outbase (s.seqEntry q) + (p * s.kvdLayers + l) * (2 * s.kvdPslot)

/-! Slots. -/

def State.setKvSlot (s : State) (n st : Nat) : State := s.onKvd fun k => { k with slots := Store.set 0 k.slots n st }

/-- A slot that a move, a drop or an end leaves behind (R362). -/
def State.releaseSlots (s : State) (q : Nat) (ns : List Nat) : State :=
  ns.foldl (fun s n => s.setKvSlot n (if s.kvd.walked.contains q then 2 else if s.pageHeld (s.kvdSlotPage n) then 3 else 0)) s

/-- Take a free slot; which one is open, and a free value picks it. -/
def State.takeSlot (s : State) : Nat × State :=
  let fs := s.kvdFreeSlots
  let x := s.draw
  let n := fs.getD (x.1.toNat % max 1 fs.length) 0
  (n, x.2.setKvSlot n 1)

def State.takeSlots (s : State) (n : Nat) : List Nat × State :=
  (List.range n).foldl (fun x _ =>
    let y := x.2.takeSlot
    (x.1 ++ [y.1], y.2)) ([], s)

/-- A group leaves the near tier: to its backing (`loc` 2) or dropped (3). -/
def State.leaveNear (s : State) (q p loc : Nat) : State :=
  let h := s.groupHead q p
  let t := s.releaseSlots q (s.groupSlots q p)
  let u := (t.putHead q p loc false (loc = 2 || Gh.backed h) (Gh.fill h) (Gh.score h)).putSlots q p
    (List.replicate s.kvdLayers 0)
  u.setNres q (Kd.nres (u.seqEntry q) - 1)

/-- Set `MOVING` of a group. -/
def State.setMoving (s : State) (q p : Nat) (b : Bool) : State :=
  let h := s.groupHead q p
  s.putHead q p (Gh.loc h) b (Gh.backed h) (Gh.fill h) (Gh.score h)

/-! Eviction (R355, R356). -/

def protectedGroup (d : BitVec 256) (p : Nat) : Bool := p < Kd.sink d || Kd.groups d ≤ p + Kd.recent d

/-- Near groups of a sequence that may be evicted: score, group, sequence. -/
def State.evictable (s : State) (q : Nat) : List (Val × Nat × Nat) :=
  let d := s.seqEntry q
  (List.range (Kd.groups d)).filterMap fun p =>
    let h := s.groupHead q p
    if Gh.loc h = 1 && !Gh.moving h && !protectedGroup d p then some (val32 (Gh.score h), p, q) else none

/-- The lower score first, then the lower group, then the lower sequence. -/
def evictBefore (a b : Val × Nat × Nat) : Bool :=
  a.1.lt b.1 || (!b.1.lt a.1 && (a.2.1 < b.2.1 || (a.2.1 = b.2.1 && a.2.2 < b.2.2)))

def firstBy {α : Type} (before : α → α → Bool) : List α → Option α
  | [] => none
  | a :: l => match firstBy before l with
    | none => some a
    | some b => if before b a then some b else some a

/-- The eviction victim among some sequences. -/
def State.kvVictim (s : State) (qs : List Nat) : Option (Val × Nat × Nat) :=
  firstBy evictBefore ((qs.map s.evictable).flatten)

/-- Evict a group (R356). -/
def State.evict (s : State) (q p : Nat) : State :=
  let d := s.seqEntry q
  if !Kd.drops d && Kd.outbase d != 0 then
    if Gh.backed (s.groupHead q p) then (s.leaveNear q p 2).countReg pgKvd 0x150 1
    else (s.setMoving q p true).onKvd fun k => { k with moves := k.moves ++ [⟨q, p, true, s.groupSlots q p⟩] }
  else (s.leaveNear q p 3).countReg pgKvd 0x154 1

/-- Slots that spills in flight will free at once. -/
def State.comingSlots (s : State) : Nat :=
  ((s.kvd.moves.filter fun m => m.spill && !s.kvd.walked.contains m.seq).map fun m => m.slots.length).sum

/-- Slots that are being freed: by spills in flight, at the next `STEP_END`, or once their page is not held. -/
def State.leavingSlots (s : State) : Nat :=
  ((s.kvd.moves.filter (·.spill)).map fun m => m.slots.length).sum +
    ((List.range s.kvdSlotCount).filter fun n => Store.get 0 s.kvd.slots n = 2 ||
      (Store.get 0 s.kvd.slots n = 3 && !s.kvdSlotFree n)).length

/-- Evict among some sequences while `more` holds and a candidate remains; `fuel` bounds the groups. -/
def State.evictWhile (qs : List Nat) (more : State → Bool) : Nat → State → State
  | 0, s => s
  | n + 1, s =>
    if !more s then s else match s.kvVictim qs with
      | none => s
      | some v => State.evictWhile qs more n (s.evict v.2.2 v.2.1)

/-- Near groups of the context, a bound on evictions. -/
def State.nearGroups (s : State) : Nat := (s.ourSeqs.map fun q => Kd.groups (s.seqEntry q)).sum

/-! The walk configuration (R357). -/

namespace Wk
def cores (d : BitVec 768) : Nat := dfld d 0 127 0
def scap (d : BitVec 768) : Nat := dfld d 0x10 63 48
def wout (d : BitVec 768) : Nat := dfld d 0x10 44 0
def wctr (d : BitVec 768) : Nat := dfld d 0x18 47 44
def hrep (d : BitVec 768) : Nat := dfld d 0x18 39 32
def wstride (d : BitVec 768) : Nat := dfld d 0x18 31 0
def rring (d : BitVec 768) : Nat := dfld d 0x20 47 0
def wring (d : BitVec 768) : Nat := dfld d 0x28 47 0
def lim (d : BitVec 768) (i : Nat) : Nat := dfld d (0x30 + 2 * i) 15 0
def npatch (d : BitVec 768) : Nat := dfld d 0x40 63 48
def patch (d : BitVec 768) : Nat := dfld d 0x40 44 0
/-- the logical cores that take walk work, in ascending order -/
def coreList (d : BitVec 768) : List Nat := (List.range 128).filter fun i => (cores d).testBit i
end Wk

def State.walkBlock (s : State) : BitVec 768 := bitsOf 768 (s.tiers.localBytes (s.addrPair pgKvd 0x13C) 96)

/-- M of R357. -/
def State.maxMaxpg (s : State) (ctx : Nat) : Nat :=
  (s.kvd.dir.map fun x => if Kd.state x.2 = 1 && Kd.ctx x.2 = ctx then Kd.maxpg x.2 else 0).foldl max 0

/-- Offset of the read chains in a core's output, and of the append chains (R359). -/
def walkD0 (d : BitVec 768) (m : Nat) : Nat := roundUp (64 + 16 * Wk.scap d + 8 * Wk.scap d * Wk.hrep d * m) 64
def walkD1 (d : BitVec 768) (m layers : Nat) : Nat := walkD0 d m + 64 * layers * Wk.scap d * m

/-- A stream descriptor of a walk (R360): ring parameters as in R357, `next` an offset in the near tier. -/
def walkDesc (dir mem psize ring : Nat) (next : Option Nat) : Nat :=
  (dir * 2 ^ 62 + mem) + 2 ^ 64 * (ring % 2 ^ 21) +
    2 ^ 128 * (2 ^ 44 + psize * 2 ^ 16 + ring / 2 ^ 32 % 2 ^ 16) +
    2 ^ 192 * (2 ^ 63 + ring / 2 ^ 21 % 8 * 2 ^ 60 + ring / 2 ^ 24 % 8 * 2 ^ 57 + ring / 2 ^ 27 % 2 * 2 ^ 56 +
      ring / 2 ^ 28 % 16 * 2 ^ 52 + (match next with | some a => 2 ^ 51 + a / 32 % 2 ^ 28 | none => 0))

/-- Does a ring break R226 or R227? -/
def State.ringRefused (s : State) (ring : Nat) : Bool :=
  let d : StreamDesc := BitVec.ofNat 256 (walkDesc 0 0 (s.kvdPslot / 64) ring none)
  streamBad d || ringBounds d

/-- Does firmware refuse the walk block of a run (R357)? -/
def State.walkRefused (s : State) (ctx : Nat) : Bool :=
  let d := s.walkBlock
  let m := s.maxMaxpg ctx
  dfld d 0x10 47 45 != 0 || dfld d 0x18 63 48 != 0 || dfld d 0x18 43 40 != 0 || dfld d 0x20 63 48 != 0 ||
    dfld d 0x28 63 48 != 0 || dfld d 0x40 47 45 != 0 || dfld d 0x48 191 0 != 0 ||
    (Wk.coreList d).any (fun l => !(s.claims ctx).cores.contains l) ||
    Wk.scap d = 0 || 4096 < Wk.scap d || Wk.hrep d = 0 || 64 < Wk.hrep d || Wk.wout d % 64 != 0 || Wk.patch d % 8 != 0 ||
    (List.range 7).any (fun i => Wk.lim d (i + 1) ≤ Wk.lim d i) || Wk.lim d 7 != 0xFFFF ||
    s.ringRefused (Wk.rring d) || s.ringRefused (Wk.wring d) ||
    64 * Wk.wstride d < walkD0 d m + 128 * s.kvdLayers * Wk.scap d * m ||
    Wk.wout d < nearBase ||
    !s.inPinned ctx (Wk.wout d - nearBase) ((Wk.coreList d).length * (64 * Wk.wstride d))

/-! Enabling (R348, R352). -/

/-- Is a span at a near-tier local address inside the context's pinned pages? -/
def State.pinnedLocal (s : State) (ctx a n : Nat) : Bool :=
  nearBase ≤ a && a + n ≤ nearBase + nearSize && s.inPinned ctx (a - nearBase) n

/-- An entry that the check of `EN` refuses. -/
def State.seqRefused (s : State) (ctx q : Nat) : Bool :=
  let d := s.seqEntry q
  Kd.state d = 1 && Kd.ctx d = ctx &&
    (!s.pinnedLocal ctx (Kd.pt d) (Kd.maxpg d * (16 + 8 * s.kvdLayers)) || !s.pinnedLocal ctx (Kd.massv d) (256 * Kd.maxpg d) ||
      (Kd.outbase d != 0 && (outerSize s.dev.variant < Kd.outbase d + Kd.maxpg d * s.kvdLayers * (2 * s.kvdPslot) ||
        !s.mayOuter ctx (Kd.outbase d) (Kd.maxpg d * s.kvdLayers * (2 * s.kvdPslot)) true)))

/-- Do the checks of `EN` fail? -/
def State.kvdRefused (s : State) : Bool :=
  let g := s.reg pgKvd 0x104
  fld g 5 0 = 0 || 32 < fld g 5 0 || s.kvdLayers = 0 || 256 < s.kvdLayers || s.kvdPages = 0 ||
    !s.tiers.freeAt s.kvdFirst s.kvdPages || (s.kvd.dir.any fun x => s.seqRefused s.kvdCtx x.1)

/-- A write of `KVD_CTRL`: while `EN` is 1 only a write of `EN` = 0 acts. -/
def State.kvdCtrlWrite (s : State) (v : Word) : State :=
  if bit (s.reg pgKvd 0x100) 31 then (if bit v 31 then s else s.setRegBit pgKvd 0x100 31 false)
  else
    let t := s.setReg pgKvd 0x100 (v &&& 0x70000000)
    if !bit v 31 then t
    else if t.kvdRefused then t.errSet pgKvd 0
    else (((t.setPages t.kvdFirst t.kvdPages ⟨3, t.kvdCtx, 0⟩).setRegBit pgKvd 0x100 31 true).onKvd fun k =>
      { Kvd.reset with dir := k.dir, clearing := true, slots := [(0, 1), (1, 1)] })

/-- A write of `KVD_DIR_SEL` (R350, R367). The fields that the KVD alone writes stay. -/
def State.dirSelWrite (s : State) (r : Requester) (v : Word) : State :=
  let q := fld v 11 0
  let t := s.setReg pgKvd 0x200 (BitVec.ofNat 32 q)
  if r != .host && bit v 31 then
    if s.kvd.phase != 0 then t else
    let n := ((List.range 8).map fun j => (s.reg pgKvd (0x210 + 4 * j)).toNat * 2 ^ (32 * j)).sum
    let d := BitVec.ofNat 256 n &&& BitVec.ofNat 256
      (0xFC00000000FFFF00 + 2 ^ 64 * 0xFFFF1FFFFFFFFFFF + 2 ^ 128 * 0xFFFF1FFFFFFFFFFF + 2 ^ 192 * 0x00001FFFFFFFFFFF)
    t.setSeq q (setFld (setFld d 47 24 (Kd.len (s.seqEntry q))) (192 + 63) (192 + 48) (Kd.nres (s.seqEntry q)))
  else
    (List.range 8).foldl (fun t j => t.setReg pgKvd (0x210 + 4 * j) (BitVec.ofNat 32 (dfld (s.seqEntry q) (4 * j) 31 0))) t

/-! Admission (R353, R354). -/

/-- Empty a sequence: near slots are freed, `LEN` and every header become 0. -/
def State.emptySeq (s : State) (q : Nat) : State :=
  let d := s.seqEntry q
  let t := (List.range (Kd.groups d)).foldl (fun t p =>
    if Gh.loc (s.groupHead q p) = 1 then t.releaseSlots q (s.groupSlots q p) else t) s
  ((t.localWrite (Kd.pt d) (List.replicate (Kd.maxpg d * (16 + 8 * s.kvdLayers)) 0)).setLen q 0).setNres q 0

/-- Valid tokens of a group of a sequence of `len` tokens. -/
def fillOf (len p : Nat) : Nat := min 64 (len - 64 * p)

/-- Append n tokens to a sequence: the slots are there. -/
def State.appendTokens (s : State) (q n : Nat) : State :=
  let d := s.seqEntry q
  let len := Kd.len d + n
  let g := Kd.groups d
  let ps := ((List.range (cdiv len 64)).filter fun p => Kd.len d / 64 ≤ p && n != 0)
  let t := ps.foldl (fun t p =>
    if p < g then
      let h := t.groupHead q p
      t.putHead q p (Gh.loc h) (Gh.moving h) (Gh.backed h) (fillOf len p) (Gh.score h)
    else
      let x := t.takeSlots s.kvdLayers
      (x.2.putHead q p 1 false false (fillOf len p) 0).putSlots q p (x.1.map s.kvSlotAddr)) s
  (t.setNres q (Kd.nres d + (cdiv len 64 - g))).setLen q len

/-- What an entry comes to: a state and a status, or that it waits for moves. -/
inductive Admitted where
  | done (s : State) (status : Nat)
  | wait (s : State)

/-- The state that an entry leaves. -/
def Admitted.state : Admitted → State
  | .done s _ => s
  | .wait s => s

/-- The KVD is full. -/
def State.stepFull (s : State) : Admitted := .done (s.countReg pgKvd 0x15C 1) 1

/-- `STEP` of a sequence once evictions are asked for: `need` slots. -/
def State.stepRoom (s : State) (q n need : Nat) : Admitted :=
  if s.kvdFreeSlots.length + s.comingSlots < need then s.stepFull
  else if s.kvdFreeSlots.length < need then .wait s
  else .done ((s.appendTokens q n).onKvd fun k => { k with stepped := k.stepped ++ [(q, Kd.len (s.seqEntry q), n)] }) 0

/-- `STEP` of a sequence (R354): more slots than are free are evicted for. -/
def State.stepSeq (s : State) (q n : Nat) : Admitted :=
  let d := s.seqEntry q
  let w := s.walkBlock
  let groups := cdiv (Kd.len d + n) 64
  let need := (groups - Kd.groups d) * s.kvdLayers
  if Kd.maxpg d < groups || Wk.scap w * (Wk.coreList w).length ≤ s.kvd.stepped.length then s.stepFull
  else
    (s.evictWhile s.ourSeqs (fun t => t.kvdFreeSlots.length + t.comingSlots < need) s.nearGroups).stepRoom q n need

/-- One batch entry (R353, R354). -/
def State.admitEntry (s : State) (e : Nat) : Admitted :=
  let q := e % 4096
  let op := e / 2 ^ 14 % 4
  let new := e / 2 ^ 16 % 2 ^ 16
  if e / 2 ^ 32 != 0 || e / 2 ^ 12 % 4 != 0 || op = 3 || !s.seqOurs q || s.kvd.seen.contains q then .done s 2
  else if op = 0 then s.stepSeq q new
  else if s.kvd.moves.any (·.seq = q) then .wait s
  else if op = 2 then .done (s.emptySeq q) 3
  else (s.emptySeq q).stepSeq q new

def State.batchEntry (s : State) (i : Nat) : Nat := s.tiers.localNum (s.addrPair pgKvd 0x128 + 8 * i) 8
def State.batchCount (s : State) : Nat := min 4096 (fld (s.reg pgKvd 0x130) 12 0)

/-- Write the result word of entry i and go on to the next. -/
def State.putResult (s : State) (i e status : Nat) : State :=
  (s.localWrite (s.addrPair pgKvd 0x134 + 4 * i) (natLe 4 (status * 2 ^ 28 + Kd.len (s.seqEntry (e % 4096))))).onKvd fun k =>
    { k with cursor := i + 1, seen := e % 4096 :: k.seen }

/-- What an entry comes to: whether the next one follows, and the state. -/
def State.entryDone (s : State) : Admitted → Bool × State
  | .wait t => (false, t)
  | .done t st => (true, t.putResult s.kvd.cursor (s.batchEntry s.kvd.cursor) st)

/-- Take one entry, or end the batch. -/
def State.admitNext (s : State) : Bool × State :=
  if s.batchCount ≤ s.kvd.cursor then (false, (s.onKvd fun k => { k with phase := 0, due := true }).raise pgKvd 0)
  else s.entryDone (s.admitEntry (s.batchEntry s.kvd.cursor))

/-- Take entries in list order until one waits or none is left. -/
def State.admitLoop : Nat → State → State
  | 0, s => s
  | n + 1, s => if s.admitNext.1 then State.admitLoop n s.admitNext.2 else s.admitNext.2

/-- Go on with an `ADMIT` that waited. -/
def State.admitOn (s : State) : State :=
  if s.kvd.phase = 1 && !s.kvd.clearing then s.admitLoop (s.batchCount - s.kvd.cursor + 1) else s

/-- `ADMIT` begins. -/
def State.admitBatch (s : State) : State :=
  (s.onKvd fun k => { k with phase := 1, cursor := 0, seen := [], stepped := [], due := false }).admitOn

/-! Scores (R363). -/

/-- The new score of a group, and how many of its masses were bad. -/
def State.foldScore (s : State) (q p : Nat) : Nat × Nat :=
  let h := s.groupHead q p
  let start := (fmul32 .zero (val32 (s.reg pgKvd 0x114).toNat) (val32 (Gh.score h))).1
  let r := (List.range (Gh.fill h)).foldl (fun (x : Val × Nat) t =>
    let m := val32 (s.tiers.localNum (Kd.massv (s.seqEntry q) + 4 * (64 * p + t)) 4)
    if m.finite then ((fadd32 .zero x.1 m).1, x.2) else ((fadd32 .zero x.1 .zero).1, x.2 + 1)) (start, 0)
  ((round32 r.1).code, r.2)

/-- Fold the scores of a sequence. -/
def State.foldSeq (s : State) (q : Nat) : State :=
  let d := s.seqEntry q
  let t := (List.range (Kd.groups d)).foldl (fun t p =>
    let h := t.groupHead q p
    if Gh.loc h = 1 || Gh.loc h = 2 then
      let x := t.foldScore q p
      (t.putHead q p (Gh.loc h) (Gh.moving h) (Gh.backed h) (Gh.fill h) x.1).countReg pgKvd 0x160 x.2
    else t) s
  t.localWrite (Kd.massv d) (List.replicate (256 * Kd.groups d) 0)

/-- Numbers in rising order. -/
def sortNats (l : List Nat) : List Nat := l.foldr insertSorted []

/-- `STEP_END` (R363, R362). -/
def State.stepEnd (s : State) : State :=
  let t := (sortNats (s.kvd.stepped.map (·.1))).foldl State.foldSeq s
  (t.wrapReg pgKvd 0x11C 1).onKvd fun k => { k with
    phase := 3, stepped := [], due := false, starts := [], walked := [],
    slots := k.slots.map fun x => if x.2 = 2 then (x.1, 3) else x }

/-- A write of `KVD_CMD` (R365, R367). -/
def State.kvdCmdWrite (s : State) (v : Word) : State :=
  if !s.kvdOn || !(fld v 1 0 = 1 || fld v 1 0 = 2) then s
  else if s.kvd.phase != 0 then s.errSet pgKvd 1
  else if fld v 1 0 = 1 then s.admitBatch
  else s.stepEnd

/-! Moves (R362, R364). -/

/-- Spilled groups that may be promoted: score, group, sequence. -/
def State.promotable (s : State) (q : Nat) : List (Val × Nat × Nat) :=
  let d := s.seqEntry q
  let coming := (s.kvd.moves.filter fun m => m.seq = q && !m.spill).length
  if Kd.budget d != 0 && Kd.budget d ≤ Kd.nres d + coming then [] else
  (List.range (Kd.groups d)).filterMap fun p =>
    let h := s.groupHead q p
    if Gh.loc h = 2 && !Gh.moving h then some (val32 (Gh.score h), p, q) else none

/-- The higher score first, then the higher group, then the lower sequence. -/
def promoteBefore (a b : Val × Nat × Nat) : Bool :=
  b.1.lt a.1 || (!a.1.lt b.1 && (b.2.1 < a.2.1 || (a.2.1 = b.2.1 && a.2.2 < b.2.2)))

/-- Fetch groups back while slots and `KVD_PFMAX` allow. -/
def State.fetchBack (low : Nat) : Nat → State → State
  | 0, s => s
  | n + 1, s =>
    if s.kvdFreeSlots.length < low + s.kvdLayers then s else
    match firstBy promoteBefore ((s.ourSeqs.map s.promotable).flatten) with
    | none => s
    | some v =>
      let x := s.takeSlots s.kvdLayers
      State.fetchBack low n ((x.2.setMoving v.2.2 v.2.1 true).onKvd fun k =>
        { k with moves := k.moves ++ [⟨v.2.2, v.2.1, false, x.1⟩] })

/-- The budget of a sequence: groups near, less those on their way out. -/
def State.overBudget (q : Nat) (s : State) : Bool :=
  let d := s.seqEntry q
  Kd.budget d != 0 && Kd.budget d + (s.kvd.moves.filter fun m => m.seq = q && m.spill).length < Kd.nres d

/-- The three stages of R364. -/
def State.maintain (s : State) : State :=
  let low := fld (s.reg pgKvd 0x110) 19 0
  let s1 := s.ourSeqs.foldl (fun s q => s.evictWhile [q] (State.overBudget q) (Kd.groups (s.seqEntry q))) s
  let s2 := s1.evictWhile s1.ourSeqs (fun t => t.kvdFreeSlots.length + t.leavingSlots < low) s1.nearGroups
  let s3 := State.fetchBack low (fld (s.reg pgKvd 0x118) 15 0) s2
  (s3.onKvd fun k => { k with phase := 0 }).raise pgKvd 1

/-- The copies of a move: slot address, backing address. -/
def State.moveSpans (s : State) (m : KvdMove) : List (Nat × Nat) :=
  m.slots.zipIdx.map fun x => (s.kvSlotAddr x.1, s.backing m.seq m.group x.2)

/-- Does a copy meet `POISON_INPUT`: a word of the near tier on the way out, a block of the backing on the way back? -/
def State.movePoison (s : State) (m : KvdMove) : Bool :=
  (s.moveSpans m).any fun x => if m.spill then s.tiers.localBad x.1 (2 * s.kvdPslot) else s.tiers.poisoned x.2 (2 * s.kvdPslot)

/-- Does a copy wait for a block under repair? -/
def State.moveHeld (s : State) (m : KvdMove) : Bool := (s.moveSpans m).any fun x => s.tiers.repairing x.2 (2 * s.kvdPslot)

/-- A move that met poison drops its group (R362). -/
def State.movePoisoned (s : State) (m : KvdMove) : State :=
  let t := if m.spill then s.leaveNear m.seq m.group 3 else
    let h := s.groupHead m.seq m.group
    (m.slots.foldl (fun s n => s.setKvSlot n 0) s).putHead m.seq m.group 3 false (Gh.backed h) (Gh.fill h) (Gh.score h)
  (((t.countReg pgKvd 0x164 1).errSet pgKvd 2).errCount pgKvd 1).raise pgKvd 2

/-- Every copy of a move has been written: `LOC` and slot words switch (R362, R364). -/
def State.moveDone (s : State) (m : KvdMove) : State :=
  let n := 2 * s.kvdPslot
  if s.movePoison m then s.movePoisoned m
  else if m.spill then
    (((s.moveSpans m).foldl (fun s x => s.localWrite x.2 (s.tiers.localBytes x.1 n)) s).leaveNear m.seq m.group 2).countReg
      pgKvd 0x150 1
  else
    let t := (s.moveSpans m).foldl (fun s x => (s.chargeRead .read x.2 n).localWrite x.1 (s.tiers.localBytes x.2 n)) s
    let h := t.groupHead m.seq m.group
    (((t.putHead m.seq m.group 1 false true (Gh.fill h) (Gh.score h)).putSlots m.seq m.group (m.slots.map s.kvSlotAddr)).setNres
      m.seq (Kd.nres (s.seqEntry m.seq) + 1)).countReg pgKvd 0x158 1

/-! Walks (R358-R361). -/

/-- A stepped sequence as the deal sees it. -/
structure WalkSeq where
  seq : Nat
  g : Nat
  a : Nat
  len : Nat
  new : Nat
  first : Nat
  deriving DecidableEq, Repr

def walkSeq (x : Nat × Nat × Nat) : WalkSeq :=
  let len := x.2.1 + x.2.2
  ⟨x.1, cdiv len 64, if x.2.2 = 0 then 0 else cdiv len 64 - x.2.1 / 64, len, x.2.2, x.2.1 / 64⟩

def insertSeq (x : WalkSeq) : List WalkSeq → List WalkSeq
  | [] => [x]
  | y :: l => if x.seq < y.seq then x :: y :: l else y :: insertSeq x l

def sortSeqs (l : List WalkSeq) : List WalkSeq := l.foldr insertSeq []

/-- The band of a sequence: the lowest limit it does not exceed. -/
def bandOf (d : BitVec 768) (g : Nat) : Nat := ((List.range 8).find? fun i => g ≤ Wk.lim d i).getD 7

def maxOf (f : WalkSeq → Nat) (l : List WalkSeq) : Nat := (l.map f).foldl max 0

/-- Merge the two lowest buckets while the cores do not suffice (R358). -/
def mergeBuckets (scap ncores : Nat) : Nat → List (List WalkSeq) → List (List WalkSeq)
  | 0, bk => bk
  | f + 1, bk => match bk with
    | a :: b :: rest =>
      if ncores < (bk.map fun l => cdiv l.length scap).sum then mergeBuckets scap ncores f (sortSeqs (a ++ b) :: rest) else bk
    | _ => bk

/-- Give the remaining cores away, one at a time, to the bucket with the most work per core (R358). -/
def spreadCores (bk : List (List WalkSeq)) : Nat → List Nat → List Nat
  | 0, n => n
  | f + 1, n =>
    let work := fun j => (bk.getD j []).length * maxOf (·.g) (bk.getD j [])
    let ok := (List.range bk.length).filter fun j => n.getD j 0 < (bk.getD j []).length
    match firstBy (fun i j => decide (work j * n.getD i 0 < work i * n.getD j 0) ||
        (work j * n.getD i 0 = work i * n.getD j 0 && i < j)) ok with
    | none => n
    | some j => spreadCores bk f (n.set j (n.getD j 0 + 1))

/-- The buckets and their cores (R358). -/
def deal (d : BitVec 768) (qs : List WalkSeq) : List (List WalkSeq) × List Nat :=
  let ncores := (Wk.coreList d).length
  let bk := ((List.range 8).map fun b => qs.filter fun q => bandOf d q.g = b).filter (· != [])
  let bk := mergeBuckets (Wk.scap d) ncores 8 bk
  let n := bk.map fun l => cdiv l.length (Wk.scap d)
  (bk, spreadCores bk (ncores - n.sum) n)

/-- The work of one walk core: bucket index, sequences, P and Q. -/
structure CoreWalk where
  bucket : Nat
  seqs : List WalkSeq
  p : Nat
  q : Nat
  deriving DecidableEq, Repr

/-- S: a core without work has one empty sequence slot. -/
def CoreWalk.s (w : CoreWalk) : Nat := max 1 w.seqs.length

/-- Contiguous runs of a bucket's sequences on its cores, the first ones longer by one. -/
def dealRuns (l : List WalkSeq) (n : Nat) : List (List WalkSeq) :=
  (List.range n).map fun i =>
    let lo := i * (l.length / n) + min i (l.length % n)
    (l.drop lo).take (l.length / n + if i < l.length % n then 1 else 0)

/-- The work of every walk core, in walk-index order; `idle` is the bucket index that a core without work shows. -/
def coreWalks (d : BitVec 768) (qs : List WalkSeq) (idle : Nat) : List CoreWalk :=
  let x := deal d qs
  let busy := (((x.1.zip x.2).zipIdx.map fun y =>
    (dealRuns y.1.1 y.1.2).map fun r => CoreWalk.mk y.2 r (maxOf (·.g) y.1.1) (max 1 (maxOf (·.a) y.1.1)))).flatten
  busy ++ List.replicate ((Wk.coreList d).length - busy.length) ⟨idle, [], 1, 1⟩

/-- The 16 bytes of a sequence slot (R359). -/
def seqSlot (x : Option WalkSeq) : List Byte :=
  match x with
  | none => natLe 16 0xFFFF
  | some q => natLe 8 (q.seq + q.len % 2 ^ 24 * 2 ^ 16 + q.g % 2 ^ 16 * 2 ^ 40) ++ natLe 8 (q.new % 2 ^ 24 + q.first % 2 ^ 16 * 2 ^ 24)

/-- The mask bits of one group. -/
def State.maskWord (s : State) (q : WalkSeq) (p : Nat) : Nat :=
  let loc := Gh.loc (s.groupHead q.seq p)
  if p < q.g && (loc = 1 || loc = 2) then 2 ^ fillOf q.len p - 1 else 0

/-- The mask of a core: `HREP` rows for each sequence slot (R186, R359). -/
def State.walkMask (s : State) (d : BitVec 768) (w : CoreWalk) : List Byte :=
  ((List.range w.s).map fun i => (List.replicate (Wk.hrep d) (match w.seqs[i]? with
    | none => List.replicate (8 * w.p) 0
    | some q => ((List.range w.p).map fun p => natLe 8 (s.maskWord q p)).flatten)).flatten).flatten

/-- `MEM` of a read descriptor: layer, K or V, sequence slot, position (R360). -/
def State.readMem (s : State) (w : CoreWalk) (l k i p : Nat) : Nat :=
  let null := s.kvSlotAddr 0
  k * s.kvdPslot + match w.seqs[i]? with
    | none => null
    | some q =>
      if q.g ≤ p then null else match Gh.loc (s.groupHead q.seq p) with
        | 1 => s.slotWord q.seq p l
        | 2 => s.backing q.seq p l
        | _ => null

/-- `MEM` of an append descriptor. -/
def State.appendMem (s : State) (w : CoreWalk) (l k i j : Nat) : Nat :=
  k * s.kvdPslot + match w.seqs[i]? with
    | none => s.kvSlotAddr 1
    | some q => if j < q.a then s.slotWord q.seq (q.first + j) l else s.kvSlotAddr 1

/-- Write a chain of descriptors at a near-tier local address. -/
def State.putChain (s : State) (dir ring head : Nat) (mems : List Nat) : State :=
  let n := mems.length
  s.localWrite head ((mems.zipIdx.map fun x =>
    natLe 32 (walkDesc dir (s.ownId * 2 ^ 45 + x.1) (s.kvdPslot / 64) ring
      (if x.2 + 1 < n then some (head - nearBase + 32 * (x.2 + 1)) else none))).flatten)

/-- Emit the chains of layer l for a core whose output lies at `base`, and signal it (R361 step 6). -/
def State.emitLayer (s : State) (d : BitVec 768) (m base lcore : Nat) (w : CoreWalk) (l : Nat) : State :=
  let n := s.kvdLayers
  let t := (List.range 2).foldl (fun t k =>
    let reads := ((List.range w.s).map fun i => (List.range w.p).map fun p => s.readMem w l k i p).flatten
    let apps := ((List.range w.s).map fun i => (List.range w.q).map fun j => s.appendMem w l k i j).flatten
    (t.putChain 0 (Wk.rring d) (base + walkD0 d m + 32 * ((2 * l + k) * (w.s * w.p))) reads).putChain 1 (Wk.wring d)
      (base + walkD1 d m n + 32 * ((2 * l + k) * (w.s * w.q))) apps) s
  { t with signals := t.signals ++ [⟨137, lcore, Wk.wctr d, 1, true, none⟩] }

/-- A patch entry: descriptor address, value code, logical core (R361 step 3). -/
def State.patchEntry (s : State) (d : BitVec 768) (i : Nat) : Nat × Nat × Nat :=
  let e := s.tiers.localNum (Wk.patch d + 8 * i) 8
  (e % 2 ^ 45, e / 2 ^ 48 % 4, e / 2 ^ 56 % 128)

/-- Is the descriptor of a patch entry a `LOOP` in the near tier? -/
def State.patchLoop (s : State) (a : Nat) : Bool :=
  nearBase ≤ a && a + 64 ≤ nearBase + nearSize && s.tiers.localNum a 1 = 2

/-- The value of a patch entry; none where it does not fit `ITER` or the core takes no walk work: the spec states no
value there. -/
def patchValue (cores : List (Nat × CoreWalk)) (code lcore : Nat) : Option Nat :=
  match cores.find? (·.1 = lcore) with
  | none => none
  | some x =>
    let v := match code with | 0 => x.2.s | 1 => x.2.p | 2 => x.2.q | _ => x.2.s * x.2.p
    if v < 65536 then some v else none

/-- Write one patch. -/
def State.walkPatch (s : State) (cores : List (Nat × CoreWalk)) (e : Nat × Nat × Nat) : State :=
  if !s.patchLoop e.1 then s else
  match patchValue cores e.2.1 e.2.2 with
  | some v => s.localWrite (e.1 + 0xA) (natLe 2 v)
  | none =>
    let x := s.freeBytes 2
    x.2.localWrite (e.1 + 0xA) x.1

/-- The header of a core's output (R359). -/
def State.walkHeader (s : State) (d : BitVec 768) (w : CoreWalk) (skipped : Nat) : List Byte :=
  natLe 4 (s.reg pgKvd 0x11C).toNat ++ natLe 2 w.s ++ natLe 2 w.p ++ natLe 2 w.q ++ natLe 1 w.bucket ++
    natLe 1 (Wk.hrep d) ++ natLe 2 s.kvdLayers ++ natLe 2 skipped ++ List.replicate 48 0

/-- What firmware does after `ADMIT` (R361). -/
def State.walkEmit (s : State) : State :=
  let d := s.walkBlock
  let m := s.maxMaxpg s.kvdCtx
  let x := s.draw
  let qs := sortSeqs (s.kvd.stepped.map walkSeq)
  let cores := (Wk.coreList d).zip (coreWalks d qs (x.1.toNat % 256))
  let base := fun c => Wk.wout d + c * (64 * Wk.wstride d)
  let es := (List.range (Wk.npatch d)).map (s.patchEntry d)
  let s1 := cores.zipIdx.foldl (fun t y =>
    let w := y.1.2
    let skipped := (es.filter fun e => e.2.2 = y.1.1 && !s.patchLoop e.1).length
    (t.localWrite (base y.2) (s.walkHeader d w skipped ++ ((List.range w.s).map fun i => seqSlot (w.seqs[i]?)).flatten)).localWrite
      (base y.2 + 64 + 16 * Wk.scap d) (s.walkMask d w)) x.2
  let s2 := es.foldl (fun t e => t.walkPatch cores e) s1
  let s3 := cores.foldl (fun t y => t.onCore (s.siteOf y.1) fun c => { c with dep := Store.set 0 c.dep (Wk.wctr d) 0 }) s2
  let s4 := s.kvd.starts.foldl (fun t n => t.listCtrl n 1) s3
  let s5 := (List.range s.kvdLayers).foldl (fun t l =>
    cores.zipIdx.foldl (fun t y => t.emitLayer d m (base y.2) y.1.1 y.1.2 l) t) s4
  s5.onKvd fun k => { k with due := false, starts := [], walked := (k.walked ++ qs.map (·.seq)).eraseDups }

/-- Does a run hold the KVD: by its units, or by sequence contexts? -/
def Claims.holdsKvd (c : Claims) : Bool := c.kvd || c.kv != []

/-- Do moves of the KVD of a context wait to be written, or are pages of its allotment held (R270)? -/
def State.kvdHeld (s : State) (ctx : Nat) : Bool :=
  (s.kvdOn && s.kvdCtx = ctx && (s.claims ctx).holdsKvd && s.kvd.moves != []) || s.pagesHeld ctx 3

/-- The run of a context ends: its entries, its allotment and `EN` (R348). -/
def State.kvdEnd (s : State) (ctx : Nat) : State :=
  let keep := fun (x : Nat × BitVec 256) => !((s.claims ctx).kv.any fun r => r.1 ≤ x.1 && x.1 ≤ r.2)
  let t := s.onKvd fun k => { k with dir := k.dir.filter keep }
  let u := t.freeHeldFor ctx 3
  if s.kvdCtx = ctx && (s.claims ctx).holdsKvd then
    (u.setRegBit pgKvd 0x100 31 false).onKvd fun k => { Kvd.reset with dir := k.dir }
  else u

/-! Commands. -/

/-- KVD_ENABLE (R348, R352). -/
def execKvdEnable (r : Requester) (v : Word) (s : State) : Host.Outcome State Fault Refusal :=
  .next (s.onWrite r pgKvd 0x100 fun s => s.kvdCtrlWrite v)

/-- KVD_DIR_SEL (R350, R367). -/
def execKvdDirSel (r : Requester) (v : Word) (s : State) : Host.Outcome State Fault Refusal :=
  .next (s.onWrite r pgKvd 0x200 fun s => s.dirSelWrite r v)

/-- KVD_CLEAR_DONE (R348): every page of the allotment holds zeros. -/
def execKvdClearDone (s : State) : Host.Outcome State Fault Refusal :=
  let a := s.kvdFirst * 0x200000
  let n := s.kvdPages * 0x200000
  .next (if s.kvdOn && s.kvd.clearing then
    ({ s with tiers := { s.tiers with
        near := dropSpan s.tiers.near a n
        nearPoison := s.tiers.nearPoison.filter fun x => 8 * x.1 < a || a + n ≤ 8 * x.1 } }.onKvd fun k =>
      { k with clearing := false }).admitOn
    else s)

/-- ADMIT: firmware writes `KVD_CMD` (R354, R365). -/
def execAdmitSeqs (s : State) : Host.Outcome State Fault Refusal :=
  .next (s.onWrite (.ctl 4) pgKvd 0x120 fun s => s.kvdCmdWrite 1)

/-- WALK_EMIT (R361). -/
def execWalkEmit (s : State) : Host.Outcome State Fault Refusal :=
  .next (if s.kvdOn && s.kvd.due then s.walkEmit else s)

/-- Has every list of the KVD's step in flight HALTED, its chains emitted (R365 row 4)? -/
def State.stepHalted (s : State) : Bool :=
  !s.kvd.due && s.ctl.opens.any fun e =>
    e.kind = 2 && e.ctx = s.kvdCtx && e.fold = some (s.reg pgKvd 0x11C).toNat &&
      e.sites.all fun n => (s.core n).seq.st = .halted

/-- STEP_END: firmware writes `KVD_CMD` once every list of the step is HALTED (R363, R365). -/
def execStepEnd (s : State) : Host.Outcome State Fault Refusal :=
  .next (if s.stepHalted then s.onWrite (.ctl 4) pgKvd 0x120 fun s => s.kvdCmdWrite 2 else s)

/-- KVD_MAINTENANCE (R364). -/
def execKvdMaintenance (s : State) : Host.Outcome State Fault Refusal :=
  .next (if s.kvdOn && s.kvd.phase = 3 then s.maintain else s)

/-- KVD_MOVE_DONE (R362): the n-th move in flight; an `ADMIT` that waited goes on. -/
def execKvdMoveDone (n : Nat) (s : State) : Host.Outcome State Fault Refusal :=
  .next (match s.kvd.moves[n]? with
    | none => s
    | some m =>
      if !s.kvdOn || s.moveHeld m then s
      else ((s.onKvd fun k => { k with moves := k.moves.eraseIdx n }).moveDone m).admitOn)

end Sys2Proof.Machine
end

