-- ==== Sys2Proof/Machine/Record.lean ====
section
/-!
DEFINITION. The schedule state record and the check of a replayed lap (18 R486-R490).
-/
namespace Sys2Proof.Machine

/-- `FLM_STATUS.PHASE`; a change raises the phase event (R492, R493). -/
def State.flmPhase (s : State) (ph : Nat) : State :=
  if fld (s.reg pgFlm 0x110) 31 28 = ph then s
  else (s.setReg pgFlm 0x110 (setFld (s.reg pgFlm 0x110) 31 28 ph)).raise pgFlm 2

/-! The record (R486, R487). -/

def recordRoom : Nat := 0x2000000

/-- Where the two copies of the record lie. -/
def State.recordBase (s : State) (ctx : Nat) : Option Nat :=
  let c := s.claims ctx
  if c.hvu then some (roundUp (s.slotAddr s.slotCount) 0x200000)
  else match c.owned.foldl (fun (m : Option Range) r => match m with
      | some q => if q.base < r.base then some r else m
      | none => some r) none with
    | some r => if 2 * recordRoom ≤ r.len then some (r.base + r.len - 2 * recordRoom) else none
    | none => none

/-- Sections of a run's record, in rising type. -/
def sections (c : Claims) : List Nat :=
  [1, 2] ++ (if c.cores = [] then [] else [3, 4]) ++ (if c.pacer then [5] else []) ++ (if c.kvd || c.kv != [] then [6] else []) ++
    (if c.mde || c.sau || c.pipes != [] then [7] else []) ++ (if c.hvu then [8] else []) ++
    (if c.keys = [] then [] else [9]) ++ (if c.hvu then [0xA] else [])

/-- The bytes of a record: section table and contents; the contents are free (log 45). -/
def State.recordBody (s : State) (lap : Nat) (ts : List Nat) : List Byte × State :=
  let lens := ts.map fun t => Config.recordLen t lap
  let rows := (ts.zip lens).foldl (fun (x : List Byte × Nat) q =>
    (x.1 ++ natLe 4 q.1 ++ natLe 8 x.2 ++ natLe 4 q.2, x.2 + q.2)) ([], 64 + 16 * ts.length)
  let f := s.freeBytes lens.sum
  (rows.1 ++ f.1, f.2)

/-- The 64-byte header. -/
def State.recordHeader (s : State) (ctx lap n : Nat) (body : List Byte) : List Byte :=
  natLe 4 1 ++ natLe 4 lap ++ natLe 2 (s.ctxEpoch ctx) ++ natLe 2 s.ownId ++ natLe 4 n ++ natLe 8 (64 + body.length) ++
    natLe 8 (crc64 body).toNat ++ List.replicate 32 0

/-- Registers that a record holds (R487): by page and offset. -/
def recordRegs : List (Nat × Nat) :=
  let span := fun (p a n : Nat) => (List.range n).map fun i => (p, a + 4 * i)
  span pgSch 0x100 2 ++ span pgSch 0x110 12 ++ [(pgTre 0, 0x100)] ++ span (pgTre 0) 0x300 4 ++
    span pgKvd 0x100 3 ++ span pgKvd 0x110 4 ++ span pgKvd 0x128 7 ++ span pgMde 0x128 2 ++ span pgMde 0x160 8 ++
    span pgSau 0x160 8 ++ span (pgHvu 0) 0x100 10 ++ [(pgHvu 0, 0x130)]

/-- Spans of memory that a record holds: page tables and mass vectors of `ASSIGNED` sequences, reduction records. -/
def State.recordSpans (s : State) (c : Claims) : List (Nat × Nat) :=
  (s.kvd.dir.filter (fun x => Kd.state x.2 = 1)).flatMap (fun x =>
    [(Kd.pt x.2, Kd.maxpg x.2 * (16 + 8 * s.kvdLayers)), (Kd.massv x.2, 256 * Kd.maxpg x.2)]) ++
    (if c.hvu then [(s.redAddr 0, 32 * s.bktCount)] else [])

/-- What the record of a lap holds. -/
def State.snapshot (s : State) (ctx lap addr len : Nat) : Snapshot :=
  let c := s.claims ctx
  let kept := fun (x : Core) => { x with spd := [], poison := [], row := ⟨[], [], [], []⟩, cnt := [], images := [] }
  { lap := lap, addr := addr, len := len
    regs := s.regs.filter fun x => recordRegs.any fun q => regKey q.1 q.2 = x.1
    sch := s.sch
    cores := c.cores.map fun l => (l, kept (s.core (s.siteOf l)))
    coreMap := s.dev.coreMap
    entry := s.tiers.pacer.entry
    cursor := s.tiers.pacer.cursor
    kvd := s.kvd
    input := s.input
    spans := (s.recordSpans c).map fun x => (x.1, s.tiers.localBytes x.1 x.2)
    keys := c.keys
    place := s.drawPlace ctx }

/-- Firmware's transfers of records and of a restore; they stay clear of those of group runs. -/
def mirrorClient (copy : Nat) : Client := .firmware (65536 + copy)

/-- The device keeps a mirror of its state on its buddy (R307). -/
def State.hasBuddy (s : State) (c : Claims) : Bool := c.hvu && s.buddyOn

/-- Capture the record of lap t (R486). -/
def State.captureRecord (s : State) (t : Nat) : State :=
  let ctx := s.schCtx
  let c := s.claims ctx
  let ts := sections c
  let b := s.recordBody t ts
  match s.recordBase ctx with
  | none => s.errSet pgFlm 3
  | some base =>
    if recordRoom < 64 + b.1.length then b.2.errSet pgFlm 3 else
    let a := base + t % 2 * recordRoom
    let bytes := s.recordHeader ctx t ts.length b.1 ++ b.1
    let s1 := b.2.localWrite a bytes
    let s2 := { s1 with
      flm := { s1.flm with records := (s1.flm.records.filter fun r => r.lap % 2 != t % 2) ++ [s.snapshot ctx t a bytes.length] }
      txns := s1.txns.filter fun x => x.client != mirrorClient (t % 2) }
    if s.hasBuddy c then
      s2.request (mirrorClient (t % 2)) ctx s.buddyDev (s.mirrorRec (2 * s.bktCount) + t % 2 * recordRoom) bytes.length (some bytes)
    else s2

/-- Is a record complete: its mirror writes acknowledged (R486)? -/
def State.recordComplete (s : State) (r : Snapshot) : Bool :=
  !s.txns.any fun x => x.client = mirrorClient (r.lap % 2) && (!x.done || x.status != 0)

/-- Does the CRC of a record's header cover its bytes (R488)? -/
def State.recordIntact (s : State) (r : Snapshot) : Bool :=
  let bs := s.tiers.localBytes r.addr r.len
  !s.tiers.localBad r.addr r.len && leNat ((bs.drop 0x18).take 8) = (crc64 (bs.drop 64)).toNat

/-- The record held of a lap. -/
def State.recordOf (s : State) (lap : Nat) : Option Snapshot :=
  s.flm.records.find? fun r => r.lap = lap && s.recordComplete r && s.recordIntact r

/-! The check of a replay (R489, R490). -/

/-- Words of the loss-log entry of a lap: lap, sum, count and flags. -/
def lossEntry (m : Store Word) (lap : Nat) : Word × Word × Word :=
  let w := fun (i : Nat) => Store.get 0 m (4 * (lap % 64) + i)
  (w 0, w 1, w 2)

/-- |L′ − L| ≤ 2^(−e) · |L|, exactly. -/
def lossNear (e : Nat) (a b : Val) : Bool :=
  a.finite && b.finite && !((b.abs.scale (-(e : Int))).lt (a.sub b).abs)

/-- Judge the lap that ended against its record. -/
def State.checkReplay (s : State) (t : Nat) : State :=
  match s.flm.replay with
  | none => s
  | some (lap, diverged) =>
    if lap != t then s else
    let new := lossEntry s.sch.lossLog t
    let old := match s.recordOf t with | some r => lossEntry r.sch.lossLog t | none => (0, 0, 0xFFFFFFFF)
    let checked := fld new.2.2 17 0 = fld old.2.2 17 0 && fld new.2.2 17 16 = 0 && (s.recordOf t).isSome
    let a := val32 new.2.1.toNat
    let b := val32 old.2.1.toNat
    let same := if s.reg pgMde 0x1BC = BitVec.ofNat 32 diverged then decide (new.2.1 = old.2.1)
      else lossNear (fld (s.reg pgFlm 0x108) 4 0) a b
    let f := s.draw
    let stated := a.finite && b.finite && !b.isZero
    let diff := if stated then (round32 (quotient (a.sub b).abs b.abs)).code else f.1.toNat % 2 ^ 32
    let s1 := { (if stated then s else f.2) with flm := { s.flm with replay := none } }
    let s2 := s1.setRegBit pgFlm 0x110 16 checked
    if !checked then (s2.flmLog 0x15 4 0 (new.2.1.toNat * 2 ^ 32 + old.2.1.toNat)).flmPhase 0
    else
      let s3 := (s2.setReg pgFlm 0x12C (BitVec.ofNat 32 diff)).setRegBit pgFlm 0x110 17 same
      let s4 := s3.flmLog 0x15 (if same then 4 else 3) 0 (new.2.1.toNat * 2 ^ 32 + old.2.1.toNat)
      if same then s4.flmPhase 0
      else (({ s4 with flm := { s4.flm with hold := true } }.errSet pgFlm 2).raise pgFlm 3).flmPhase 3

end Sys2Proof.Machine
end

