-- ==== Sys2Proof/Machine/Flm.lean ====
section
/-!
DEFINITION. The fault manager: windowed counters, what a lasting fault starts, sparing, retirement and takeover
(18 R471-R480, R482).
-/
namespace Sys2Proof.Machine

/-! Ports that leave service. -/

/-- Change the state of a port; its state-change event is raised (R406). -/
def State.portState (s : State) (p st : Nat) : State :=
  let x := s.port p
  if x.st = st then s else (s.setPort p { x with st := st, since := s.dev.time }).raise (pgFl p) 0

/-- What a port discards when it leaves service: relay, credits and buffers (R404). -/
def State.portDrop (s : State) (p st : Nat) : State :=
  let was := (s.port p).st
  let t := s.portState p st
  let u := t.setPort p { Port.reset with st := st, since := s.dev.time }
  let v := { u with
    sch := { u.sch with waiting := u.sch.waiting.filter (·.1 / 2 != p) }
    links := { u.links with stalled := u.links.stalled.filter (·.1 != p) } }
  if st = 1 && 3 ≤ was then v.errSet (pgFl p) 2 else v

/-! A lost device. -/

/-- A device of the job is lost (R482): the anchor declares it; any other device reports it to the anchor. -/
def State.declareLoss (s : State) (d : Nat) : State :=
  if s.dev.anchor then
    ((s.setReg pgFlm 0x118 (BitVec.ofNat 32 (2 ^ 31 + d))).flmLog 0x13 1 d 0).flmPhase 1
  else s.flmLog 0x13 3 d 0

/-! Sites (R478). -/

/-- Spare sites of a half that may run a core. -/
def State.freeSites (s : State) (h : Nat) : List Nat :=
  ((List.range 68).map (68 * h + ·)).filter fun n => Store.get 0 s.sites n = 0 && (s.lcoreOf n).isNone

/-- The site is retired: state 2, powered OFF; a half without a spare is flagged (R478, R492). -/
def State.siteGone (s : State) (n : Nat) : State :=
  let t := { s with sites := Store.set 0 s.sites n 2 }
  let u := (t.onFlm fun f => { f with retired := f.retired ++ [n], toRetire := f.toRetire.filter (· != n) }).setIsland (pgCore n) 2
  let v := (u.setRegBit (pgCore n) 0xC 0 false).flmLog (Store.get 1 s.flm.lastKind n) 2 n 0
  if v.spares (n / 68) = 0 then v.service (6 + n / 68) else v

/-- State of R116 that cannot be read: poisoned SPD, side memory or near-tier slice. -/
def State.siteSpoiled (s : State) (l : Nat) : Bool :=
  let c := s.core (s.siteOf l)
  c.poison != [] || c.row.poison != [] || s.tiers.nearBad (0x3000000 * l) 0x3000000

/-- Does a core of a site belong to the run that the SCH drives, so that its laps bound what happens to it? -/
def State.heldBySch (s : State) (n : Nat) : Bool :=
  let c := s.core n
  s.schOn && c.ctxValid && c.ctx = s.schCtx

/-- Is the SCH at a lap boundary whose epoch is new, with no slot of the lap open yet (R345)? -/
def State.atBoundary (s : State) : Bool := s.schOn && s.sch.fresh && !s.sch.begun

/-- Does something wait for a lap that opens under a new epoch (R345)? -/
def State.wantsEpoch (s : State) : Bool := s.flm.toRetire != [] || s.flm.toMigrate != [] || s.flm.toDisable != []

/-- Adopt an epoch in a context (R345). -/
def State.adoptEpoch (s : State) (ctx e : Nat) : State :=
  (s.claims ctx).cores.foldl (fun s l => s.onCore (s.siteOf l) fun c => { c with epoch := e })
    (s.setReg pgSch (0x180 + 4 * ctx) (BitVec.ofNat 32 e))

/-- Nothing waits any longer for logical core l, or for the site it leaves. -/
def State.unplan (s : State) (l n : Nat) : State :=
  s.onFlm fun f => { f with toRetire := f.toRetire.filter (· != n), toMigrate := f.toMigrate.filter (·.1 != l) }

/-- The epoch of a job changes with a migration; that of the job of the SCH came with `LAP_GO` (R116, R345). -/
def State.newPlacement (s : State) (n : Nat) : State :=
  let c := s.core n
  if c.ctxValid && !s.heldBySch n then s.adoptEpoch c.ctx ((s.ctxEpoch c.ctx + 1) % 256) else s

/-- Move logical core l to site b (R116, R478): its list is stopped first, and the move waits for that. State that cannot be
read is not carried: the device is restored in place. -/
def State.moveCore (s : State) (l b : Nat) : State :=
  let a := s.siteOf l
  if (s.core a).seq.st = .running then s.listCtrl a 2
  else if s.siteSpoiled l then (s.unplan l a).declareLoss s.ownId
  else
    let t := ((s.migrate l b).newPlacement b).unplan l a
    if s.flm.toRetire.contains a then t.siteGone a else t

/-- Vacate a site that is to be retired, or lose the device (R478, R482). -/
def State.vacate (s : State) (n : Nat) : State :=
  match s.lcoreOf n, s.freeSites (n / 68) with
  | none, _ => s.siteGone n
  | some l, [] => (s.unplan l n).declareLoss s.ownId
  | some l, b :: _ => s.moveCore l b

/-- A migration that was asked for; a site that is no usable spare any longer takes none. -/
def State.plannedMove (s : State) (x : Nat × Nat) : State :=
  if (s.freeSites (x.2 / 68)).contains x.2 then s.moveCore x.1 x.2
  else s.onFlm fun f => { f with toMigrate := f.toMigrate.filter (· != x) }

/-- Retire a site: at the next lap boundary where the SCH drives its core, else at once (R16, R478). -/
def State.retireSite (s : State) (n : Nat) : State :=
  if Store.get 0 s.sites n = 2 || s.flm.toRetire.contains n then s
  else
    let t := s.onFlm fun f => { f with toRetire := f.toRetire ++ [n] }
    if s.heldBySch n && !s.atBoundary then t else t.vacate n

/-! Ports (kind 4). -/

/-- Disable a port (R421). -/
def State.portOff (s : State) (p : Nat) : State :=
  let t := (s.setRegBit (pgFl p) 0x104 31 false).portDrop p 0
  ((t.onFlm fun f => { f with portsOff := f.portsOff ++ [p], toDisable := f.toDisable.filter (· != p) }).service 9).flmLog 4 2 p 0

/-! Control cores (R479, R480). -/

/-- The working cores of a half after core k, in cyclic order. -/
def State.watchers (s : State) (k : Nat) : List Nat :=
  ((List.range 3).map fun i => k / 4 * 4 + (k + 1 + i) % 4).filter fun w => !s.ctl.failed.contains w

/-- Route the sources of core k to core w. -/
def State.retarget (s : State) (k w : Nat) : State :=
  (List.range 1024).foldl (fun s n =>
    let v := s.reg 1 (0x1000 + 4 * n)
    if fld v 30 27 = k then s.setReg 1 (0x1000 + 4 * n) (setFld v 30 27 w) else s) s

/-- Resume an interrupted update: whether the failed core had it in hand is not stated, so a free value says so. -/
def State.resumeUpdate (s : State) : State :=
  match s.hvu.job with
  | none => s
  | some j =>
    let x := s.draw
    if bit x.1 0 then ((x.2.setJob (some { j with interrupted := true })).requeue j.bucket) else x.2

/-- The watcher of core k takes over its duties, and those that k carried. -/
def State.takeOver (s : State) (k : Nat) : State :=
  let c := s.ctl
  match s.watchers k with
  | [] => ({ s with ctl := { c with failed := c.failed ++ [k] } }).declareLoss s.ownId
  | w :: _ =>
    let moved := (c.carries.map fun x => if x.1 = k then (w, x.2) else x) ++ [(w, k)]
    let t := ({ s with ctl := { c with failed := c.failed ++ [k], carries := moved } }).retarget k w
    let u := { t with evh := { t.evh with
      serving := Store.set [] t.evh.serving k [], frozen := Store.set false t.evh.frozen k false } }
    ((u.onFlm fun f => { f with toTakeOver := f.toTakeOver.filter (· != k) }).flmLog 0x14 2 k w).resumeUpdate

/-! What follows a declaration (R473). -/

/-- A site fault of kind 2 (or 1) has become lasting. -/
def State.siteLasting (s : State) (kind n : Nat) : State := (s.flmDeclare kind n).retireSite n

/-- A row of a slice: spared where a spare row is left, else a kind-2 event of the slice's site (R474). -/
def State.rowLasting (s : State) (res : Nat) : State :=
  let slice := res / 6144
  let used := Store.get 0 s.tiers.spareRows slice
  if used < 64 then
    ({ s with tiers := { s.tiers with spareRows := Store.set 0 s.tiers.spareRows slice (used + 1) } }).flmLog 0 2 res res
  else
    let n := s.siteOf slice
    let x := s.flmCount 2 n
    if x.1 then x.2.siteLasting 2 n else x.2

/-- The action of a kind on a lasting fault. -/
def State.flmAction (s : State) (kind res : Nat) : State :=
  match kind with
  | 0 => s.rowLasting res
  | 1 => s.retireSite res
  | 2 => s.retireSite res
  | 3 => s.packageWorn res
  | 4 => if s.schOn && !s.atBoundary then s.onFlm fun f => { f with toDisable := f.toDisable ++ [res] } else s.portOff res
  | 5 => if s.schOn then s.onFlm fun f => { f with toTakeOver := f.toTakeOver ++ [res] } else s.takeOver res
  | 6 => s.takeOver res
  | _ => s.declareLoss res

/-- Is a number that of a resource of a kind? -/
def State.flmResource (s : State) (kind res : Nat) : Bool :=
  match kind with
  | 0 => res < 128 * 6144
  | 1 => res < 136 && s.present (pgCore res)
  | 2 => res < 136 && s.present (pgCore res)
  | 3 => res < 64 && s.present (pgTre (res / 16)) && res % 16 ≤ 8
  | 4 => res < 16 && !s.hostPort res
  | 5 => res < 8 && !s.ctl.failed.contains res
  | 6 => res < 8 && !s.ctl.failed.contains res
  | _ => res < 2048

/-- An event of a resource of kinds 0 to 7 (R472, R473). -/
def State.flmEvent (s : State) (kind res : Nat) : State :=
  if 7 < kind || !s.flmResource kind res then s else
  let x := s.flmCount kind res
  if x.1 then (x.2.flmDeclare kind res).flmAction kind res else x.2

/-- A device that no longer detects errors in a group is replaced at the lap boundary (R476). -/
def State.replaceNow (s : State) : State :=
  if s.flm.toReplace then (s.onFlm fun f => { f with toReplace := false }).declareLoss s.ownId else s

/-- What waits for a lap boundary: the replacement of the device, takeovers, and, where the epoch changes with it, migrations,
retirements and ports (R345). -/
def State.flmBoundary (s : State) : State :=
  let t := s.flm.toTakeOver.foldl State.takeOver s.replaceNow
  if !t.sch.fresh then t else
  let u := t.flm.toMigrate.foldl State.plannedMove t
  let v := u.flm.toRetire.foldl State.vacate u
  v.flm.toDisable.foldl State.portOff v

/-- What need not wait for a lap any longer, because the run whose laps it waited for has ended. -/
def State.flmRelease (s : State) : State :=
  let t := (s.flm.toMigrate.filter fun x => !s.heldBySch (s.siteOf x.1)).foldl State.plannedMove s
  let u := (t.flm.toRetire.filter fun n => !t.heldBySch n).foldl State.vacate t
  if u.schOn then u else
  let v := u.flm.toDisable.foldl State.portOff (u.onFlm fun f => { f with toReplace := false })
  v.flm.toTakeOver.foldl State.takeOver v

/-- Words of a site that an error may lie in: SPD, then the entries of the side memory, then the slice. -/
def spdWords : Nat := 0x30000
def sideWords : Nat := 0x2000
def sliceWords : Nat := 0x600000

/-- Mark an uncorrectable word of a site (R119, R214, R267). -/
def State.spoilWord (s : State) (n w : Nat) : State :=
  if w < spdWords then s.onCore n fun c => { c with poison := Store.set false c.poison w true }
  else if w < spdWords + sideWords then
    s.onCore n fun c => { c with row := { c.row with poison := Store.set false c.row.poison (w - spdWords) true } }
  else match s.lcoreOf n with
    | some l => { s with tiers := { s.tiers with
        nearPoison := Store.set false s.tiers.nearPoison (l * sliceWords + (w - spdWords - sideWords) % sliceWords) true } }
    | none => s

/-- An uncorrectable error of a site: which of its words is lost is no operand of the report, so it is free (log 67). -/
def State.loseWord (s : State) (n : Nat) : State :=
  let x := s.draw
  let w := x.1.toNat % (spdWords + sideWords + sliceWords)
  (if w < spdWords + sideWords then x.2.errSet (pgCore n) 3 else x.2).spoilWord n w

/-- What an error of a site leaves in the core page and in the memory it lies in (R119, R152, R214). -/
def State.siteError (s : State) (kind n : Nat) : State :=
  if !s.flmResource kind n then s
  else if kind = 1 then (s.errSet (pgCore n) 2).errCount (pgCore n) 1
  else if kind = 2 then s.loseWord n
  else s

/-- FLM_REPORT (R471, R473): an error report is counted; phase sheds, lane drops and lost packages are only logged. -/
def execFlmReport (kind : Fin 32) (resource : Nat) (s : State) : Host.Outcome State Fault Refusal :=
  .next (if !s.regsUp then s
    else if kind.val = 0x10 || kind.val = 0x11 || kind.val = 0x12 then s.flmLog kind.val 3 resource 0
    else (s.siteError kind.val resource).flmEvent kind.val resource)

/-- CORE_MIGRATE (R16, R116): to a usable spare site of the same half, at a lap boundary. Asked for within a lap of the
core's run, the migration waits for the next one; the core of a run without laps migrates at once (log 80). A site that was to
be retired is retired with it (R478). -/
def execCoreMigrate (lcore : Fin 128) (site : Fin 136) (s : State) : Host.Outcome State Fault Refusal :=
  let a := s.siteOf lcore.val
  .next (if s.regsUp && site.val / 68 = lcore.val / 64 && (s.freeSites (site.val / 68)).contains site.val then
      let t := s.onFlm fun f => { f with toMigrate := f.toMigrate.filter (·.1 != lcore.val) ++ [(lcore.val, site.val)] }
      if s.heldBySch a && !s.atBoundary then t else t.moveCore lcore.val site.val
    else s)

/-! Scrubs (R481). -/

/-- A scrub pass has ended: it is late where it took more than 1.1 times its period. `k` is the TRE, or 4 for the near tier;
the next pass begins (log 82). -/
def State.scrubEnd (s : State) (k period : Nat) : State :=
  let t := s.onFlm fun f => { f with scrubAt := Store.set 0 f.scrubAt k s.dev.time }
  if 10 * (Store.get 0 s.flm.scrubAt k) + 11 * period < 10 * s.dev.time then t.service 8 else t

/-- Is a block the last of its group? -/
def State.lastOfGroup (s : State) (b : Nat) : Bool :=
  let hta := s.dev.variant == .l9HTA
  (place hta (4096 * b)).2.1 = (place hta (outerSize s.dev.variant - 4096)).2.1

/-- PATROL_SCRUB (R251, R253, R266, R481): one sector is read and corrected; no reader is held. The last sector of a group ends
the pass of its TRE. -/
def execPatrolScrub (block : BitVec 28) (sector : Fin 16) (x : SectorFault) (s : State) :
    Host.Outcome State Fault Refusal :=
  let b := block.toNat
  .next (if outerSize s.dev.variant < 4096 * b + 4096 || s.power.mod = 3 then s else
    let s := if sector.val = 15 && s.lastOfGroup b then s.scrubEnd (s.groupOf b) 86400000000000 else s
    if mapRepair (s.tiers.mapOf b) then s
    else ((s.charge .background b 1).openBlock b
      { x with stream := x.stream && sector.val < mapNsec (s.tiers.mapOf b) && mapWritten (s.tiers.mapOf b) }).2)

/-- An uncorrectable word of the near tier that a scrub finds keeps its error; in a RESIDENT page the entry is demoted
(R267, R481). -/
def State.scrubLost (s : State) (word : Nat) : State :=
  let k := 8 * word / 0x200000
  let t := { s.tiers with nearPoison := Store.set false s.tiers.nearPoison word true }
  { s with tiers :=
      if (t.page k).st = 2 then
        { t with pacer := { t.pacer with resident := t.pacer.resident.map fun e =>
            if e.page ≤ k && k < e.page + e.pages then { e with leaving := true } else e } }
      else t }

/-- NEAR_SCRUB (R473, R481): `bad` is 0 good, 1 corrected, 2 uncorrectable; a corrected word counts against its row, an
uncorrectable one against the site of its slice. The last word of the near tier ends the pass. -/
def execNearScrub (word : Nat) (bad : Fin 3) (s : State) : Host.Outcome State Fault Refusal :=
  .next (if nearSize ≤ 8 * word || s.power.mod = 3 then s else
    let t := if 8 * word + 8 = nearSize then s.scrubEnd 4 21600000000000 else s
    if bad.val = 1 then t.flmEvent 0 (word / 1024)
    else if bad.val = 2 then (t.scrubLost word).flmEvent 2 (t.siteOf (8 * word / 0x3000000))
    else t)

end Sys2Proof.Machine
end

