-- ==== Sys2Proof/Machine/Digest.lean ====
section
/-!
DEFINITION. Replica digests: the comparison at the owner of a shard, and the mending of the copies that lose (11 R305, R306).
-/
namespace Sys2Proof.Machine

/-- The digest that the owner takes as right: `own` is its own value. -/
def winner (n own : Nat) (vs : List (Nat × Nat)) : Nat :=
  if n ≤ 2 then own
  else match vs.find? fun v => decide (n < 2 * (vs.filter fun u => u.2 = v.2).length) with
    | some v => v.2
    | none => own

/-- Is a replica being mended, by a transfer or with a shard still to come? -/
def State.mending (s : State) : Bool :=
  s.hvu.mends != [] || s.txns.any fun t => match t.client with | .digestFix _ _ => true | _ => false

/-- Count the losers of a comparison, as device IDs: in the registers, in the record, and with the FLM (R306, R473). -/
def State.countMismatch (s : State) (b : Nat) (ds : List Nat) : State :=
  if ds = [] then s else
  let t := (s.countReg pHvu 0x158 ds.length).putBucket b 0x6C 4 (satAdd32 (Bk.mismatch (s.bucket b)) ds.length)
  ds.foldl (fun s d => s.flmEvent 7 d) (((t.putRlap b).errSet pHvu 1).raise pHvu 1)

/-- Send the own shard to members that lost (R306). -/
def State.sendWinner (s : State) (b : Nat) (losers : List Nat) : State :=
  let d := s.bucket b
  losers.foldl (fun s r => (s.wSpans d (Bk.rank d)).foldl (fun s x =>
    (s.chargeLocal x.1 x.2).request (.digestFix b r) s.hvuCtx (s.member d r) x.1 x.2 (some (s.tiers.localBytes x.1 x.2))) s) s

/-- Fetch the own shard from a member (R306). -/
def State.fetchShard (s : State) (b holder : Nat) : State :=
  let d := s.bucket b
  (s.wSpans d (Bk.rank d)).foldl (fun s x =>
    s.request (.digestFix b holder) s.hvuCtx (s.member d holder) x.1 x.2 none) s

/-- Compare the digests of the own shard once they are all there. Where the own copy wins, this device sends it to each loser;
where it loses, it fetches the copy of the lowest-ranked winner and passes it on, since no message asks another member to
send (log 56). -/
def State.compareDigests (s : State) (b : Nat) : State :=
  let d := s.bucket b
  let k := Bk.rank d
  let got := s.hvu.digests.filterMap fun x => if x.bucket = b && x.shard = k then some (x.rank, x.value.toNat) else none
  if !s.hvu.toCompare.contains b || !((others d).all fun r => got.any fun v => v.1 = r) then s
  else
    let own := Bk.digest d
    let vs := (k, own) :: got
    let win := winner (Bk.nmem d) own vs
    let losers := (vs.filter fun v => v.2 != win).map (·.1)
    let holder := (vs.filter fun v => v.2 = win).foldl (fun m v => min m v.1) 64
    let t := (s.onHvu fun h => { h with toCompare := h.toCompare.filter (· != b) }).countMismatch b (losers.map (s.member d))
    if own = win then t.sendWinner b losers
    else (t.onHvu fun h => { h with mends := h.mends ++ [⟨b, win, holder, losers.filter (· != k)⟩] }).fetchShard b holder

/-- A shard on its way back has arrived: its digest is checked again; it is fetched once more where it differs, and passed on
to the other losers where it is right (R306). -/
def State.mendShard (s : State) (m : Mend) : State :=
  let d := s.bucket m.bucket
  if s.waitingOn fun c => c = .digestFix m.bucket m.holder then s
  else if (s.digestOf d (Bk.rank d)).toNat = m.win then
    (s.onHvu fun h => { h with mends := h.mends.filter (· != m) }).sendWinner m.bucket m.losers
  else s.fetchShard m.bucket m.holder

/-- Take the transfers that mended a replica: fetched bytes go into `W`, whose digest is checked again. -/
def State.settleMend (s : State) : State :=
  let mine := fun (t : Txn) => match t.client with | .digestFix _ _ => t.done | _ => false
  let t := (s.txns.filter mine).foldl (fun s t => if t.write || t.status != 0 then s else s.localWrite t.addr t.bytes)
    { s with txns := s.txns.filter fun t => !mine t }
  t.hvu.mends.foldl State.mendShard t

/-- What a HVU does when a transaction of its own ends. -/
def State.hvuAck (s : State) (t : Txn) : State :=
  match t.client with
  | .gather b k => s.gatherDone b k
  | .buddy _ => s.settleBuddy
  | .digestFix _ _ => s.settleMend
  | _ => s

/-- A `DIGEST` baton acted on (R306). -/
def State.takeDigest (s : State) (b : Baton) : State :=
  let k := fld b.arg 11 0
  let x : DigestRec := ⟨k, fld b.pay 69 64, fld b.pay 77 72, b.pay.truncate 64⟩
  if !s.hvuOn || s.bktCount ≤ k then s.countReg pgSch 0x158 1
  else if s.hvu.digests.any fun y => y.bucket = x.bucket && y.shard = x.shard && y.rank = x.rank then s
  else ((s.onHvu fun h => { h with digests := h.digests ++ [x] }).compareDigests k).settleMend

end Sys2Proof.Machine
end

