-- ==== Sys2Proof/Machine/Laps.lean ====
section
/-!
DEFINITION. The schedule of a lap: heats, micro-batches, the run order and its slots; reductions; the loss log and the
lap advance (12 R313-R321, R331-R345).
-/
namespace Sys2Proof.Machine

def State.onSch (s : State) (f : Sch → Sch) : State := { s with sch := f s.sch }

/-! Tables (R314, R315, R321). -/

def State.heatBits (s : State) (h : Nat) : BitVec 256 := bitsOf 256 (s.tiers.localBytes (s.addrPair pgSch 0x110 + 32 * h) 32)

namespace Ht
def budget (d : BitVec 256) : Nat := dfld d 0 47 24
def maxlen (d : BitVec 256) : Nat := dfld d 0 23 0
/-- Launch entries of a pass: number and address. -/
def count (d : BitVec 256) (bwd : Bool) : Nat := if bwd then dfld d 0x10 55 48 else dfld d 8 55 48
def launch (d : BitVec 256) (bwd : Bool) : Nat := if bwd then dfld d 0x10 44 0 else dfld d 8 44 0
def tp (d : BitVec 256) (j : Nat) : Nat := dfld d 0x18 (8 * j + 39) (8 * j + 32)
def tpen (d : BitVec 256) (j : Nat) : Bool := dbit d 0x18 (28 + j)
def recoff (d : BitVec 256) : Nat := dfld d 0x18 20 0
end Ht

/-- A launch entry (R319). The base goes into `CORE_LIST_BASE`, whose bits 5:0 read 0 (R151). -/
def Launch.ofNat (v : Nat) : Launch := ⟨v / 2 ^ 56 % 128, v.testBit 63, v % 2 ^ 56 / 64 * 64⟩

/-- Launch entries of a pass of a heat. -/
def State.launches (s : State) (d : BitVec 256) (bwd : Bool) : List Launch :=
  (List.range (Ht.count d bwd)).map fun i => Launch.ofNat (s.tiers.localNum (Ht.launch d bwd + 8 * i) 8)

/-- A launch list that R321 refuses. -/
def State.launchBad (s : State) (d : BitVec 256) (bwd : Bool) : Bool :=
  let a := Ht.launch d bwd
  let n := 8 * Ht.count d bwd
  Ht.count d bwd = 0 || 128 < Ht.count d bwd || a % 64 != 0 ||
  !((nearBase ≤ a && a + n ≤ nearBase + nearSize) || s.mayOuter s.schCtx a n false) ||
  (s.launches d bwd).any fun x => !(s.claims s.schCtx).cores.contains x.lcore || (x.spd && 0x17E000 ≤ x.base)

/-- A used heat that R321 refuses. -/
def State.heatBad (s : State) (d : BitVec 256) : Bool :=
  dfld d 0 63 48 != 0 || Ht.budget d = 0 || dfld d 8 63 56 != 0 || dfld d 8 47 45 != 0 || dfld d 0x10 63 56 != 0 ||
  dfld d 0x10 47 45 != 0 || dfld d 0x18 27 21 != 0 || Ht.recoff d % 64 != 0 || 0x17E000 < Ht.recoff d + 32 ||
  s.launchBad d false || s.launchBad d true

/-- Indexes of the used heats. -/
def State.usedHeats (s : State) : List Nat := (List.range 8).filter fun h => Ht.maxlen (s.heatBits h) != 0

def State.mblCount (s : State) : Nat := fld (s.reg pgSch 0x120) 10 0

/-- Entry i of the micro-batch list: first sample, samples, and whether it breaks R315. -/
def State.microBatch (s : State) (i : Nat) : Nat × Nat × Bool :=
  let v := s.tiers.localNum (s.addrPair pgSch 0x118 + 8 * i) 8
  (v % 2 ^ 32, v / 2 ^ 32 % 65536, v / 2 ^ 48 != 0 || v / 2 ^ 32 % 65536 = 0)

/-- Length of sample j in tokens. -/
def State.sampleLen (s : State) (j : Nat) : Nat := s.tiers.localNum (s.addrPair pgSch 0x124 + 4 * j) 4

/-- Lengths of a micro-batch's samples. -/
def State.mbLens (s : State) (i : Nat) : List Nat :=
  let m := s.microBatch i
  (List.range m.2.1).map fun j => s.sampleLen (m.1 + j)

/-- Do the checks of R321 fail? -/
def State.tablesBad (s : State) : Bool :=
  let used := s.usedHeats
  !used.contains 0 || used.any (fun h => s.heatBad (s.heatBits h)) ||
  (used.zip (used.drop 1)).any (fun p => Ht.maxlen (s.heatBits p.2) ≤ Ht.maxlen (s.heatBits p.1)) ||
  s.mblCount = 0 || 1024 < s.mblCount ||
  (List.range s.mblCount).any fun i =>
    (s.microBatch i).2.2 || (s.mbLens i).any fun l => l = 0 || 2 ^ 24 ≤ l

/-! The run order (R316, R317). -/

/-- The heat of a micro-batch. -/
def State.heatOf (s : State) (i : Nat) : Nat :=
  let l := (s.mbLens i).foldl max 0
  let used := s.usedHeats
  let fits := fun (h : Nat) => let m := Ht.maxlen (s.heatBits h); decide (l ≤ m) || m == 0xFFFFFF
  (used.find? fits).getD (used.getLast?.getD 0)

/-- A part of a micro-batch: first sample, samples, tokens, offset of a chunk. -/
structure Piece where
  first : Nat
  nsamp : Nat
  tokens : Nat
  choff : Nat
  chunk : Bool
  deriving DecidableEq, Repr

/-- Chunks of a sample longer than the budget. -/
def chunksOf (budget idx l : Nat) : List Piece :=
  (List.range (cdiv l budget)).map fun i => ⟨idx, 1, min budget (l - i * budget), i * budget, true⟩

/-- Cut samples, from index `idx`, into parts; `n` samples of `tok` tokens are gathered so far. -/
def cutPieces (budget : Nat) : Nat → Nat → Nat → List Nat → List Piece
  | idx, n, tok, [] => if n = 0 then [] else [⟨idx - n, n, tok, 0, false⟩]
  | idx, n, tok, l :: ls =>
    let done := if n = 0 then [] else [Piece.mk (idx - n) n tok 0 false]
    if budget < l then done ++ chunksOf budget idx l ++ cutPieces budget (idx + 1) 0 0 ls
    else if tok + l ≤ budget then cutPieces budget (idx + 1) (n + 1) (tok + l) ls
    else done ++ cutPieces budget (idx + 1) 1 l ls

/-- Parts of micro-batch i. -/
def State.pieces (s : State) (i : Nat) : List Piece :=
  let b := Ht.budget (s.heatBits (s.heatOf i))
  let ls := s.mbLens i
  let m := s.microBatch i
  if ls.sum ≤ b then [⟨m.1, ls.length, ls.sum, 0, false⟩] else cutPieces b m.1 0 0 ls

/-- A unit: the slots of one pass of a micro-batch. -/
def State.unit (s : State) (bwd : Bool) (i : Nat) : List SlotRec :=
  let ps := s.pieces i
  let rs := ps.zipIdx.map fun x => (⟨i, x.2, ps.length, x.1.nsamp, x.1.first, x.1.choff, x.1.tokens, bwd, s.heatOf i,
    x.1.chunk, if bwd then x.2 = 0 else x.2 + 1 = ps.length⟩ : SlotRec)
  if bwd then rs.reverse else rs

/-- Take one of each in turn. -/
def interleave {α : Type} : List α → List α → List α
  | a :: as, b :: bs => a :: b :: interleave as bs
  | as, _ => as

/-- The run order of a lap. -/
def State.runOrder (s : State) : List SlotRec :=
  let mbs := ((List.range 8).map fun h => (List.range s.mblCount).filter fun i => s.heatOf i = h).flatten
  let f := mbs.map (s.unit false)
  let b := mbs.map (s.unit true)
  let c := s.reg pgSch 0x100
  if bit c 24 then
    let w := min (fld c 14 8 - 1 - fld c 5 0) mbs.length
    (f.take w ++ interleave (f.drop w) (b.take (mbs.length - w)) ++ b.drop (mbs.length - w)).flatten
  else f.flatten ++ b.flatten

/-- Count the micro-batches cut and the samples chunked (R316). -/
def State.countCuts (s : State) : State :=
  (List.range s.mblCount).foldl (fun s i =>
    let b := Ht.budget (s.heatBits (s.heatOf i))
    let ls := s.mbLens i
    let t := if ls.sum ≤ b then s else s.countReg pgSch 0x168 1
    let n := (ls.filter fun l => decide (b < l)).length
    if n = 0 then t else t.countReg pgSch 0x16C n) s

/-- A failed check of the tables: no further slot opens (R321). -/
def State.tableStop (s : State) : State := ((s.onSch fun x => { x with faulted := true }).errSet pgSch 0).raise pgSch 1

/-- Read the tables and build the run order, or stop at a bad table (R317, R321). -/
def State.beginLap (s : State) : State :=
  let t := s.onSch fun x => { x with order := [], slot := 0, isOpen := false, begun := false, ready := false,
                                     toLaunch := [], launched := [] }
  if t.tablesBad then t.tableStop
  else t.countCuts.onSch fun x => { x with order := t.runOrder, ready := true }

/-! Slots (R318-R320). -/

/-- The 32 bytes of a slot record. -/
def SlotRec.bytes (x : SlotRec) (lap : Nat) : List Byte :=
  natLe 8 (x.part * 2 ^ 48 + x.mb % 65536 * 2 ^ 32 + lap) ++ natLe 8 (x.npart * 2 ^ 48 + x.nsamp * 2 ^ 32 + x.first) ++
  natLe 8 (x.choff * 2 ^ 32 + x.tokens) ++
  natLe 8 (boolBit x.bwd 62 + x.heat * 2 ^ 59 + boolBit x.chunk 58 + boolBit x.lastp 57)

/-- Open slot i of the run order. Its heat is read from the table again, and checked again (R321). -/
def State.openSlot (s : State) (i : Nat) : State :=
  match s.sch.order[i]? with
  | none => s
  | some x =>
    let d := s.heatBits x.heat
    if s.heatBad d then s.tableStop
    else s.onSch fun c => { c with slot := i, isOpen := true, begun := true, launched := [], heat := d,
                                   toLaunch := s.launches d x.bwd }

/-- SLOT_OPEN (R318, R340 step 4). -/
def execSlotOpen (s : State) : Host.Outcome State Fault Refusal :=
  .next (if !s.schOn || s.sch.faulted || s.sch.withdrawn || !s.sch.ready then s
    else if !s.sch.begun then (if s.mending || s.hvu.toCompare != [] || s.flm.hold then s else s.openSlot 0)
    else if s.slotDone then s.openSlot (s.sch.slot + 1) else s)

/-- What the SCH writes into a core before `START`: slot record and tensor patches (R320), and the list base. -/
def State.prepareCore (s : State) (c : Core) (x : SlotRec) (l : Launch) : Core :=
  let h := s.sch.heat
  let c1 := c.write (Ht.recoff h) (x.bytes s.lap)
  let c2 := (List.range 4).foldl (fun c j =>
    if Ht.tpen h j then c.write (0x17E000 + 32 * Ht.tp h j + 0x14) (natLe 3 x.tokens) else c) c1
  { c2 with seq := { c2.seq with base := l.base, baseSpd := l.spd } }

/-- CORE_LAUNCH (R318): the first entry that still names the core. -/
def execCoreLaunch (lcore : Fin 128) (s : State) : Host.Outcome State Fault Refusal :=
  let n := s.siteOf lcore.val
  .next (match s.sch.toLaunch.find? (·.lcore = lcore.val), s.sch.order[s.sch.slot]? with
    | some l, some x =>
      if s.schOn && s.sch.isOpen && s.blockUp (pgCore n) && ((s.core n).seq.st = .idle || (s.core n).seq.st = .halted) then
        (((s.onSch fun c => { c with toLaunch := c.toLaunch.erase l, launched := c.launched ++ [n] }).onCore n
          fun c => s.prepareCore c x l).thawPage (pgCore n)).startList n
      else s
    | _, _ => s)

/-! Reductions (R332-R335). -/

def State.bkt (s : State) (b : Nat) : BktRun := Store.get BktRun.reset s.sch.bkts b

def State.onBkt (s : State) (b : Nat) (f : BktRun → BktRun) : State :=
  s.onSch fun c => { c with bkts := Store.set BktRun.reset c.bkts b (f (Store.get BktRun.reset c.bkts b)) }

/-- Set bits of `PRESENT` or `REPLIED`. -/
def State.redSetBit (s : State) (b word k : Nat) : State :=
  s.putRed b word (dfld (s.red b) (8 * word) 63 0 ||| 2 ^ k)

/-- A reduction baton to a member (R323): type, bucket, rank. -/
def State.redBaton (s : State) (type b k pay : Nat) : State :=
  let d := s.bucket b
  s.sendBaton type s.schCtx (s.member d k) b (Bk.rank d * 2 ^ 16 + pay)

/-- Close the reduction of the own shard (R332 steps 4 and 4′). -/
def State.closeBucket (s : State) (b : Nat) (deadline : Bool) : State :=
  let d := s.bucket b
  let r := s.red b
  let s1 := s.putRedFlags b (Rd.owncnt r) (Rd.carried r) (Rd.wd r) true (Rd.isLocal r)
  let s2 := (others d).foldl (fun s k => s.redBaton (if (Rd.present r).testBit k then 6 else 7) b k 0) s1
  let s3 := if deadline then ((s2.errSet pgSch 2).errCount pgSch 1).raise pgSch 3 else s2
  s3.onHvu fun h => { h with reduceQ := h.reduceQ ++ [b] }

/-- Close once every partial is there. -/
def State.tryClose (s : State) (b : Nat) : State :=
  let r := s.red b
  if !Rd.closed r && (List.range (Bk.nmem (s.bucket b))).all (fun k => (Rd.present r).testBit k) then s.closeBucket b false
  else s

/-- Spans with the offset at which each one starts when they lie one after the other. -/
def placedSpans (o : Nat) : List (Nat × Nat) → List (Nat × Nat × Nat)
  | [] => []
  | q :: qs => (o, q.1, q.2) :: placedSpans (o + q.2) qs

/-- Send one span of a shard to `base`. -/
def State.sendSpan (s : State) (client : Client) (ctx dest base : Nat) (x : Nat × Nat × Nat) : State :=
  s.request client ctx dest (base + x.1) x.2.2 (some (s.tiers.localBytes x.2.1 x.2.2))

/-- Send the rows of shard k to its owner (R332 step 1). -/
def State.sendShard (s : State) (b k : Nat) : State :=
  let d := s.bucket b
  (placedSpans 0 (s.gSpans d k)).foldl (fun u x => u.sendSpan (.bucketWrite b k) s.schCtx (s.member d k)
    (Rd.stage (s.red b) + Bk.rank d * s.shardBytes d k) x) s

/-- BKT_LOCAL (R332 step 1): a bucket-local baton that a core handed over is acted on. -/
def execBktLocal (b : BitVec 12) (count : BitVec 16) (s : State) : Host.Outcome State Fault Refusal :=
  let k := b.toNat
  .next (if !s.schOn || !s.hvuOn || !s.sch.locals.contains (k, count.toNat) then s else
    let s := s.onSch fun c => { c with locals := c.locals.erase (k, count.toNat) }
    let d := s.bucket k
    let r := s.red k
    if Rd.isLocal r || Rd.wd r then s
    else
      let own := (count.toNat + Rd.carried r) % 65536
      let s1 := s.putRedFlags k own (Rd.carried r) false (Rd.closed r) true
      let s2 := if Rd.closed r then s1 else
        (s1.redSetBit k 2 (Bk.rank d)).onBkt k fun x => { x with counts := x.counts ++ [(Bk.rank d, own)] }
      let s3 := s2.onBkt k fun x => { x with start := some s.dev.time }
      ((others d).foldl (fun s j => s.sendShard k j) s3).tryClose k)

/-- Writes of a shard on their way or failed. -/
def shardOf (b k : Nat) (t : Txn) : Bool := t.client = .bucketWrite b k

/-- BKT_PART_SEND (R332 step 2). -/
def execBktPartSend (b : BitVec 12) (owner : Fin 64) (s : State) : Host.Outcome State Fault Refusal :=
  let k := b.toNat
  let r := s.red k
  .next (if s.schOn && s.hvuOn && k < s.bktCount && Rd.isLocal r && !Rd.wd r && (others (s.bucket k)).contains owner.val &&
      !(s.bkt k).partSent.contains owner.val &&
      !(s.txns.any fun t => shardOf k owner.val t && (!t.done || t.status != 0)) then
    let t := { s with txns := s.txns.filter fun t => !shardOf k owner.val t }
    (t.onBkt k fun x => { x with partSent := x.partSent ++ [owner.val] }).redBaton 5 k owner.val (Rd.owncnt r)
    else s)

/-- A late partial (R332). -/
def State.latePart (s : State) (b r : Nat) : State := (s.countReg pgSch 0x15C 1).redBaton 7 b r 0

/-- A `BKT_PART` acted on (R332 step 3). -/
def State.takePart (s : State) (b : Baton) : State :=
  let k := fld b.arg 11 0
  let r := fld b.pay 21 16
  let x := s.red k
  if Rd.closed x then s.latePart k r
  else if (Rd.present x).testBit r then s
  else
    let nodata := bit b.pay 24
    ((s.redSetBit k 2 r).onBkt k fun y =>
      { y with counts := y.counts ++ [(r, fld b.pay 15 0)], nodata := if nodata then y.nodata ++ [r] else y.nodata }).tryClose k

/-- Zero the rows of shard k in `G`. -/
def State.zeroShard (s : State) (b k : Nat) : State := s.zeroSpans (s.gSpans (s.bucket b) k)

/-- A `BKT_ACK` acted on (R332 step 6). -/
def State.takeAck (s : State) (b : Baton) : State :=
  let k := fld b.arg 11 0
  let r := fld b.pay 21 16
  (s.redSetBit k 3 r).zeroShard k r

/-- A `BKT_CLOSED` acted on (R333, R335). -/
def State.takeClosed (s : State) (b : Baton) : State :=
  let k := fld b.arg 11 0
  let r := fld b.pay 21 16
  let x := s.red k
  let t := s.redSetBit k 3 r
  if Rd.wd x then t.zeroShard k r
  else if bit (s.reg pgSch 0x100) 25 || Rd.carried x != 0 then (t.zeroShard k r).countReg pgSch 0x164 1
  else t.onBkt k fun y => { y with closedOwners := y.closedOwners ++ [r] }

/-- A `BKT_GATHER` acted on: the digest of the shard is formed from the bytes that came (R306, R336). -/
def State.takeGather (s : State) (b : Baton) : State :=
  let k := fld b.arg 11 0
  let r := fld b.pay 21 16
  let d := s.bucket k
  if (s.bkt k).gathered.contains r then s
  else (s.onBkt k fun x => { x with gathered := x.gathered ++ [r] }).onHvu fun h =>
    { h with ownDigests := h.ownDigests ++ [⟨k, r, Bk.rank d, s.digestOf d r⟩] }

/-- REDUCE_DEADLINE (R332 step 4′). -/
def execReduceDeadline (b : BitVec 12) (s : State) : Host.Outcome State Fault Refusal :=
  let k := b.toNat
  let us := fld (s.reg pgSch 0x134) 23 0
  .next (match (s.bkt k).start with
    | some t =>
      if s.schOn && s.hvuOn && us != 0 && !Rd.closed (s.red k) && t + 1000 * us ≤ s.dev.time then s.closeBucket k true else s
    | none => s)

/-- The reduction whose pass runs next: the first closed one that no fault holds (R303). -/
def State.nextPass (s : State) : Option Nat := s.hvu.reduceQ.find? fun k => Bk.state (s.bucket k) != 6

/-- REDUCE_PASS_DONE (R332 step 5, R334): the passes run in order of closing. The first mirror copies come before any
bucket leaves `OPEN` (R307). -/
def execReducePassDone (b : BitVec 12) (s : State) : Host.Outcome State Fault Refusal :=
  .next (match s.nextPass with
    | some k =>
      if s.hvuOn && k = b.toNat && !s.hvu.seeding && !(s.reduceReads (s.bucket k) k).any (fun x => s.tiers.repairing x.1 x.2) then
        s.reducePass k
      else s
    | none => s)

/-- Withdraw the contribution of this device to one bucket (R335): rows that were kept to be carried are zeroed, and where
partials are still to be sent, "no data" goes to their owners and the own rows leave the own reduce pass. -/
def State.withdrawBucket (s : State) (b : Nat) : State :=
  let d := s.bucket b
  let r := s.red b
  let me := Bk.rank d
  let s1 := (s.bkt b).closedOwners.foldl (fun s k => s.zeroShard b k)
    (s.putRedFlags b (Rd.owncnt r) 0 true (Rd.closed r) (Rd.isLocal r))
  let s2 := s1.onBkt b fun x => { x with closedOwners := [] }
  let left := (others d).filter fun k => !(s.bkt b).partSent.contains k
  if Rd.isLocal r && left.isEmpty then s2 else
  let s3 := left.foldl (fun s k => s.redBaton 5 b k (2 ^ 24)) s2
  let s4 := { s3 with txns := s3.txns.filter fun t => !left.any fun k => shardOf b k t }
  let s5 := s4.onBkt b fun x => { x with
    partSent := x.partSent ++ left
    nodata := if Rd.closed r then x.nodata else x.nodata ++ [me]
    counts := if Rd.closed r then x.counts else x.counts.filter fun c => c.1 != me }
  if Rd.closed r then s5 else (s5.redSetBit b 2 me).tryClose b

/-- WITHDRAW (R335). -/
def State.withdraw (s : State) : State :=
  if s.sch.withdrawn then s else
  let t := s.onSch fun c => { c with withdrawn := true, toLaunch := [] }
  if s.hvuOn then (List.range s.bktCount).foldl State.withdrawBucket t else t

/-- A write of `SCH_CMD` (R335, R346). -/
def State.schCmdWrite (s : State) (v : Word) : State := if bit v 0 && s.schOn then s.withdraw else s

/-- SCH_CMD_WITHDRAW (R335, R346). -/
def execSchCmdWithdraw (r : Requester) (v : Word) (s : State) : Host.Outcome State Fault Refusal :=
  .next (s.onWrite r pgSch 0x140 fun s => s.schCmdWrite v)

/-- Write an entry of the loss log (R339). -/
def State.logLoss (s : State) : State :=
  let t := s.lap
  let xs := (List.range 1024).filterMap fun i => s.sch.losses.find? (·.1 = i)
  let sum := match xs with
    | [] => 0
    | x :: ys => (round32 (ys.foldl (fun a y => (fadd32 .zero a (val32 y.2.toNat)).1) (val32 x.2.toNat))).code
  let w := [t, sum, boolBit (xs.length < s.mblCount) 17 + boolBit s.sch.withdrawn 16 + xs.length % 65536, s.ctxEpoch s.schCtx]
  s.onSch fun c => { c with
    lossLog := w.zipIdx.foldl (fun m x => Store.set 0 m (4 * (t % 64) + x.2) (BitVec.ofNat 32 x.1)) c.lossLog, losses := [] }

/-- Return one bucket to the start of a lap (R293, R304, R333, R340 step 2); `t` is the lap that ends. -/
def State.renewBucket (s : State) (t b : Nat) : State :=
  let d := s.bucket b
  let r := s.red b
  let x := s.bkt b
  let s1 := if x.closedOwners = [] then s
    else if x.scaleChanged then (x.closedOwners.foldl (fun s k => s.zeroShard b k) s).countReg pgSch 0x164 x.closedOwners.length
    else s.countReg pgSch 0x160 x.closedOwners.length
  let carry := if x.closedOwners = [] || x.scaleChanged then 0 else Rd.owncnt r
  let s2 := ((s1.putRedFlags b (Rd.owncnt r) carry false false false).putRed b 2 0).putRed b 3 0
  let s3 := if Bk.state d = 5 then s2.stepState b 0 0 else s2
  let s4 := s3.unlessFault b (s3.tablesFault b d) (s3.localWrite (Bk.hist d) (List.replicate 272 0))
  if Bk.lap d = t && 2 ≤ Bk.nmem d then s4.onHvu fun h => { h with toCompare := h.toCompare ++ [b] } else s4

/-- Send the digests of the lap to their owners (R306). -/
def State.sendDigests (s : State) : State :=
  s.hvu.ownDigests.foldl (fun s x =>
    s.sendBaton 0xA s.schCtx (s.member (s.bucket x.bucket) x.shard) x.bucket
      (x.value.toNat + x.shard * 2 ^ 64 + x.rank * 2 ^ 72)) (s.onHvu fun h => { h with ownDigests := [] })

/-- The lap advances with a new epoch (R340). What waited for the lap boundary is done, and the record of the lap that ended
is captured before the patch words are written (R478, R486). Held batons are taken up by the caller. -/
def State.lapAdvance (s : State) (e : Nat) : State :=
  let t := s.lap
  let ctx := s.schCtx
  let fresh := e != s.ctxEpoch ctx
  let s1 := (((s.logLoss.checkReplay t).adoptEpoch ctx e).setReg pgSch 0x104 (BitVec.ofNat 32 (t + 1))).raise pgSch 0
  let s2 := s1.onSch fun c => { c with
    lapwait := false, withdrawn := false, children := [], fresh := fresh, locals := [],
    chans := c.chans.foldl (fun m x =>
      Store.set Chan.reset m x.1 (if x.2.ctx = ctx then { x.2 with count := 0 } else x.2)) [] }
  let s3 := if s2.hvuOn then
      (List.range s2.bktCount).foldl (fun s b => s.renewBucket t b)
        (s2.onHvu fun h => { h with verdicts := [], digests := [], toCompare := [], snapLost := [] })
    else s2
  let s4 := s3.onSch fun c => { c with bkts := [] }
  let s5 := if s4.pacerCtx = ctx then s4.pacerHome else s4
  (s5.flmBoundary.captureRecord t).writePatches.sendDigests.beginLap

/-- Is the device done with its lap (R337)? -/
def State.lapDone (s : State) : Bool :=
  (s.sch.withdrawn || (s.sch.begun && s.slotDone && s.sch.order.length ≤ s.sch.slot + 1)) &&
  (!s.hvuOn || (List.range s.bktCount).all fun b =>
    let d := s.bucket b
    Bk.state d = 5 && (others d).all fun k =>
      (Rd.replied (s.red b)).testBit k && (Bk.lap d != s.lap || (s.bkt b).gathered.contains k))

/-- Have all children been heard from? -/
def State.childrenDone (s : State) : Bool := fld (s.reg pgSch 0x13C) 6 0 ≤ s.sch.children.length

/-- A device that is no root tells its parent. -/
def State.tellParent (s : State) : State :=
  (s.onSch fun c => { c with lapwait := true }).sendBaton 0xB s.schCtx (fld (s.reg pgSch 0x13C) 26 16) 0 0

/-- Pass `LAP_GO` to the recorded children, and act on it (R338). -/
def State.lapGo (s : State) (e : Nat) : State :=
  (s.sch.children.foldl (fun s d => s.sendBaton 0xC s.schCtx d 0 e) s).lapAdvance e

/-- A `LOSS` baton acted on (R339). -/
def State.takeLoss (s : State) (b : Baton) : State :=
  let mb := fld b.pay 15 0
  if s.sch.losses.any fun x => x.1 = mb then s.countReg pgSch 0x154 1
  else s.onSch fun c => { c with losses := c.losses ++ [(mb, b.arg)] }

/-! Enabling (R321, R346). -/

/-- What the SCH forgets when its run ends or begins; hurdles, channels and baton numbers stay. -/
def State.schClear (s : State) : State :=
  s.onSch fun c => { Sch.reset with sendNo := c.sendNo, expectNo := c.expectNo, held := c.held, waiting := c.waiting,
                                    hurdles := c.hurdles, chans := c.chans, lossLog := c.lossLog }

/-- A write of `SCH_CTRL`: while `EN` is 1 only a write of `EN` = 0 acts. -/
def State.schCtrlWrite (s : State) (v : Word) : State :=
  if bit (s.reg pgSch 0x100) 31 then (if bit v 31 then s else (s.setRegBit pgSch 0x100 31 false).schClear)
  else
    let t := s.setReg pgSch 0x100 (v &&& 0xF3007F3F)
    if bit v 31 then t.schClear.beginLap else t

/-- SCH_ENABLE (R321). -/
def execSchEnable (r : Requester) (v : Word) (s : State) : Host.Outcome State Fault Refusal :=
  .next (s.onWrite r pgSch 0x100 fun s => s.schCtrlWrite v)

end Sys2Proof.Machine
end

