-- ==== Sys2Proof/Machine/Batons.lean ====
section
/-!
DEFINITION. Batons: the receive queue and its checks, what each type does, the baton descriptors, and hurdles
(05 R136, 12 R322-R330, R337-R340).
-/
namespace Sys2Proof.Machine

/-! Channels (R327). -/

def State.chan (s : State) (k : Nat) : Chan := Store.get Chan.reset s.sch.chans k

def State.setChan (s : State) (k : Nat) (x : Chan) : State :=
  s.onSch fun c => { c with chans := Store.set Chan.reset c.chans k x }

/-- Let waits on a channel that has reached their value complete (R328). -/
def State.wakeWaits (s : State) (k : Nat) : State :=
  let x := s.chan k
  let go := fun (e : InFlight) =>
    if e.st = .wait && Dsc.opcode e.desc = 7 && dfld e.desc 8 5 0 = k && reached x.count (dfld e.desc 0x10 15 0) then
      { e with st := .run } else e
  s.mapCores fun c => if c.ctx = x.ctx then { c with seq := { c.seq with window := c.seq.window.map go } } else c

/-- A `USER` baton acted on (R327). -/
def State.takeUser (s : State) (b : Baton) : State :=
  let k := fld b.pay 5 0
  let x := s.chan k
  if x.valid && x.ctx = b.ctx.toNat then (s.setChan k { x with count := (x.count + 1) % 65536, value := b.arg }).wakeWaits k
  else s.countReg pgSch 0x158 1

/-! Hurdles (R136, R330). -/

/-- Release the local participants and open the next generation. -/
def State.releaseHurdle (s : State) (h : Nat) : State :=
  let x := s.hurdleOf h
  let s1 := s.setHurdle h { x with gen := (x.gen + 1) % 65536, arrived := [], devices := [], sent := false }
  let go := fun (e : InFlight) =>
    if e.st = .wait && Dsc.opcode e.desc = 5 && dfld e.desc 8 5 0 = h then { e with st := .run } else e
  (s1.mapCores fun c => if c.ctx = x.ctx then { c with seq := { c.seq with window := c.seq.window.map go } } else c).pacerAdvance h

/-- The root has counted every device: it sends the releases in ascending device ID and releases its own cores. -/
def State.rootCheck (s : State) (h : Nat) : State :=
  let x := s.hurdleOf h
  if x.devices.length < x.ndev then s else
  (((List.range 2048).filter fun d => x.devices.contains d && d != s.ownId).foldl
    (fun s d => s.sendBaton 4 x.ctx d (x.gen * 2 ^ 16 + h) 0) s).releaseHurdle h

/-- Has every local participant arrived? A withdrawn device counts as arrived at a cross-device hurdle of the SCH's
context (R335). -/
def State.allArrived (s : State) (h : Nat) : Bool :=
  let x := s.hurdleOf h
  (x.cmask != 0 && (List.range 128).all fun l => !x.cmask.getLsbD l || x.arrived.contains l) ||
    (s.sch.withdrawn && 2 ≤ x.ndev && x.ctx = s.schCtx)

/-- Every local participant has arrived (R330). -/
def State.openHurdle (s : State) (h : Nat) : State :=
  let x := s.hurdleOf h
  if !x.valid || !s.allArrived h then s
  else if x.ndev ≤ 1 then s.releaseHurdle h
  else if x.root = s.ownId then
    (if x.devices.contains s.ownId then s
     else (s.setHurdle h { x with devices := x.devices ++ [s.ownId] }).rootCheck h)
  else if x.sent then s
  else (s.setHurdle h { x with sent := true }).sendBaton 3 x.ctx x.root (x.gen * 2 ^ 16 + h) 0

/-- A `HURDLE_ARRIVE` baton acted on at the root (R330). -/
def State.takeArrive (s : State) (b : Baton) : State :=
  let h := fld b.arg 5 0
  let x := s.hurdleOf h
  if x.valid && x.ctx = b.ctx.toNat && x.root = s.ownId && fld b.arg 31 16 = x.gen then
    (if x.devices.contains b.src.toNat then s
     else (s.setHurdle h { x with devices := x.devices ++ [b.src.toNat] }).rootCheck h)
  else s.countReg pgSch 0x158 1

/-- A `HURDLE_RELEASE` baton acted on (R330). -/
def State.takeRelease (s : State) (b : Baton) : State :=
  let h := fld b.arg 5 0
  let x := s.hurdleOf h
  if x.valid && x.ctx = b.ctx.toNat && fld b.arg 31 16 = x.gen then s.releaseHurdle h else s.countReg pgSch 0x158 1

/-! What an accepted baton does (R323). -/

/-- May a baton of the lap protocol act: the SCH holds its context? -/
def State.lapBaton (s : State) (b : Baton) : Bool := s.schOn && b.ctx.toNat = s.schCtx

/-- Act on a baton. -/
def State.act (s : State) (b : Baton) : State :=
  let bad := s.countReg pgSch 0x158 1
  match b.type.toNat with
  | 1 => s.takeUser b
  | 3 => s.takeArrive b
  | 4 => s.takeRelease b
  | t =>
    if !s.lapBaton b then bad
    else match t with
    | 2 => s.takeLoss b
    | 0xB =>
      if s.sch.children.contains b.src.toNat then s else s.onSch fun c => { c with children := c.children ++ [b.src.toNat] }
    | 0xC => if s.sch.lapwait then s.lapGo (fld b.pay 7 0) else bad
    | 0xD => s.withdraw
    | t =>
      if !s.hvuOn || s.bktCount ≤ fld b.arg 11 0 then bad
      else match t with
      | 5 => s.takePart b
      | 6 => s.takeAck b
      | 7 => s.takeClosed b
      | 8 => s.takeGather b
      | 9 => s.takeVerdict b
      | 0xA => s.takeDigest b
      | _ => bad

/-! The checks of the receive queue (R324-R326). -/

/-- What the checks make of a baton: acted on, held, or dropped into a counter. -/
inductive Fate where
  | act | hold | late
  | drop (counter : Nat)
  deriving DecidableEq, Repr

/-- The checks of type, epoch and lap (R323, R325). -/
def State.fate (s : State) (b : Baton) : Fate :=
  let d := (b.epoch.toNat + 256 - s.ctxEpoch b.ctx.toNat) % 256
  let lap := s.lap
  if b.type = 0 || 0xD < b.type.toNat then .drop 0x158
  else if 128 ≤ d then .drop 0x150
  else if 0 < d then .hold
  else if b.lap = 0xFFFFFFFF || b.lap.toNat = lap then .act
  else if b.lap.toNat = lap + 1 then .hold
  else if b.lap.toNat < lap then (if b.type = 5 then .late else .drop 0x154)
  else .drop 0x158

/-- Carry out the fate of a baton whose sequence number is accepted; it wakes the SCH (R461). -/
def State.settleBaton (s : State) (b : Baton) : State :=
  let s := s.thawPage pgSch
  match s.fate b with
  | .act => s.act b
  | .hold => s.onSch fun c => { c with held := c.held ++ [⟨b, s.dev.time, false, false⟩] }
  | .late => if s.lapBaton b && s.hvuOn && fld b.arg 11 0 < s.bktCount then s.latePart (fld b.arg 11 0) (fld b.pay 21 16)
      else s.countReg pgSch 0x158 1
  | .drop k => s.countReg pgSch k 1

def State.expected (s : State) (src : Nat) : Nat := Store.get 0 s.sch.expectNo src

/-- Is a sequence number behind the expected one (R324, R128)? -/
def seqBehind (e q : Nat) : Bool := e != q && reached e q

def State.unhold (s : State) (h : HeldBaton) : State := s.onSch fun c => { c with held := c.held.erase h }

/-- Accept held successors of a source: `fuel` bounds them. -/
def State.drainAhead (s : State) (src : Nat) : Nat → State
  | 0 => s
  | f + 1 =>
    match s.sch.held.find? fun h => h.ahead && h.b.src.toNat = src &&
        (h.b.seq.toNat = s.expected src || seqBehind (s.expected src) h.b.seq.toNat) with
    | none => s
    | some h =>
      let t := s.unhold h
      if h.b.seq.toNat = s.expected src then
        ((t.onSch fun c => { c with expectNo := Store.set 0 c.expectNo src ((s.expected src + 1) % 65536) }).settleBaton
          h.b).drainAhead src f
      else (t.countReg pgSch 0x154 1).drainAhead src f

/-- Take up held batons that an epoch or a lap has freed: `fuel` bounds them. -/
def State.takeHeld (s : State) : Nat → State
  | 0 => s
  | f + 1 =>
    match s.sch.held.find? fun h => !h.ahead && s.fate h.b != .hold with
    | none => s
    | some h => ((s.unhold h).settleBaton h.b).takeHeld f

/-- The sequence check (R324). -/
def State.acceptBaton (s : State) (b : Baton) : State :=
  let src := b.src.toNat
  let e := s.expected src
  if b.seq.toNat = e then
    let t := (s.onSch fun c => { c with expectNo := Store.set 0 c.expectNo src ((e + 1) % 65536) }).settleBaton b
    let t := t.drainAhead src t.sch.held.length
    t.takeHeld t.sch.held.length
  else if seqBehind e b.seq.toNat then s.countReg pgSch 0x154 1
  else s.onSch fun c => { c with held := c.held ++ [⟨b, s.dev.time, true, false⟩] }

/-- Does the receive queue have a place (R326)? -/
def State.batonRoom (s : State) (b : Baton) : Bool :=
  let n := s.sch.held.length
  n < 496 || (n < 512 && (b.type = 0xB || b.type = 0xC || b.type = 0xD || b.type = 4))

/-- A baton reaches the SCH; without a place it waits on its channel. -/
def State.receiveBaton (s : State) (b : Baton) : State :=
  if s.regsUp && s.enabled pgSch && s.batonRoom b then s.acceptBaton b else s

/-- The row of one baton type. -/
def State.batonRow (s : State) (type : Nat) (b : Baton) : State := if b.type.toNat = type then s.receiveBaton b else s

/-! Descriptors (R328, R329). -/

def sendFields : List Field := [(8, 25, 24), (8, 21, 16), (8, 12, 12), (8, 10, 0), (0x10, 63, 0)]

/-- The faults of a `BATON_SEND`. -/
def sendFaults (s : State) (n : Nat) (d : Desc) : List FaultAt :=
  let kind := dfld d 8 25 24
  let chan := dfld d 8 21 16
  let dev := dfld d 8 10 0
  let idx := dfld d 0x10 63 48
  let count := dfld d 0x10 47 32
  let value := dfld d 0x10 31 0
  let ctx := (s.core n).ctx
  let bad := kind = 3 || (kind = 0 && (idx != 0 || count != 0)) || (kind = 1 && (chan != 0 || value != 0)) ||
    (kind = 2 && (chan != 0 || count != 0)) || (kind = 1 && (dev != s.ownId || s.bktCount ≤ idx)) || (kind = 2 && 1024 ≤ idx)
  let x := s.chan chan
  ctlFaults (s.core n) d sendFields bad ++
    faultIf (kind = 0 && dev = s.ownId && x.valid && x.ctx != ctx) (.plain .contextViolation) ++
    faultIf (kind = 1 && !(s.claims ctx).hvu) (.plain .contextViolation) ++
    faultIf (kind != 1 && kind != 3 && dev != s.ownId && !s.reaches dev) (.plain .linkUnreachable)

/-- A baton of a descriptor: local ones are delivered at once, in their order (R324, R328). -/
def State.handBaton (s : State) (b : Baton) : State :=
  let d := b.dst.toNat
  if d = s.ownId then
    let n := (Store.get 0 s.sch.sendNo d + 1) % 65536
    (s.onSch fun c => { c with sendNo := Store.set 0 c.sendNo d n, expectNo := Store.set 0 c.expectNo d n }).settleBaton b
  else s.launchBaton b

def batonSendKind : Kind :=
  { code := 6, unit := 0, cls := 0, bank := fun _ => none,
    ready := fun s n d => s.enabled pgSch && (!dbit d 8 12 || (s.core n).allEnded),
    faults := sendFaults,
    act := fun s n _ d =>
      let ctx := (s.core n).ctx
      let dev := dfld d 8 10 0
      let v := dfld d 0x10 31 0
      let idx := dfld d 0x10 63 48
      let t := match dfld d 8 25 24 with
        | 0 => s.handBaton (s.newBaton 1 ctx dev v (dfld d 8 21 16))
        | 1 => s.onSch fun c => { c with locals := c.locals ++ [(idx, dfld d 0x10 47 32)] }
        | _ => s.handBaton (s.newBaton 2 ctx dev v idx)
      (t, .run, []) }

def batonWaitKind : Kind :=
  { code := 7, unit := 0, cls := 0, bank := fun _ => none, ready := fun _ _ _ => true,
    faults := fun s n d =>
      let x := s.chan (dfld d 8 5 0)
      ctlFaults (s.core n) d [(8, 31, 16), (8, 5, 0), (0x10, 15, 0)] (!x.valid) ++
        faultIf (x.valid && x.ctx != (s.core n).ctx) (.plain .contextViolation),
    act := fun s _ _ d =>
      (s, if reached (s.chan (dfld d 8 5 0)).count (dfld d 0x10 15 0) then .run else .wait, []) }

/-- BATON_SEND (R328, R329). -/
def execBatonSend (site : Fin 136) (s : State) : Host.Outcome State Fault Refusal :=
  .next (s.issue site.val batonSendKind noPush)

/-- BATON_WAIT (R328, R329). -/
def execBatonWait (site : Fin 136) (s : State) : Host.Outcome State Fault Refusal :=
  .next (s.issue site.val batonWaitKind noPush)

/-- The limit of a wait in ns: `TIMEOUT_US`, or `SCH_HURDLE_TIMEOUT` where it is 0 (R136, R328). -/
def State.waitLimit (s : State) (d : Desc) : Nat :=
  let us := dfld d 8 31 16
  1000 * (if us = 0 then fld (s.reg pgSch 0x138) 23 0 else us)

/-- HURDLE_TIMEOUT (R136, R328): a wait that passes its limit faults; a hurdle keeps the core's arrival. -/
def execHurdleTimeout (site : Fin 136) (serial : Nat) (s : State) : Host.Outcome State Fault Refusal :=
  let n := site.val
  .next (match (s.core n).seq.entry serial with
    | some e =>
      if e.st = .wait && (Dsc.opcode e.desc = 5 || Dsc.opcode e.desc = 7) && e.since + s.waitLimit e.desc ≤ s.dev.time then
        let t := s.onCore n fun c => c.faultEntry serial (.plain .hurdleTimeout)
        let t := t.raiseFault n e
        if Dsc.opcode e.desc = 7 then t
        else
          let h := dfld e.desc 8 5 0
          let x := t.hurdleOf h
          t.setHurdle h { x with late := x.late ++ [(s.lcoreOf n).getD 128] }
      else s
    | none => s)

/-! Rows. -/

/-- HURDLE_OPEN (R136, R330). -/
def execHurdleOpen (h : Fin 64) (s : State) : Host.Outcome State Fault Refusal :=
  .next (if s.regsUp && s.enabled pgSch then s.openHurdle h.val else s)

/-- USER (R327). -/
def execUser (b : Baton) (s : State) : Host.Outcome State Fault Refusal := .next (s.batonRow 1 b)

/-- LOSS (R339). -/
def execLoss (b : Baton) (s : State) : Host.Outcome State Fault Refusal := .next (s.batonRow 2 b)

/-- HURDLE_ARRIVE (R330). -/
def execHurdleArrive (b : Baton) (s : State) : Host.Outcome State Fault Refusal := .next (s.batonRow 3 b)

/-- HURDLE_RELEASE (R330). -/
def execHurdleRelease (b : Baton) (s : State) : Host.Outcome State Fault Refusal := .next (s.batonRow 4 b)

/-- BKT_PART (R332). -/
def execBktPart (b : Baton) (s : State) : Host.Outcome State Fault Refusal := .next (s.batonRow 5 b)

/-- BKT_ACK (R332). -/
def execBktAck (b : Baton) (s : State) : Host.Outcome State Fault Refusal := .next (s.batonRow 6 b)

/-- BKT_CLOSED (R333). -/
def execBktClosed (b : Baton) (s : State) : Host.Outcome State Fault Refusal := .next (s.batonRow 7 b)

/-- BKT_GATHER (R336). -/
def execBktGather (b : Baton) (s : State) : Host.Outcome State Fault Refusal := .next (s.batonRow 8 b)

/-- VERDICT (R294). -/
def execVerdict (b : Baton) (s : State) : Host.Outcome State Fault Refusal := .next (s.batonRow 9 b)

/-- DIGEST (R306). -/
def execDigest (b : Baton) (s : State) : Host.Outcome State Fault Refusal := .next (s.batonRow 0xA b)

/-- LAP_DONE (R337). -/
def execLapDone (b : Baton) (s : State) : Host.Outcome State Fault Refusal := .next (s.batonRow 0xB b)

/-- LAP_GO (R338, R340). -/
def execLapGo (b : Baton) (s : State) : Host.Outcome State Fault Refusal := .next (s.batonRow 0xC b)

/-- WITHDRAW (R335). -/
def execWithdraw (b : Baton) (s : State) : Host.Outcome State Fault Refusal := .next (s.batonRow 0xD b)

/-- BATON_INVALID (R323): a baton of a type that is not assigned. -/
def execBatonInvalid (b : Baton) (s : State) : Host.Outcome State Fault Refusal :=
  .next (if b.type = 0 || 0xD < b.type.toNat then s.receiveBaton b else s)

/-- BATON_GAP (R324). -/
def execBatonGap (src : BitVec 11) (s : State) : Host.Outcome State Fault Refusal :=
  let open' := fun (h : HeldBaton) => h.ahead && !h.gap && h.b.src = src && h.since + 100000 ≤ s.dev.time
  .next (if s.sch.held.any open' then
    ((s.onSch fun c => { c with held := c.held.map fun h => if open' h then { h with gap := true } else h }).errSet pgSch 1).raise
      pgSch 2
    else s)

/-- Does the job's epoch change at this lap boundary (R345)? The root knows what waits on its own device; no message says what
waits on the others, so a free value stands for that (log 80). -/
def State.epochDue (s : State) : Bool × State :=
  if s.wantsEpoch then (true, s)
  else if s.sch.children = [] then (false, s)
  else let x := s.draw; (bit x.1 0, x.2)

/-- LAP_DONE_SEND (R337, R338): a device done with its lap and its children tells its parent; the root starts the next
lap. -/
def execLapDoneSend (s : State) : Host.Outcome State Fault Refusal :=
  .next (if !s.schOn || s.sch.faulted || s.sch.lapwait || !s.lapDone || !s.childrenDone || s.flm.hold then s
    else if bit (s.reg pgSch 0x13C) 31 then
      let x := s.epochDue
      let t := x.2.lapGo ((s.ctxEpoch s.schCtx + x.1.toNat) % 256)
      t.takeHeld t.sch.held.length
    else s.tellParent)

end Sys2Proof.Machine
end

