-- ==== Sys2Proof/Machine/Cmds.lean ====
section
/-!
DEFINITION. Writes of the command registers that have rules of their own and belong to no unit above: submission lists
(16 R425, R443), `FLM_CMD` (18 R484, R490) and `TRB_SVN_COMMIT` (19 R498), and the registers of cores, channels and
hurdles (05 R153, 12 R346).
-/
namespace Sys2Proof.Machine

/-! Submission lists. -/

def subqOff (k i : Nat) : Nat := 0x600 + 16 * k + 4 * i

def State.subqBase (s : State) (k : Nat) : Nat :=
  fld (s.reg 0 (subqOff k 1)) 12 0 * 2 ^ 32 + (s.reg 0 (subqOff k 0)).toNat

def State.subqOn (s : State) (k : Nat) : Bool := bit (s.reg 0 (subqOff k 2)) 31

/-- May a requester write a list's registers (R443)? -/
def State.subqMay (s : State) (r : Requester) : Bool := r != .host || s.dev.anchor

/-- A write of a list's base, taken only while `EN` is 0. -/
def State.subqBaseWrite (s : State) (r : Requester) (k i : Nat) (v : Word) : State :=
  if s.subqMay r && !s.subqOn k then s.setReg 0 (subqOff k i) (v &&& (if i = 0 then 0xFFFFF000 else 0x1FFF)) else s

/-- A write of `DEV_SUBQk_CFG` (R443). -/
def State.subqCfgWrite (s : State) (r : Requester) (k : Nat) (v : Word) : State :=
  let n := fld v 12 0
  if !s.subqMay r then s
  else if s.subqOn k then (if bit v 31 then s else
    let t := s.setRegBit 0 (subqOff k 2) 31 false
    { t with ctl := { t.ctl with watch := t.ctl.watch.filter (· != k) } })
  else if !bit v 31 then s.setReg 0 (subqOff k 2) (v &&& 0x1FFF)
  else if [16, 32, 64, 128, 256, 512, 1024, 2048, 4096].contains n && s.subqBase k + 512 * n ≤ outerSize s.dev.variant then
    (s.setReg 0 (subqOff k 2) (v &&& 0x80001FFF)).setReg 0 (subqOff k 3) 0
  else (s.errSet 0 0).errCount 0 1

/-- DEV_SUBQ_CFG_WRITE (R443). -/
def execDevSubqCfgWrite (r : Requester) (k : Fin 8) (v : Word) (s : State) : Host.Outcome State Fault Refusal :=
  .next (s.onWrite r 0 (subqOff k.val 2) fun s => s.subqCfgWrite r k.val v)

/-! The fault manager and the trust block. -/

/-- A write of `FLM_CMD`: `RELEASE` lets the held devices continue (R484, R490). -/
def State.flmCmdWrite (s : State) (v : Word) : State :=
  if bit v 0 && s.flm.hold then
    ({ s with flm := { s.flm with hold := false } }).flmPhase (if s.flm.replay = none then 0 else 4)
  else s

/-- RELEASE: a write of `FLM_CMD` (R484, R490). -/
def execRelease (r : Requester) (v : Word) (s : State) : Host.Outcome State Fault Refusal :=
  .next (s.onWrite r pgFlm 0x10C fun s => s.flmCmdWrite v)

/-- The commit of R498. -/
def State.svnCommit (s : State) : State :=
  let t := s.trb
  if t.fallback || t.svn ≤ t.fuseF then s.errSet pgTrb 3
  else
    let rev := (List.range 4).filter fun k => t.revoke.testBit k && k != t.kslot
    ({ s with trb := { t with fuseF := t.svn, revoked := (t.revoked ++ rev).eraseDups } }).raise pgTrb 3

/-- TRB_SVN_COMMIT: a write of its `COMMIT` bit (R498). -/
def execTrbSvnCommit (r : Requester) (v : Word) (s : State) : Host.Outcome State Fault Refusal :=
  .next (s.onWrite r pgTrb 0x108 fun s => if bit v 0 then s.svnCommit else s)

/-! Cores, channels and hurdles. -/

/-- A write of `CORE_RUN`, `CORE_LIST_BASE_*`, a dependency counter or the loop stack (R153). -/
def State.coreWrite (s : State) (n off : Nat) (v : Word) : State :=
  if off = 0x104 then
    s.idleWrite n fun c => { c with ctxValid := bit v 31, ctx := fld v 26 24, epoch := fld v 7 0 }
  else if off = 0x108 then
    s.idleWrite n fun c => { c with seq := { c.seq with base := c.seq.base / 2 ^ 32 * 2 ^ 32 + v.toNat / 64 * 64 } }
  else if off = 0x10C then
    s.idleWrite n fun c =>
      { c with seq := { c.seq with base := fld v 23 0 * 2 ^ 32 + c.seq.base % 2 ^ 32, baseSpd := bit v 31 } }
  else if off = 0x110 then s.listCtrl n v
  else if 0x180 ≤ off then s.loopStackWrite n ((off - 0x180) / 4) v
  else s.idleWrite n fun c => { c with dep := Store.set 0 c.dep ((off - 0x140) / 4) (fld v 15 0) }

/-- A write of a channel's or a hurdle's registers, taken only while the SCH is not enabled (R346). -/
def State.schSlotWrite (s : State) (off : Nat) (v : Word) : State :=
  if bit (s.reg pgSch 0x100) 31 then s
  else if off < 0x600 then
    let k := (off - 0x400) / 8
    s.setChan k { s.chan k with valid := bit v 31, ctx := fld v 30 28, count := fld v 15 0 }
  else
    let h := (off - 0x800) / 32
    let x := s.hurdleOf h
    if off % 32 = 0 then
      s.setHurdle h { x with valid := bit v 31, ctx := fld v 30 28, ndev := fld v 27 16, root := fld v 10 0 }
    else if off % 32 = 4 then s.setHurdle h { x with gen := fld v 31 16 }
    else s.setHurdle h { x with cmask := setFld x.cmask (8 * (off % 32 - 8) + 31) (8 * (off % 32 - 8)) v.toNat }

/-- A write of an epoch: a baton that was held for it may now be taken (R325, R346). -/
def State.epochWrite (s : State) (off : Nat) (v : Word) : State :=
  let t := s.setReg pgSch off (v &&& 0xFF)
  t.takeHeld t.sch.held.length

end Sys2Proof.Machine
end

