-- ==== Sys2Proof/Machine/Media.lean ====
section
/-!
DEFINITION. The media engine and the sensor alignment unit: jobs, attempts and substitution, decoded samples, alignment,
and the staging buffer (14 R369-R392).
-/
namespace Sys2Proof.Machine

def State.onInput (s : State) (f : Input → Input) : State := { s with input := f s.input }

/-! Tensors that lie in memory. -/

/-- Mark the bytes of some elements. -/
def Tensor.marks (t : Tensor) (cells : List (Nat × Nat × Nat)) (m : Store Bool) : Store Bool :=
  cells.foldl (fun m q => (t.elemBytes q.1 q.2.1 q.2.2).foldl (fun m a => Store.set false m a true) m) m

/-- Runs of consecutive indexes: first and length. -/
def runsOf : Store Bool → List (Nat × Nat)
  | [] => []
  | (a, _) :: m => match runsOf m with
    | [] => [(a, 1)]
    | (b, n) :: rs => if a + 1 = b then (a, n + 1) :: rs else (a, 1) :: (b, n) :: rs

/-- Bytes of a global span where it lies in the own tiers; 0 elsewhere. -/
def State.spanNow (s : State) (a n : Nat) : List Byte :=
  match s.target a n with
  | .outer l => s.tiers.outerBytes l n
  | .near o => s.tiers.nearBytes o n
  | _ => List.replicate n 0

/-- Write a global span for a unit; a span of another device or of the host goes out as a transaction. -/
def State.spanPut (s : State) (ctx a : Nat) (bs : List Byte) : State :=
  match s.target a bs.length with
  | .outer l => (s.writeOuter .write l bs).1
  | .near o => { s with tiers := s.tiers.nearWrite o bs }
  | x => s.requestAt .mediaOut ctx x bs.length (some bs)

/-- Padding cells of matrix b of a tensor in the square-tile layout (R104). -/
def Tensor.allPadding (t : Tensor) (b : Nat) : List (Nat × Nat × Nat) :=
  if t.layout = 1 then [] else
  (((List.range (cdiv t.rows 64)).map fun tr =>
    ((List.range (cdiv t.cols 64)).map fun tc => t.paddingOf tr tc).flatten).flatten).map fun q => (b, q.1, q.2)

/-- Write elements (b, r, c, value) of a tensor in memory and the padding of their matrices, by R49; the counts of the
conversions (R81). -/
def State.writeTensor (s : State) (ctx : Nat) (t : Tensor) (w : Writer) (cells : List ((Nat × Nat × Nat) × Val)) :
    State × Tally :=
  let pads := (((cells.map (·.1.1)).eraseDups).map t.allPadding).flatten
  let runs := runsOf (t.marks pads (t.marks (cells.map (·.1)) []))
  let c0 := runs.foldl (fun c r => c.putBytes r.1 (s.spanNow r.1 r.2)) Core.reset
  let x := cells.foldl (fun (x : Core × Tally) q =>
    let e := encode t.fmt w.rnd w.ovf (w.r12 (t.elemIndex q.1.1 q.1.2.1 q.1.2.2)) q.2
    (x.1.setCode t q.1.1 q.1.2.1 q.1.2.2 e.code, x.2.add e)) (c0, Tally.zero)
  let c2 := pads.foldl (fun c q => c.setCode t q.1 q.2.1 q.2.2 0) x.1
  (runs.foldl (fun s r => s.spanPut ctx r.1 (c2.bytes r.1 r.2)) s, x.2)

/-- The fault of a local span for a context (R27, R92). A run context holds no part of the host window (R26), so a local
address there lies outside it (log 78). -/
def State.localFault (s : State) (ctx a n : Nat) (write : Bool) : List FaultAt :=
  match s.target (s.ownId * 2 ^ 45 + a) n with
  | .host _ => [⟨.contextViolation, a, false⟩]
  | _ => match s.spanFault ctx (s.ownId * 2 ^ 45 + a) n write with
    | some c => [⟨c, a, false⟩]
    | none => []

/-- The faults of an output tensor (R373). -/
def State.outFaults (s : State) (ctx : Nat) (t : Tensor) : List FaultAt :=
  faultIf (t.badFormat || t.fmtCode = 10 || t.bs != 0) (.plain .badFormat) ++
    faultIf (t.badDescriptor || t.spd) (.plain .badDescriptor) ++
    (if t.badFormat || t.badDescriptor || t.spd then [] else
      match s.spanFault ctx t.base t.footprint true with
      | some c => [⟨c, t.base, false⟩]
      | none => [])

/-- Add 1 to a counter of some logical cores, ordered as a `SIGNAL` with `AFTER` (R381). -/
def State.signalMask (s : State) (sender ctr mask : Nat) : State :=
  { s with signals :=
      s.signals ++ ((List.range 128).filter fun i => mask.testBit i).map fun i => ⟨sender, i, ctr, 1, true, none⟩ }

/-- Faults of `SEN`, `CMASK` (R273). -/
def State.maskFaults (s : State) (ctx : Nat) (sen : Bool) (mask : Nat) : List FaultAt :=
  faultIf (!sen && mask != 0) (.plain .badDescriptor) ++
    faultIf ((List.range 128).any fun i => mask.testBit i && !(s.claims ctx).cores.contains i) (.plain .contextViolation)

/-- The run context of a job: the one that may read its record (log 70). -/
def State.jobCtx (s : State) (a n : Nat) : Option Nat :=
  (List.range 8).find? fun c => (s.run c).isSome && s.localFault c a n false = []

/-- Record the fault of a job (R373, R392): `e` is the page's job-fault event. -/
def State.jobFault (s : State) (p e pos : Nat) (ctx : Option Nat) (f : FaultAt) : State :=
  let s := match ctx with
    | some c => { s with input := { s.input with faults := s.input.faults ++ [(c, f.code.code)] } }
    | none => s
  (((s.setReg p 0x118 (BitVec.ofNat 32 (f.code.code * 2 ^ 24 + pos % 64))).errSet p 0).errCount p 1).raise p e

/-! MDE job records (R372). -/

abbrev MdeRec := BitVec 1024

namespace Mr
def td (d : MdeRec) : Tensor := Tensor.ofBits (d.truncate 256)
def nsamp (d : MdeRec) : Nat := dfld d 0x20 63 48
def stab (d : MdeRec) : Nat := dfld d 0x20 44 0
def nrsv (d : MdeRec) : Nat := dfld d 0x28 63 48
def rsv (d : MdeRec) : Nat := dfld d 0x28 44 0
def logn (d : MdeRec) : Nat := dfld d 0x30 63 48
def log (d : MdeRec) : Nat := dfld d 0x30 44 0
def mb (d : MdeRec) : Nat := dfld d 0x38 63 48
def stat (d : MdeRec) : Nat := dfld d 0x38 44 0
def outcs (d : MdeRec) : Nat := dfld d 0x40 63 62
def down (d : MdeRec) : Nat := dfld d 0x40 61 60
def rnd (d : MdeRec) : Nat := dfld d 0x40 59 58
def ovf (d : MdeRec) : Nat := dfld d 0x40 57 56
def sen (d : MdeRec) : Bool := dbit d 0x40 55
def replay (d : MdeRec) : Bool := dbit d 0x40 54
def ctr (d : MdeRec) : Nat := dfld d 0x40 51 48
def cropy (d : MdeRec) : Nat := dfld d 0x40 47 32
def cropx (d : MdeRec) : Nat := dfld d 0x40 31 16
def mean (d : MdeRec) (c : Nat) : Val := val32 (dfld d (0x48 + 8 * c) 63 32)
def istd (d : MdeRec) (c : Nat) : Val := val32 (dfld d (0x48 + 8 * c) 31 0)
def cmask (d : MdeRec) : Nat := dfld d 0x60 127 0
def nfr (d : MdeRec) : Nat := dfld d 0x70 44 32
def lap (d : MdeRec) : Nat := dfld d 0x70 31 0
/-- channels written -/
def chans (d : MdeRec) : Nat := if outcs d = 0 then 1 else 3
def reserved (d : MdeRec) : Bool :=
  dfld d 0x20 47 45 != 0 || dfld d 0x28 47 45 != 0 || dfld d 0x30 47 45 != 0 || dfld d 0x38 47 45 != 0 ||
    dfld d 0x40 53 52 != 0 || dfld d 0x40 15 0 != 0 || dfld d 0x70 63 45 != 0 || dfld d 0x78 63 0 != 0
end Mr

/-- A sample or reserve entry (R372). -/
abbrev Sample := BitVec 256

namespace Sp
def src (e : Sample) : Nat := dfld e 0 55 0
def codec (e : Sample) : Nat := dfld e 8 47 44
def cls (e : Sample) : Nat := dfld e 8 43 41
def sctx (e : Sample) : Nat := dfld e 8 40 32
def len (e : Sample) : Nat := dfld e 8 31 0
def frame0 (e : Sample) : Nat := dfld e 0x10 11 0
def sid (e : Sample) : Nat := dfld e 0x18 31 0
def bad (e : Sample) : Bool :=
  dfld e 0 63 56 != 0 || dfld e 8 63 48 != 0 || dfld e 0x10 63 12 != 0 || dfld e 0x18 63 32 != 0 || len e = 0
end Sp

def State.sampleAt (s : State) (a : Nat) : Sample := bitsOf 256 (s.tiers.localBytes a 32)

/-- Does a stream context lie outside the range of a run context (R371)? `hi` and `cnt` are the fields of the range
register. -/
def rangeMisses (w : Word) (hi k : Nat) : Bool :=
  let first := fld w (if hi = 25 then 8 else 5) 0
  k < first || first + fld w hi 16 ≤ k

/-- Faults of a sample or reserve entry. -/
def State.sampleFaults (s : State) (ctx a : Nat) : List FaultAt :=
  let e := s.sampleAt a
  faultIf (Sp.bad e) (.plain .badDescriptor) ++
    faultIf (rangeMisses (s.reg pgMde (0x140 + 4 * ctx)) 25 (Sp.sctx e)) (.plain .contextViolation)

/-- Faults of a job (R372-R374). -/
def State.mdeFaults (s : State) (ctx : Nat) (d : MdeRec) : List FaultAt :=
  let t := Mr.td d
  let spans := s.localFault ctx (Mr.stab d) (32 * Mr.nsamp d) false ++ s.localFault ctx (Mr.rsv d) (32 * Mr.nrsv d) false ++
    s.localFault ctx (Mr.log d) (16 * Mr.logn d) true ++ s.localFault ctx (Mr.stat d) (4 * Mr.nsamp d) true
  faultIf (Mr.reserved d || Mr.nsamp d = 0 || Mr.nrsv d = 0 || Mr.logn d < 16 || Mr.stab d % 32 != 0 || Mr.rsv d % 32 != 0 ||
      Mr.log d % 16 != 0 || Mr.stat d % 4 != 0 || Mr.outcs d = 3 || Mr.down d = 3 || Mr.rnd d = 3 || Mr.ovf d = 3 ||
      Mr.nfr d = 0 || 4096 < Mr.nfr d || t.batchM1 + 1 != Mr.nsamp d * Mr.nfr d * Mr.chans d) (.plain .badDescriptor) ++
    s.outFaults ctx t ++ s.maskFaults ctx (Mr.sen d) (Mr.cmask d) ++ spans ++
    (if spans != [] then [] else
      ((List.range (Mr.nsamp d)).map fun i => s.sampleFaults ctx (Mr.stab d + 32 * i)).flatten ++
      ((List.range (Mr.nrsv d)).map fun i => s.sampleFaults ctx (Mr.rsv d + 32 * i)).flatten)

/-- Take a job record into the queue of the MDE. -/
def State.mdeTake (s : State) (d : MdeRec) (c : Nat) : State :=
  match firstFault (s.mdeFaults c d) with
  | some f => s.jobFault pgMde 2 s.input.jobs.length (some c) f
  | none => s.onInput fun x =>
      { x with jobs := x.jobs ++ [⟨x.serial, d, c, Store.get 0 x.pushed (Mr.lap d), 0, 0, [], false⟩], serial := x.serial + 1,
               pushed := Store.set 0 x.pushed (Mr.lap d) (Store.get 0 x.pushed (Mr.lap d) + 1) }

/-- Push the record at an address. -/
def State.mdePushAt (s : State) (a : Nat) : State :=
  if 32 ≤ s.input.jobs.length then s.errSet pgMde 1
  else match s.jobCtx a 128 with
    | none => s.jobFault pgMde 2 s.input.jobs.length none (.plain .contextViolation)
    | some c => s.mdeTake (bitsOf 1024 (s.tiers.localBytes a 128)) c

/-- A push of the MDE (R372, R373). -/
def State.mdePush (s : State) (v : Word) : State := s.mdePushAt (fld v 12 0 * 2 ^ 32 + (s.reg pgMde 0x110).toNat)

/-! The substitution log (R379, R380). -/

/-- A log entry as a number of 128 bits. -/
def logEntry (lap mb reason unit tries : Nat) (zero : Bool) (pos rsv sid : Nat) : Nat :=
  lap + mb * 2 ^ 32 + reason * 2 ^ 48 + unit * 2 ^ 52 + (tries - 1) * 2 ^ 53 + zero.toNat * 2 ^ 56 + 2 ^ 64 * (pos + rsv * 2 ^ 16 +
    sid * 2 ^ 32)

/-- The entry that a log holds for a position of a job. -/
def State.logged (s : State) (log logn lap mb unit pos : Nat) : Option (BitVec 128) :=
  ((List.range logn).map fun i => (bitsOf 128 (s.tiers.localBytes (log + 16 * i) 16) : BitVec 128)).find? fun e =>
    dfld e 0 31 0 = lap && dfld e 0 47 32 = mb && dfld e 0 52 52 = unit && dfld e 8 15 0 = pos && dfld e 0 51 48 != 0

/-- What the log says of a position, as an attempt. -/
def loggedAttempt (pos : Nat) (e : BitVec 128) : Attempt :=
  ⟨pos, dfld e 0 55 53 + 1, dfld e 0 51 48, dfld e 8 31 16, if dbit e 0 56 then 4 else 0, false⟩

/-- Write the log entry of a substituted position. -/
def State.writeLog (s : State) (log logn e : Nat) : State :=
  (s.localWrite (log + 16 * ((s.reg pgMde 0x12C).toNat % logn)) (natLe 16 e)).wrapReg pgMde 0x12C 1

/-- The status word of a position (R379). -/
def Attempt.word (t : Attempt) : Nat :=
  t.reason * 2 ^ 28 + t.tries * 2 ^ 24 + boolBit (t.st = 3 || t.st = 4) 23 + boolBit t.diverge 22 +
    (if t.st = 3 || t.st = 4 then 0xFFFF else t.rsv)

/-! Attempts of the MDE (R370, R376-R378). -/

def State.mdeJob (s : State) (n : Nat) : Option MdeJob := s.input.jobs.find? (·.serial = n)

def State.onMdeJob (s : State) (n : Nat) (f : MdeJob → MdeJob) : State :=
  s.onInput fun x => { x with jobs := x.jobs.map fun j => if j.serial = n then f j else j }

def MdeJob.att (j : MdeJob) (pos : Nat) : Option Attempt := j.atts.find? (·.pos = pos)

/-- Put an attempt in its place: a job's attempts stand in ascending order of position. -/
def MdeJob.putAtt (j : MdeJob) (t : Attempt) : MdeJob :=
  { j with atts := j.atts.filter (fun u => decide (u.pos < t.pos)) ++ t :: j.atts.filter fun u => decide (t.pos < u.pos) }

/-- The first attempt at a position: from the log under `REPLAY`. -/
def State.firstAttempt (s : State) (j : MdeJob) (pos : Nat) : Attempt :=
  let d := j.bits
  match (if Mr.replay d then s.logged (Mr.log d) (Mr.logn d) (Mr.lap d) (Mr.mb d) 0 pos else none) with
  | some e => loggedAttempt pos e
  | none => ⟨pos, 1, 0, 0xFFFF, 0, false⟩

/-- The client of a sample that another device or the host holds. -/
def sampleClient (j : MdeJob) (pos : Nat) : Client := .media (65536 * j.serial + pos)

def State.sampleTxn (s : State) (j : MdeJob) (pos : Nat) : Option Txn := s.txns.find? (·.client = sampleClient j pos)

/-- The position of a job that waits for a pipe: a substitute, or the next one that replay does not write as zeros. -/
def State.waitingPos (s : State) (j : MdeJob) : Option Nat :=
  match j.atts.find? fun t => t.st = 0 && (match s.sampleTxn j t.pos with | some x => x.done | none => true) with
  | some t => some t.pos
  | none => ((List.range (Mr.nsamp j.bits - j.next)).map (j.next + ·)).find? fun p => (s.firstAttempt j p).st = 0

/-- The context that owns a pipe (R371). -/
def State.pipeOwner (s : State) (n : Nat) : Option Nat :=
  let f := fld (s.reg pgMde (0x108 + 4 * (n / 8))) (4 * (n % 8) + 3) (4 * (n % 8))
  if 8 ≤ f then some (f % 8) else none

/-- The job and position that a free pipe takes (R370). -/
def State.pipeWork (s : State) (n : Nat) : Option (MdeJob × Nat) :=
  match s.pipeOwner n with
  | none => none
  | some c => (s.input.jobs.filterMap fun j =>
      if j.ctx = c then (s.waitingPos j).map fun p => (j, p) else none).head?

/-- The entry that an attempt decodes. -/
def State.attemptSample (s : State) (j : MdeJob) (t : Attempt) : Sample :=
  if t.rsv = 0xFFFF then s.sampleAt (Mr.stab j.bits + 32 * t.pos) else s.sampleAt (Mr.rsv j.bits + 32 * t.rsv)

/-- Check 1: may the context read the source, and does the read return no poison? -/
def State.sourceBad (s : State) (j : MdeJob) (pos : Nat) (e : Sample) : Bool :=
  (s.spanFault j.ctx (Sp.src e) (Sp.len e) false).isSome ||
    match s.target (Sp.src e) (Sp.len e) with
    | .outer l => s.tiers.poisoned l (Sp.len e)
    | .near o => s.tiers.nearBad o (Sp.len e)
    | _ => match s.sampleTxn j pos with | some x => x.status != 0 | none => false

/-- Is what a header declares among the inputs of R369: profile, bit depth, chroma, a picture of at least 16 × 16, and a
random-access start for video (log 78)? -/
def headerFits (h : MediaHeader) (codec : Nat) : Bool :=
  h.supported && 16 ≤ h.width && 16 ≤ h.height &&
    match codec with
    | 0 => h.depth = 8
    | 1 => h.randomAccess && h.depth = 8 && h.chroma.val ≤ 1
    | 2 => h.randomAccess && (h.depth = 8 || h.depth = 10) && h.chroma = 1
    | 3 => h.randomAccess && (h.depth = 8 || h.depth = 10) && h.chroma.val ≤ 1
    | _ => false

/-- Checks 1 to 6 of R376: the reason of the rejection, 0 for none. -/
def State.headReason (s : State) (j : MdeJob) (pos : Nat) (e : Sample) (h : MediaHeader) : Nat :=
  let n := Sp.frame0 e + Mr.nfr j.bits
  let k := 2 ^ Mr.down j.bits
  if s.sourceBad j pos e || !h.sourceOk then 1
  else if !h.headerFound then 2
  else if !headerFits h (Sp.codec e) then 3
  else if 8192 < h.width || 8192 < h.height || (4096 * 4096 < h.width * h.height && s.input.owner != 1) || 4096 < n ||
      (Sp.codec e = 0 && n != 1) || (s.reg pgMde 0x11C).toNat * Sp.len e < h.width * h.height * n then 4
  else if h.height < Mr.cropy j.bits + (Mr.td j.bits).rows * k || h.width < Mr.cropx j.bits + (Mr.td j.bits).cols * k then 5
  else 0

/-- The counter of a reason: source, corrupt, unsupported, oversize, shape, timeout. -/
def skipReg (reason : Nat) : Nat := 0x1A0 + 4 * (reason - 1)

/-- Reject an attempt (R376). -/
def State.rejectAttempt (s : State) (j : MdeJob) (t : Attempt) (reason : Nat) : State :=
  let u := { t with st := 3, reason := if t.reason = 0 then reason else t.reason }
  (({ s with txns := s.txns.filter (·.client != sampleClient j t.pos) }).countReg pgMde (skipReg reason) 1).onMdeJob j.serial
    fun j => j.putAtt u

/-- Take up a position of a job; earlier ones that replay writes as zeros need no pipe. -/
def State.takeUp (s : State) (j : MdeJob) (pos : Nat) : MdeJob :=
  if pos < j.next then j else
  let js := (List.range (pos + 1 - j.next)).foldl (fun j i => j.putAtt (s.firstAttempt j (j.next + i))) j
  { js with next := pos + 1 }

/-- A read that passes the checks of its header begins to decode in a pipe; one that does not is rejected. -/
def State.decodeIn (s : State) (pipe : Nat) (j : MdeJob) (pos : Nat) (h : MediaHeader) (t : Attempt) (x : Target) (n : Nat) :
    State :=
  match s.headReason j pos (s.attemptSample j t) h with
  | 0 =>
    ((match x with | .outer l => s.chargeRead .read l n | _ => s).onMdeJob j.serial fun j =>
      j.putAtt { t with st := 1 }).onInput fun y =>
        { y with pipes := Store.set none y.pipes pipe (some ⟨j.serial, pos, s.dev.time, Sp.sctx (s.attemptSample j t), h⟩) }
  | r => s.rejectAttempt j t r

/-- Does a pipe decode a sample in a stream context (R370: a context holds one sample at a time)? -/
def State.sctxBusy (s : State) (k : Nat) : Bool :=
  s.input.pipes.any fun x => match x.2 with | some p => p.sctx = k | none => false

/-- An attempt of a job: it waits for its stream context and for a block under repair, asks for a sample elsewhere, or goes
on. -/
def State.decodeAttempt (s : State) (pipe : Nat) (j : MdeJob) (pos : Nat) (h : MediaHeader) (t : Attempt) (x : Target)
    (n : Nat) : State :=
  let away := match x with | .far .. => true | .host _ => true | _ => false
  let held := match x with | .outer l => s.tiers.repairing l n | _ => false
  if held || s.sctxBusy (Sp.sctx (s.attemptSample j t)) then s
  else if away && (s.sampleTxn j pos).isNone then s.requestAt (sampleClient j pos) j.ctx x n none
  else s.decodeIn pipe j pos h t x n

/-- The job as it stands once the attempt at a position is taken up. -/
def State.jobAt (s : State) (j : MdeJob) (pos : Nat) : MdeJob :=
  { s.takeUp j pos with next := max j.next (pos + 1) }

/-- MDE_DECODE_START (R370, R376): the header checks are made, and the pipe is taken where they pass. A sample of another
device or of the host is first asked for. -/
def State.decodeStart (s : State) (pipe : Nat) (j0 : MdeJob) (pos : Nat) (h : MediaHeader) : State :=
  let j := s.jobAt j0 pos
  let u := s.onMdeJob j.serial fun _ => j
  match j.att pos with
  | none => u
  | some t =>
    let e := u.attemptSample j t
    u.decodeAttempt pipe j pos h t (u.target (Sp.src e) (Sp.len e)) (Sp.len e)

/-! Decoded pictures (R374, R375). -/

/-- Rows and columns that one chroma sample stands for. -/
def chromaStep (h : MediaHeader) : Nat × Nat := match h.chroma.val with | 1 => (2, 2) | 2 => (1, 2) | _ => (1, 1)

/-- Bytes of a sample value. -/
def depthBytes (h : MediaHeader) : Nat := if h.depth ≤ 8 then 1 else 2

def chromaDims (h : MediaHeader) : Nat × Nat := (cdiv h.height (chromaStep h).1, cdiv h.width (chromaStep h).2)

/-- Bytes of a decoded frame: the luma plane, then Cb and Cr where there are any, each row-major and little-endian. -/
def frameBytes (h : MediaHeader) : Nat :=
  depthBytes h * (h.width * h.height + if h.chroma.val = 0 then 0 else 2 * ((chromaDims h).1 * (chromaDims h).2))

/-- The value at offset i of a frame of the decoded bytes, as v of R375 step 1. -/
def frameValue (h : MediaHeader) (px : List Byte) (f i : Nat) : Val :=
  let n := depthBytes h
  val32 (round32 (quotient (.num false (leNat ((px.drop (f * frameBytes h + n * i)).take n)) 0) (.num false (2 ^ h.depth - 1) 0))).code

/-- The FP32 code of a value that has been rounded. -/
def bits32 (v : Val) : BitVec 32 := BitVec.ofNat 32 (round32 v).code

/-- v of plane 0 (Y), 1 (Cb) or 2 (Cr) at a luma position; chroma is replicated. The spec states no chroma for a picture
without any: a free function of the luma value stands there. -/
def planeValue (h : MediaHeader) (px : List Byte) (f pl y x : Nat) : Val :=
  if pl = 0 then frameValue h px f (y * h.width + x)
  else if h.chroma.val = 0 then
    val32 (Config.noChroma pl (bits32 (frameValue h px f (y * h.width + x)))).toNat
  else
    let d := chromaDims h
    frameValue h px f (h.width * h.height + (pl - 1) * (d.1 * d.2) + y / (chromaStep h).1 * d.2 + x / (chromaStep h).2)

/-- A constant of the colour forms: the FP32 code nearest to a quotient. -/
def ratio32 (neg : Bool) (a b : Nat) : Val :=
  val32 (round32 (quotient (.num neg a 0) (.num false b 0))).code

/-- A term of a colour form: plane, offset and coefficient. -/
structure ColourTerm where
  plane : Nat
  offset : Val
  coef : Val

/-- R, G or B (c = 0, 1, 2) of full-range JPEG as in JFIF: the coefficients that JFIF publishes (log 17). -/
def jfifTerms (c : Nat) : List ColourTerm :=
  let half := ratio32 false 128 255
  ⟨0, .zero, .num false 1 0⟩ ::
    match c with
    | 0 => [⟨2, half, ratio32 false 1402 1000⟩]
    | 1 => [⟨1, half, ratio32 true 34414 100000⟩, ⟨2, half, ratio32 true 71414 100000⟩]
    | _ => [⟨1, half, ratio32 false 1772 1000⟩]

/-- R, G or B of BT.709 limited range at bit depth d: luma spans 219 steps from 16, chroma 224 about 128, in units of
2^(d − 8), and the luma weights are 0.2126, 0.7152 and 0.0722 (log 17). -/
def bt709Terms (d c : Nat) : List ColourTerm :=
  let u := 2 ^ (d - 8)
  let full := 2 ^ d - 1
  let half := ratio32 false (128 * u) full
  let chroma := fun neg a b => ratio32 neg (a * full) (b * 224 * u)
  ⟨0, ratio32 false (16 * u) full, ratio32 false full (219 * u)⟩ ::
    match c with
    | 0 => [⟨2, half, chroma false 15748 10000⟩]
    | 1 => [⟨1, half, chroma true (2 * 722 * 9278) (7152 * 10000)⟩, ⟨2, half, chroma true (2 * 2126 * 7874) (7152 * 10000)⟩]
    | _ => [⟨1, half, chroma false 18556 10000⟩]

/-- Add the terms of a colour form in order, every operation rounded to FP32 and counted (R375 step 3, R81). -/
def addTerms (v : Nat → Val) (ts : List ColourTerm) : Val × Tally :=
  let x := ts.foldl (fun (a : Option Val × Tally) t =>
    let d := fadd32 a.2 (v t.plane) t.offset.neg
    let m := fmul32 d.2 d.1 t.coef
    match a.1 with
    | none => (some m.1, m.2)
    | some w => let r := fadd32 m.2 w m.1; (some r.1, r.2)) (none, .zero)
  (x.1.getD .zero, x.2)

/-- Channel c at a luma position (R375 step 3) and the roundings it takes. -/
def channelValue (d : MdeRec) (jpeg : Bool) (h : MediaHeader) (px : List Byte) (f c y x : Nat) : Val × Tally :=
  let v := fun pl => planeValue h px f pl y x
  if Mr.outcs d = 1 then addTerms v (if jpeg then jfifTerms c else bt709Terms h.depth c) else (v c, .zero)

/-- The box downscale and the normalisation (R375 steps 4 and 5), with every rounding counted (R81). -/
def outputValue (d : MdeRec) (jpeg : Bool) (h : MediaHeader) (px : List Byte) (f c r k : Nat) : Val × Tally :=
  let n := 2 ^ Mr.down d
  let vs := ((List.range n).map fun i => (List.range n).map fun j =>
    channelValue d jpeg h px f c (Mr.cropy d + r * n + i) (Mr.cropx d + k * n + j)).flatten
  let sum := sumPartials (vs.map (·.1))
  let mean := fmul32 (vs.foldl (fun t v => t.join v.2) sum.2) sum.1 (.num false 1 (-(2 * Mr.down d : Int)))
  let dev := fadd32 mean.2 mean.1 (Mr.mean d c).neg
  fmul32 dev.2 dev.1 (Mr.istd d c)

/-- The cells of a position: frame, channel, row and column, with their place in `TD`. -/
def sampleCells (d : MdeRec) (pos : Nat) : List ((Nat × Nat × Nat × Nat) × (Nat × Nat × Nat)) :=
  let t := Mr.td d
  ((List.range (Mr.nfr d)).map fun f => ((List.range (Mr.chans d)).map fun c =>
    (regionCells 0 t.rows 0 t.cols).map fun q =>
      ((f, c, q.1, q.2), ((pos * Mr.nfr d + f) * Mr.chans d + c, q.1, q.2))).flatten).flatten

/-- How a job writes: `STREAM` is its position in the push order of its lap (R375 step 6, R82-R84). -/
def State.mdeWriter (s : State) (j : MdeJob) : Writer :=
  let p := s.drawPlace j.ctx
  { rnd := Mr.rnd j.bits, ovf := Mr.ovf j.bits, slot := none
    r12 := fun i => (stride (strideCounter j.order p.1 p.2 15 i) (s.keyOf j.ctx j.order)).toNat % 4096 }

/-- Write the elements of a position and count the conversions and the roundings that formed the values. -/
def State.writeSample (s : State) (j : MdeJob) (pos : Nat) (f : (Nat × Nat × Nat × Nat) → Val × Tally) : State :=
  let vs := (sampleCells j.bits pos).map fun q => (q.2, f q.1)
  let x := s.writeTensor j.ctx (Mr.td j.bits) (s.mdeWriter j) (vs.map fun q => (q.1, q.2.1))
  let t := (x.1.countReg pgMde 0x1C4 x.2.lost).countReg pgMde 0x1C8 (vs.foldl (fun n q => n + q.2.2.flush) x.2.flush)
  if Mr.ovf j.bits = 2 && x.2.exceed != 0 then t.onMdeJob j.serial fun j => { j with ovf := true } else t

/-! Decode times (R377). -/

def State.meanWord (s : State) (ctx k : Nat) : Word := Store.get 0 s.input.means (8 * ctx + k)

/-- The limit of an attempt in units of 1/256 ns. -/
def State.decodeLimit (s : State) (ctx k : Nat) : Nat :=
  let cap := 256 * 1000 * (s.reg pgMde 0x124).toNat
  let w := s.meanWord ctx k
  if fld w 7 0 < 16 then cap else min cap (1000 * ((s.reg pgMde 0x120).toNat * fld w 31 8))

/-- Has the attempt in a pipe passed its limit? Check 8 does not apply in replay (R380). -/
def State.decodeLate (s : State) (j : MdeJob) (p : MdePipe) (k : Nat) : Bool :=
  !Mr.replay j.bits && s.decodeLimit j.ctx k < 256 * (s.dev.time - p.since)

/-- The mean after a decode of t ns. Between two codes, and above the register's range, the spec names no rounding: a free
value does. -/
def State.takeMean (s : State) (ctx k t : Nat) : State :=
  let w := s.meanWord ctx k
  let x := s.draw
  let num := 15000 * fld w 31 8 + 256 * t
  let q := num / 16000
  let m := if num % 16000 = 0 then q else q + x.1.toNat % 2
  let v := if m < 2 ^ 24 then m else x.1.toNat / 2 % 2 ^ 24
  x.2.onInput fun y =>
    { y with means := Store.set 0 y.means (8 * ctx + k) (BitVec.ofNat 32 (v * 256 + min 16 (fld w 7 0 + 1))) }

def State.freePipe (s : State) (n : Nat) : State := s.onInput fun y => { y with pipes := Store.set none y.pipes n none }

/-- MDE_DECODE_DONE (R374-R377): `ok` says that the decode met no syntax error, and `px` holds the decoded frames in display
order, of which `FRAME0` and those after it are output. -/
def State.decodeDone (s : State) (n : Nat) (p : MdePipe) (j : MdeJob) (t : Attempt) (ok : Bool) (px : List Byte) : State :=
  let e := s.attemptSample j t
  let u := s.freePipe n
  if s.decodeLate j p (Sp.cls e) then s
  else if !ok || px.length < (Sp.frame0 e + Mr.nfr j.bits) * frameBytes p.head then u.rejectAttempt j t 2
  else
    let u := { u with txns := u.txns.filter (·.client != sampleClient j t.pos) }
    let v := u.writeSample j t.pos fun q =>
      outputValue j.bits (Sp.codec e = 0) p.head px (Sp.frame0 e + q.1) q.2.1 q.2.2.1 q.2.2.2
    ((v.takeMean j.ctx (Sp.cls e) (s.dev.time - p.since)).wrapReg pgMde 0x1C0 (Mr.nfr j.bits)).onMdeJob j.serial fun j =>
      j.putAtt { t with st := 2 }

/-! Commit (R378-R381). -/

/-- A job is complete. -/
def State.mdeComplete (s : State) (j : MdeJob) : State :=
  let d := j.bits
  let t := s.onInput fun x => { x with jobs := x.jobs.filter (·.serial != j.serial) }
  let u := if Mr.sen d then t.signalMask 138 (Mr.ctr d) (Mr.cmask d) else t
  let v := u.raise pgMde 0
  if j.ovf then v.jobFault pgMde 2 0 (some j.ctx) (.plain .ovfFault) else v

/-- Commit a position whose attempt is settled: status word, log entry, cursor. -/
def State.commitPos (s : State) (j : MdeJob) (t : Attempt) : State :=
  let d := j.bits
  let zero := t.st = 3 || t.st = 4
  let s1 := if zero then s.writeSample j t.pos fun _ => (.zero, .zero) else s
  let s2 := if zero then (s1.countReg pgMde 0x1B8 1).raise pgMde 1 else s1
  let s3 := s2.localWrite (Mr.stat d + 4 * t.pos) (natLe 4 t.word)
  let sid := Sp.sid (s.sampleAt (Mr.stab d + 32 * t.pos))
  let s4 := if t.reason = 0 then s3 else
    s3.writeLog (Mr.log d) (Mr.logn d) (logEntry (Mr.lap d) (Mr.mb d) t.reason 0 t.tries zero t.pos (t.word % 65536) sid)
  (s4.wrapReg pgMde 0x128 1).onMdeJob j.serial fun j =>
    { j with commit := j.commit + 1, next := max j.next (j.commit + 1), atts := j.atts.filter (·.pos != t.pos) }

def rsvCur (ctx : Nat) : Nat := 0x160 + 4 * ctx

/-- Take the next reserve entry of a context (R378 step 1); `p` is the unit's page. -/
def State.takeReserve (s : State) (p ctx n : Nat) : Nat × State :=
  ((s.reg p (rsvCur ctx)).toNat % n, s.wrapReg p (rsvCur ctx) 1)

/-- Under `REPLAY` the reserve cursor advances as logged when a position that the log names commits or fails. -/
def State.replayCursor (s : State) (p ctx : Nat) (replay : Bool) (t : Attempt) : State :=
  if replay && !t.diverge && 1 < t.tries then s.wrapReg p (rsvCur ctx) (t.tries - 1) else s

/-- MDE_COMMIT at the first job's next position. -/
def State.mdeCommit (s : State) (j : MdeJob) : State :=
  let d := j.bits
  if Mr.nsamp d ≤ j.commit then (if s.waitingOn (· = .mediaOut) then s else s.mdeComplete j)
  else
    let t := (j.att j.commit).getD (s.firstAttempt j j.commit)
    let s := if t.st = 2 || t.st = 3 || t.st = 4 then s.replayCursor pgMde j.ctx (Mr.replay d) t else s
    if t.st = 2 || t.st = 4 || (t.st = 3 && 4 ≤ t.tries) then s.commitPos j t
    else if t.st = 3 then
      let s1 := if Mr.replay d && !t.diverge then s.countReg pgMde 0x1BC 1 else s
      let x := s1.takeReserve pgMde j.ctx (Mr.nrsv d)
      x.2.onMdeJob j.serial fun j =>
        j.putAtt { t with tries := t.tries + 1, rsv := x.1, st := 0, diverge := t.diverge || Mr.replay d }
    else s

/-! The staging buffer (R382). -/

/-- A write of `MDE_CTRL` or `SAU_CTRL`. -/
def State.stageWrite (s : State) (sau : Bool) (v : Word) : State :=
  let p := if sau then pgSau else pgMde
  let me := if sau then 2 else 1
  if bit v 31 then
    if s.input.releasing || (s.input.owner != 0 && s.input.owner != me) then s.conflict p true
    else (((s.setRegBit p 0x100 31 true).conflict p false)).onInput fun x => { x with owner := me }
  else
    let t := s.setRegBit p 0x100 31 false
    if s.input.owner = me then t.onInput fun x => { x with releasing := true } else t

/-- Is a decode or an alignment still using the buffer? -/
def State.stageUsed (s : State) : Bool :=
  if s.input.owner = 1 then s.input.pipes.any fun x => match x.2 with
    | some p => 4096 * 4096 < p.head.width * p.head.height
    | none => false
  else s.input.sau.any (·.asked)

/-! SAU job records and streams (R383). -/

abbrev SauRec := BitVec 768

namespace Sr
def t0 (d : SauRec) : Int := signedOf 64 (dfld d 0 63 0)
def nstr (d : SauRec) : Nat := dfld d 8 63 56
def npts (d : SauRec) : Nat := dfld d 8 47 32
def period (d : SauRec) : Nat := dfld d 8 31 0
def str (d : SauRec) : Nat := dfld d 0x10 44 0
def nrsv (d : SauRec) : Nat := dfld d 0x18 63 48
def rsv (d : SauRec) : Nat := dfld d 0x18 44 0
def logn (d : SauRec) : Nat := dfld d 0x20 63 48
def log (d : SauRec) : Nat := dfld d 0x20 44 0
def gaplim (d : SauRec) : Nat := dfld d 0x28 63 56
def sen (d : SauRec) : Bool := dbit d 0x28 55
def replay (d : SauRec) : Bool := dbit d 0x28 54
def ctr (d : SauRec) : Nat := dfld d 0x28 51 48
def mb (d : SauRec) : Nat := dfld d 0x28 47 32
def lap (d : SauRec) : Nat := dfld d 0x28 31 0
def cmask (d : SauRec) : Nat := dfld d 0x30 127 0
def stat (d : SauRec) : Nat := dfld d 0x40 44 0
def reserved (d : SauRec) : Bool :=
  dfld d 8 55 48 != 0 || dfld d 0x10 63 45 != 0 || dfld d 0x18 47 45 != 0 || dfld d 0x20 47 45 != 0 ||
    dfld d 0x28 53 52 != 0 || dfld d 0x40 63 45 != 0 || dfld d 0x48 191 0 != 0
end Sr

/-- A stream entry (R383). -/
abbrev Strm := BitVec 768

namespace St
def rec (d : Strm) : Nat := dfld d 0 55 0
def sstr (d : Strm) : Nat := dfld d 8 63 58
def mode (d : Strm) : Nat := dfld d 8 41 40
def vfmt (d : Strm) : Fmt := match dfld d 8 39 38 with | 1 => .bf16 | 2 => .fp16 | _ => .fp32
def chans (d : Strm) : Nat := dfld d 8 37 32 + 1
def rstride (d : Strm) : Nat := dfld d 8 31 0
def offset (d : Strm) : Int := signedOf 64 (dfld d 0x10 63 0)
def drift (d : Strm) : Int := signedOf 32 (dfld d 0x18 63 32)
def wbefore (d : Strm) : Nat := dfld d 0x18 31 0
def fill (d : Strm) : Val := val32 (dfld d 0x20 63 32)
def wafter (d : Strm) : Nat := dfld d 0x20 31 0
def mask (d : Strm) : Nat := dfld d 0x28 44 0
def t0s (d : Strm) : Int := signedOf 64 (dfld d 0x30 63 0)
def nrec (d : Strm) : Nat := dfld d 0x38 15 0
def td (d : Strm) : Tensor := Tensor.ofBits (d.extractLsb' 512 256)
/-- bytes of one channel value, and of a record -/
def valueBytes (d : Strm) : Nat := (vfmt d).width / 8
def recBytes (d : Strm) : Nat := 8 + chans d * valueBytes d
/-- bytes of the record array -/
def span (d : Strm) : Nat := (nrec d - 1) * rstride d + recBytes d
def bad (d : Strm) : Bool :=
  dfld d 0 63 56 != 0 || dfld d 8 57 42 != 0 || mode d = 3 || dfld d 8 39 38 = 3 || rstride d < recBytes d ||
    rstride d % 8 != 0 || dfld d 0x28 63 45 != 0 || mask d % 8 != 0 || dfld d 0x38 63 16 != 0 || nrec d = 0
end St

def State.strmAt (s : State) (d : SauRec) (i : Nat) : Strm := bitsOf 768 (s.tiers.localBytes (Sr.str d + 96 * i) 96)

def State.strms (s : State) (d : SauRec) : List Strm := (List.range (Sr.nstr d)).map (s.strmAt d)

/-- Faults of a stream entry. -/
def State.strmFaults (s : State) (ctx : Nat) (d : SauRec) (x : Strm) : List FaultAt :=
  let t := St.td x
  faultIf (St.bad x || t.rows != Sr.npts d || t.cols != St.chans x || t.batchM1 != 0) (.plain .badDescriptor) ++
    faultIf (rangeMisses (s.reg pgSau (0x140 + 4 * ctx)) 22 (St.sstr x)) (.plain .contextViolation) ++
    s.outFaults ctx t ++ s.localFault ctx (St.mask x) (cdiv (Sr.npts d) 8) true

/-- Faults of an SAU job (R383, R373). -/
def State.sauFaults (s : State) (ctx : Nat) (d : SauRec) : List FaultAt :=
  let spans := s.localFault ctx (Sr.str d) (96 * Sr.nstr d) false ++ s.localFault ctx (Sr.rsv d) (8 * Sr.nrsv d) false ++
    s.localFault ctx (Sr.log d) (16 * Sr.logn d) true ++ s.localFault ctx (Sr.stat d) 4 true
  faultIf (Sr.reserved d || Sr.nstr d = 0 || 64 < Sr.nstr d || Sr.npts d = 0 || Sr.period d = 0 || Sr.str d % 64 != 0 ||
      Sr.nrsv d = 0 || Sr.logn d < 16 || Sr.log d % 16 != 0 || Sr.stat d % 4 != 0) (.plain .badDescriptor) ++
    s.maskFaults ctx (Sr.sen d) (Sr.cmask d) ++ spans ++
    (if spans != [] then [] else ((s.strms d).map (s.strmFaults ctx d)).flatten)

/-- Take a job record into the queue of the SAU. -/
def State.sauTake (s : State) (d : SauRec) (c : Nat) : State :=
  match firstFault (s.sauFaults c d) with
  | some f => s.jobFault pgSau 1 s.input.sau.length (some c) f
  | none => s.onInput fun x => { x with sau := x.sau ++ [⟨d, c, none, false⟩] }

/-- Push the record at an address. -/
def State.sauPushAt (s : State) (a : Nat) : State :=
  if 32 ≤ s.input.sau.length then s.errSet pgSau 1
  else match s.jobCtx a 96 with
    | none => s.jobFault pgSau 1 s.input.sau.length none (.plain .contextViolation)
    | some c => s.sauTake (bitsOf 768 (s.tiers.localBytes a 96)) c

/-- A push of the SAU (R383). -/
def State.sauPush (s : State) (v : Word) : State := s.sauPushAt (fld v 12 0 * 2 ^ 32 + (s.reg pgSau 0x110).toNat)

/-! Alignment (R384, R385). -/

/-- A record array as read: its bytes, or the status that the read ended with. -/
structure RecArray where
  bytes : List Byte
  status : Nat

/-- Where a record array lies elsewhere than in the own tiers. -/
def State.strmAway (s : State) (x : Strm) : Bool :=
  match s.target (St.rec x) (St.span x) with | .far .. => true | .host _ => true | _ => false

def State.recArray (s : State) (i : Nat) (x : Strm) : RecArray :=
  if s.strmAway x then
    match s.txns.find? fun t => t.client = .sensor i with
    | some t => ⟨t.bytes, t.status⟩
    | none => ⟨[], 12⟩
  else ⟨s.spanNow (St.rec x) (St.span x), 0⟩

/-- The number at an offset of an array. -/
def RecArray.num (a : RecArray) (off n : Nat) : Nat := leNat ((a.bytes.drop off).take n)

/-- Reference time of record i (R384). -/
def recTime (x : Strm) (a : RecArray) (i : Nat) : Int :=
  let t := signedOf 64 (a.num (i * St.rstride x) 8)
  t + St.offset x + (St.drift x * (t - St.t0s x)) / 2 ^ 32

/-- Value of channel c of record i. -/
def recValue (x : Strm) (a : RecArray) (i c : Nat) : Val :=
  decode (St.vfmt x) (a.num (i * St.rstride x + 8 + c * St.valueBytes x) (St.valueBytes x))

/-- The records kept, in order, with their times, and how many were ignored (R384). -/
def keptRecords (x : Strm) (a : RecArray) : List (Nat × Int) × Nat :=
  (List.range (St.nrec x)).foldl (fun k i =>
    let t := recTime x a i
    match k.1.getLast? with
    | none => ([(i, t)], k.2)
    | some l => if l.2 < t then (k.1 ++ [(i, t)], k.2) else (k.1, k.2 + 1)) ([], 0)

/-- The record nearest to a time; a tie goes to the earlier one. -/
def nearestRecord (tk : Int) : List (Nat × Int) → Option (Nat × Int)
  | [] => none
  | r :: rs => match nearestRecord tk rs with
    | none => some r
    | some q => if (q.2 - tk).natAbs < (r.2 - tk).natAbs then some q else some r

/-- The value of channel c at a point with the roundings that formed it; none for a gap (R385, R81). -/
def pointValue (x : Strm) (a : RecArray) (kept : List (Nat × Int)) (tk : Int) (c : Nat) : Option (Val × Tally) :=
  let inWin := fun (r : Nat × Int) => decide (tk - St.wbefore x ≤ r.2 && r.2 ≤ tk + St.wafter x)
  let win := kept.filter inWin
  let before := (win.filter fun r => decide (r.2 ≤ tk)).getLast?
  match St.mode x with
  | 0 => (nearestRecord tk win).map fun r => (recValue x a r.1 c, .zero)
  | 2 => before.map fun r => (recValue x a r.1 c, .zero)
  | _ => match before with
    | none => none
    | some r =>
      if r.2 = tk then some (recValue x a r.1 c, .zero) else
      match (kept.filter fun q => decide (tk < q.2)).head? with
      | none => none
      | some q =>
        if !inWin q then none else
        let w := round32 (quotient (.num false (tk - r.2).toNat 0) (.num false (q.2 - r.2).toNat 0))
        let va := recValue x a r.1 c
        let dv := fadd32 (Tally.zero.add w) (recValue x a q.1 c) va.neg
        some (ffma32 dv.2 (val32 w.code) dv.1 va)

/-- The points of a stream, by point and channel. -/
def strmPoints (d : SauRec) (t0 : Int) (x : Strm) (a : RecArray) : List (List (Option (Val × Tally))) :=
  let kept := (keptRecords x a).1
  (List.range (Sr.npts d)).map fun k => (List.range (St.chans x)).map fun c =>
    pointValue x a kept (t0 + (k * Sr.period d : Nat)) c

def isGap (p : List (Option (Val × Tally))) : Bool := p.any (·.isNone)

/-- Records that fall into a window of the alignment: the first and last that are read. -/
def windowRecords (d : SauRec) (t0 : Int) (x : Strm) (a : RecArray) : List Nat :=
  let lo := t0 - St.wbefore x
  let hi := t0 + ((Sr.npts d - 1) * Sr.period d : Nat) + St.wafter x
  ((keptRecords x a).1.filter fun r => decide (lo ≤ r.2 && r.2 ≤ hi)).map (·.1)

/-- The span of a record array that an alignment reads. -/
def windowSpan (d : SauRec) (t0 : Int) (x : Strm) (a : RecArray) : Nat × Nat :=
  match windowRecords d t0 x a with
  | [] => (St.rec x, 0)
  | i :: is =>
    let l := (i :: is).getLast?.getD i
    (St.rec x + i * St.rstride x, (l - i) * St.rstride x + St.recBytes x)

/-- Does the array give `POISON_INPUT`? -/
def State.arrayPoison (s : State) (d : SauRec) (t0 : Int) (x : Strm) (a : RecArray) : Bool :=
  let w := windowSpan d t0 x a
  w.2 != 0 && match s.target w.1 w.2 with
    | .outer l => s.tiers.poisoned l w.2
    | .near o => s.tiers.nearBad o w.2
    | _ => a.status = 5

/-- The reason that rejects an alignment at t0 because of one stream, 0 for none (R386, R389). -/
def State.strmReason (s : State) (ctx : Nat) (d : SauRec) (t0 : Int) (i : Nat) (x : Strm) : Nat :=
  let a := s.recArray i x
  if (s.spanFault ctx (St.rec x) (St.span x) false).isSome || (s.strmAway x && s.input.owner != 2) ||
      (a.status != 0 && a.status != 5) then 1
  else if a.status = 5 || s.arrayPoison d t0 x a ||
      Sr.gaplim d * Sr.npts d < 256 * ((strmPoints d t0 x a).filter isGap).length then 7
  else 0

/-- The first reason among the streams. -/
def State.alignReason (s : State) (ctx : Nat) (d : SauRec) (t0 : Int) : Nat :=
  ((s.strms d).zipIdx.map fun x => s.strmReason ctx d t0 x.2 x.1).foldl (fun r q => if r = 0 then q else r) 0

/-- Does an array lie under repair? -/
def State.strmHeld (s : State) (x : Strm) : Bool :=
  match s.target (St.rec x) (St.span x) with | .outer l => s.tiers.repairing l (St.span x) | _ => false

/-- The bitmap of a stream (R186). -/
def bitmapBytes (bs : List Bool) : List Byte :=
  natLe (cdiv bs.length 8) ((bs.zipIdx.map fun x => boolBit x.1 x.2).sum)

/-- Write one stream: its points or, where there are none, zeros with mask bits 0 (R385, R386). -/
def State.writeStrm (s : State) (ctx : Nat) (d : SauRec) (x : Strm) (pts : Option (List (List (Option (Val × Tally))))) : State :=
  let val := fun k c => match pts with
    | none => Val.zero
    | some p => if isGap (p.getD k []) then St.fill x else (((p.getD k []).getD c none).getD (.zero, .zero)).1
  let w : Writer := { rnd := 0, ovf := 0, r12 := fun _ => 0, slot := none }
  let y := s.writeTensor ctx (St.td x) w
    ((regionCells 0 (Sr.npts d) 0 (St.chans x)).map fun q => ((0, q.1, q.2), val q.1 q.2))
  let inner := match pts with
    | none => 0
    | some p => (p.map fun q => (q.filterMap fun v => v.map (·.2.flush)).sum).sum
  let t := (y.1.countReg pgSau 0x1B0 y.2.lost).countReg pgSau 0x1B4 (y.2.flush + inner)
  let bits := (List.range (Sr.npts d)).map fun k => match pts with | none => false | some p => !isGap (p.getD k [])
  (t.countReg pgSau 0x1A0 (match pts with | none => 0 | some p => (p.filter isGap).length)).localWrite (St.mask x) (bitmapBytes bits)

/-- Charge the read of a window in the own outer tier. -/
def State.chargeWindow (s : State) (w : Nat × Nat) : State :=
  match s.target w.1 w.2 with
  | .outer l => if w.2 = 0 then s else s.chargeRead .read l w.2
  | _ => s

/-- Write every stream of an accepted alignment. -/
def State.writeAligned (s : State) (ctx : Nat) (d : SauRec) (t0 : Int) : State :=
  (s.strms d).zipIdx.foldl (fun t x =>
    let a := s.recArray x.2 x.1
    (t.chargeWindow (windowSpan d t0 x.1 a)).writeStrm ctx d x.1 (some (strmPoints d t0 x.1 a))) s

/-- Count the records that an attempt ignores. -/
def State.countNonmono (s : State) (d : SauRec) : State :=
  s.countReg pgSau 0x1A4 (((s.strms d).zipIdx.map fun x => (keptRecords x.1 (s.recArray x.2 x.1)).2).sum)

/-- First output time of an attempt. -/
def State.attemptT0 (s : State) (d : SauRec) (t : Attempt) : Int :=
  if t.rsv = 0xFFFF then Sr.t0 d else signedOf 64 (s.tiers.localNum (Sr.rsv d + 8 * t.rsv) 8)

/-- Attempts until one is accepted or four have failed: the attempt that ends them. -/
def State.alignTries (j : SauJob) : Nat → State → Attempt → State × Attempt
  | 0, s, t => (s, t)
  | n + 1, s, t =>
    let d := j.bits
    if t.st = 4 then (s.replayCursor pgSau j.ctx true t, t) else
    let s1 := (s.countNonmono d).replayCursor pgSau j.ctx (Sr.replay d) t
    match s1.alignReason j.ctx d (s1.attemptT0 d t) with
    | 0 => (s1, { t with st := 2 })
    | r =>
      let s2 := s1.countReg pgSau (if r = 1 then 0x1AC else 0x1A8) 1
      let t1 := { t with st := 3, reason := if t.reason = 0 then r else t.reason }
      if 4 ≤ t.tries then (s2, t1) else
      let s3 := if Sr.replay d && !t.diverge then s2.countReg pgMde 0x1BC 1 else s2
      let x := s3.takeReserve pgSau j.ctx (Sr.nrsv d)
      State.alignTries j n x.2 { t1 with tries := t.tries + 1, rsv := x.1, st := 0, diverge := t.diverge || Sr.replay d }

/-- Ask for the record arrays that lie elsewhere (R389). -/
def State.askArrays (s : State) (j : SauJob) : State :=
  let t := (s.strms j.bits).zipIdx.foldl (fun t x =>
    if t.strmAway x.1 then t.requestAt (.sensor x.2) j.ctx (t.target (St.rec x.1) (St.span x.1)) (St.span x.1) none else t) s
  t.onInput fun x => { x with sau := { j with asked := true } :: x.sau.drop 1 }

/-- Commit an alignment (R386, R378-R381). -/
def State.commitAlign (s : State) (j : SauJob) (t : Attempt) : State :=
  let d := j.bits
  let zero := t.st != 2
  let s1 := if zero then (s.strms d).foldl (fun s x => s.writeStrm j.ctx d x none) s
    else s.writeAligned j.ctx d (s.attemptT0 d t)
  let s2 := s1.localWrite (Sr.stat d) (natLe 4 t.word)
  let s3 := if t.reason = 0 then s2 else
    s2.writeLog (Sr.log d) (Sr.logn d) (logEntry (Sr.lap d) (Sr.mb d) t.reason 1 t.tries zero 0 (t.word % 65536) (dfld d 0 31 0))
  let s4 := { s3 with txns := s3.txns.filter fun t => match t.client with | .sensor _ => false | _ => true }
  let s5 := s4.onInput fun x => { x with sau := x.sau.drop 1 }
  (if Sr.sen d then s5.signalMask 139 (Sr.ctr d) (Sr.cmask d) else s5).raise pgSau 0

/-- SAU_ALIGN for the first job. -/
def State.sauAlign (s : State) (j : SauJob) : State :=
  let d := j.bits
  let t := match (if Sr.replay d then s.logged (Sr.log d) (Sr.logn d) (Sr.lap d) (Sr.mb d) 1 0 else none) with
    | some e => loggedAttempt 0 e
    | none => ⟨0, 1, 0, 0xFFFF, 0, false⟩
  if (s.strms d).any s.strmHeld then s
  else if s.input.owner = 2 && !s.input.releasing && !j.asked && (s.strms d).any s.strmAway then s.askArrays j
  else if s.waitingOn (fun c => match c with | .sensor _ => true | _ => false) then s
  else
    let x := State.alignTries j 4 s t
    x.1.commitAlign j x.2

/-- What the input units drop when a run ends: jobs of its context. -/
def State.inputEnd (s : State) (ctx : Nat) : State :=
  let gone := (s.input.jobs.filter (·.ctx = ctx)).map (·.serial)
  let mine := match s.input.sau with | j :: _ => j.ctx = ctx | [] => false
  let t := s.onInput fun x => { x with
    jobs := x.jobs.filter (·.ctx != ctx), sau := x.sau.filter (·.ctx != ctx),
    pipes := x.pipes.filter fun p => match p.2 with | some q => !gone.contains q.job | none => true }
  { t with txns := t.txns.filter fun x => match x.client with
    | .media n => !gone.contains (n / 65536)
    | .sensor _ => !mine
    | _ => true }

/-! Commands. -/

/-- MDE_JOB_PUSH: a write of `MDE_JOB_PUSH_HI` (R372, R373). -/
def execMdeJobPush (r : Requester) (v : Word) (s : State) : Host.Outcome State Fault Refusal :=
  .next (s.onWrite r pgMde 0x114 fun s => s.mdePush v)

/-- SAU_JOB_PUSH: a write of `SAU_JOB_PUSH_HI` (R383). -/
def execSauJobPush (r : Requester) (v : Word) (s : State) : Host.Outcome State Fault Refusal :=
  .next (s.onWrite r pgSau 0x114 fun s => s.sauPush v)

/-- MDE_DECODE_START (R370, R376). -/
def execMdeDecodeStart (pipe : Fin 16) (pos : Nat) (h : MediaHeader) (s : State) : Host.Outcome State Fault Refusal :=
  .next (if !s.regsUp || !s.present pgMde || !s.enabled pgMde || (Store.get none s.input.pipes pipe.val).isSome then s
    else match s.pipeWork pipe.val with
      | some (j, p) => if p = pos then s.decodeStart pipe.val j p h else s
      | none => s)

/-- The attempt that a pipe works at. -/
def State.pipeAttempt (s : State) (n : Nat) : Option (MdePipe × MdeJob × Attempt) :=
  match Store.get none s.input.pipes n with
  | none => none
  | some p => match s.mdeJob p.job with
    | none => none
    | some j => (j.att p.pos).map fun t => (p, j, t)

/-- MDE_DECODE_DONE (R374-R377). -/
def execMdeDecodeDone (pipe : Fin 16) (ok : Bool) (pixels : List Byte) (s : State) : Host.Outcome State Fault Refusal :=
  .next (match s.pipeAttempt pipe.val with
    | none => s
    | some (p, j, t) => s.decodeDone pipe.val p j t ok pixels)

/-- MDE_DECODE_TIMEOUT (R377). -/
def execMdeDecodeTimeout (pipe : Fin 16) (s : State) : Host.Outcome State Fault Refusal :=
  .next (match s.pipeAttempt pipe.val with
    | none => s
    | some (p, j, t) =>
      if s.decodeLate j p (Sp.cls (s.attemptSample j t)) then (s.freePipe pipe.val).rejectAttempt j t 6 else s)

/-- MDE_COMMIT (R378-R381). -/
def execMdeCommit (s : State) : Host.Outcome State Fault Refusal :=
  .next (match s.input.jobs with
    | [] => s
    | j :: _ => if s.regsUp && s.enabled pgMde then s.mdeCommit j else s)

/-- SAU_ALIGN (R384-R387). -/
def execSauAlign (s : State) : Host.Outcome State Fault Refusal :=
  .next (match s.input.sau with
    | [] => s
    | j :: _ => if s.regsUp && s.enabled pgSau then s.sauAlign j else s)

/-- STAGE_ENABLE: a write of `MDE_CTRL` or `SAU_CTRL` (R382). -/
def execStageEnable (r : Requester) (sau : Bool) (v : Word) (s : State) : Host.Outcome State Fault Refusal :=
  .next (s.onWrite r (if sau then pgSau else pgMde) 0x100 fun s => s.stageWrite sau v)

/-- STAGE_RELEASE_DONE (R382). -/
def execStageReleaseDone (s : State) : Host.Outcome State Fault Refusal :=
  .next (if s.input.releasing && !s.stageUsed then s.onInput fun x => { x with owner := 0, releasing := false } else s)

end Sys2Proof.Machine
end

