-- ==== Sys2Proof/Machine/Module.lean ====
section
/-!
DEFINITION. The module: its states, its reset and supply pins, frost, and the GPX pins (17 R463, R465; 20 R512-R526).
-/
namespace Sys2Proof.Machine

/-- Registers on standby power: the PWC shell and the MGC page. -/
def standbyRegs (m : Store Word) : Store Word :=
  m.filter fun x => (4 ≤ x.1 / 16384 && x.1 / 16384 ≤ 7) || x.1 / 16384 = 9

/-- What outlives every rail but standby: the queue and what has been sent, identity and time, the MGC, the flash, the
fuses and the fault log (R463, R477, R494). -/
def State.dropRails (s : State) (mod : Nat) : State :=
  { State.reset with
    pending := s.pending, free := s.free, sent := s.sent
    dev := { s.dev with group := s.dev.strapGroup, slot := s.dev.strapSlot, latches := s.dev.latches, coreMap := [] }
    regs := standbyRegs s.regs
    power := { Power.reset with
      mod := mod, vin := s.power.vin, standby := s.power.standby, resetLow := s.power.resetLow,
      pwrEn := s.power.pwrEn, perst := s.power.perst, trip := s.power.trip, shed := s.power.shed }
    tiers := { Tiers.reset with spareRows := s.tiers.spareRows }
    flm := { Flm.reset with
      log := s.flm.log, retired := s.flm.retired, portsOff := s.flm.portsOff, pkgsLost := s.flm.pkgsLost }
    trb := { Trb.reset with
      flash := s.trb.flash, fuseF := s.trb.fuseF, revoked := s.trb.revoked, bootCount := s.trb.bootCount }
    mgc := s.mgc
    pins := s.pins }

/-- `MOD_RESET_N` low: the module is held in reset (R521). Flash, fuses, the log and the latched trip stay, and
phases shed stay shed (log 74). -/
def State.holdReset (s : State) : State :=
  let t : State := { s.dropRails 0 with regs := [] }
  let t := if s.power.shed = [] then t else t.setReg 4 0x11C s.power.phaseWord
  { t with
    dev := { Dev.reset with variant := s.dev.variant, strapGroup := s.dev.strapGroup, strapSlot := s.dev.strapSlot
                            anchor := s.dev.anchor, group := s.dev.strapGroup, slot := s.dev.strapSlot }
    mgc := Mgc.reset
    power := { t.power with resetLow := true, trip := if s.power.standby then s.power.trip else 0 } }

/-- Every rail is removed, standby too (R445, R463): OFF, with the cause latched. -/
def State.cutPower (s : State) (mv cause : Nat) : State :=
  let t := s.holdReset
  { t with power := { t.power with
    resetLow := s.power.resetLow, vin := mv, standby := false
    trip := if s.power.mod = 0 then s.power.trip else BitVec.ofNat 32 (2 ^ 31 + cause) } }

/-- Latch the straps and leave reset (R518, R522 step 2). -/
def State.leaveReset (s : State) (group : BitVec 5) (slot : BitVec 6) (anchor : Bool) : State :=
  { s with
    dev := { s.dev with strapGroup := group, strapSlot := slot, anchor := anchor, group := group, slot := slot }
    power := { s.power with resetLow := false, mod := 1, good := s.power.pwrEn } }

/-- The module-state event (R463): PWC page 0x004, source +2, and the platform event of its sensor. -/
def State.moduleEvent (s : State) : State := (s.raise 4 2).platformEvent 0x200 s.power.mod

/-- Is the device held out of service (R523)? -/
def State.outOfService (s : State) : Bool := fld (s.reg 0 0x180) 31 28 = 7

/-- `FAULT_N` is asserted: a trip latched, a leak, or out of service (R465, R497, R519, R523). -/
def State.faultN (s : State) : Bool :=
  (bit s.power.trip 31 && fld s.power.trip 1 0 = 1) || bit (s.reg 0 0x1EC) 1 || s.outOfService || s.trb.noImage

/-- `THERM_ALERT_N` is asserted (R465). -/
def State.thermAlert (s : State) : Bool := s.power.therm

/-- Pages whose islands go to RETENTION in FROST (R463). -/
def frostPages : List Nat :=
  [0, 8, 0xA] ++ (List.range 8).map (0x10 + ·) ++ [0x30] ++ (List.range 8).map (0x40 + ·) ++ [0x50, 0x51, 0x52, 0x60] ++
    (List.range 136).map (0x100 + ·)

/-- A write of `PWC_MODULE_CMD` (R463). -/
def State.frostWrite (s : State) (v : Word) : State :=
  if !bit v 0 then s
  else if s.runActive then s.conflict 4 true
  else
    let s1 := s.conflict 4 false
    let s2 := frostPages.foldl (fun t p => if t.present p && t.island p = 0 then t.setIsland p 4 else t) s1
    { s2 with power := { s2.power with mod := 3, wake := false } }.moduleEvent

/-! GPX pins (R519, R520). -/

def gpxOff (k : Nat) : Nat := 0x1C0 + 4 * k

/-- Does another enabled pin hold the unit of a function? -/
def State.gpxUnitHeld (s : State) (k f : Nat) : Bool :=
  2 ≤ f && f ≤ 4 && (List.range 8).any fun j => j != k && bit (s.reg 0 (gpxOff j)) 31 && fld (s.reg 0 (gpxOff j)) 30 28 = f

/-- A write of `DEV_GPXk_CFG` (R520). -/
def State.gpxWrite (s : State) (r : Requester) (k : Nat) (v : Word) : State :=
  let c := s.reg 0 (gpxOff k)
  let w := if r = .host then 9 else 8
  let en := bit c 31
  let f := fld v 30 28
  if en && fld c 27 24 != w then s.conflict 0 true
  else if (en && f != fld c 30 28) || 6 ≤ f || (bit v 31 && !en && s.gpxUnitHeld k f) then s.conflict 0 true
  else if bit v 31 then
    let s1 := s.setReg 0 (gpxOff k) (setFld (setFld (setFld (0 : Word) 31 28 (8 + f)) 27 24 w) 0 0 (fld v 0 0))
    let s2 := if f = 4 then s1.setRegBit 0 0x1EC 2 (!Store.get false s.pins.gpx k) else s1
    if en then s2 else s2.conflict 0 false
  else
    let s1 := s.setReg 0 (gpxOff k) (setFld (setFld (0 : Word) 30 28 (if en then 0 else f)) 0 0 (fld v 0 0))
    if en && f = 4 then s1.setRegBit 0 0x1EC 2 false else s1

/-- Does pin k carry a function? -/
def State.gpxHas (s : State) (k f : Nat) : Bool := bit (s.reg 0 (gpxOff k)) 31 && fld (s.reg 0 (gpxOff k)) 30 28 = f

def State.setPin (s : State) (k : Nat) (b : Bool) : State :=
  { s with pins := { s.pins with gpx := Store.set false s.pins.gpx k b } }

/-! The commands. -/

/-- UNDERVOLTAGE_LOCKOUT: every rail is removed and the cause is latched (R445, R463, R511). -/
def execUndervoltageLockout (mv : Nat) (s : State) : Host.Outcome State Fault Refusal :=
  .next (if s.power.standby && mv < 56000 then
    s.cutPower mv 3 else s)

/-- OVERVOLTAGE_SHUTDOWN (R445). -/
def execOvervoltageShutdown (mv : Nat) (s : State) : Host.Outcome State Fault Refusal :=
  .next (if s.power.standby && 84000 ≤ mv then
    s.cutPower mv 2 else s)

/-- THERMAL_TRIP: the hardware removes every rail but standby and latches cause and sensor (R465). -/
def execThermalTrip (sensor : Nat) (s : State) : Host.Outcome State Fault Refusal :=
  .next (if s.regsUp && sensor < 180 then
    let t := (s.flmLog 0x16 3 sensor 0).dropRails 1
    { t with power := { t.power with trip := BitVec.ofNat 32 (2 ^ 31 + sensor * 65536 + 1) } }.moduleEvent
    else s)

/-- FROST: a write of `PWC_MODULE_CMD` (R463). -/
def execFrost (r : Requester) (v : Word) (s : State) : Host.Outcome State Fault Refusal :=
  .next (s.onWrite r 4 0x110 fun s => s.frostWrite v)

/-- FROST_WAKE: a wake source returns the module to ACTIVE (R463). -/
def execFrostWake (s : State) : Host.Outcome State Fault Refusal :=
  .next (if s.power.mod = 3 && s.power.wake then s.awaken else s)

/-- MOD_PWR_EN_RISE: from STANDBY the rails rise and `MOD_PWR_GOOD` follows; during a shut-down the request waits
(R521, R522 step 3). -/
def execModPwrEnRise (s : State) : Host.Outcome State Fault Refusal :=
  .next { s with power := { s.power with
    pwrEn := true, good := s.power.good || (s.power.mod = 1 && !s.power.stopping) } }

/-- MOD_PWR_EN_FALL: an orderly shut-down begins; a start-up that is not complete is dropped (R463). -/
def execModPwrEnFall (s : State) : Host.Outcome State Fault Refusal :=
  .next (if s.regsUp then { s with power := { s.power with pwrEn := false, stopping := true } }
    else if s.power.mod = 1 && s.power.good then
      let t := s.dropRails 1
      { t with power := { t.power with pwrEn := false } }
    else { s with power := { s.power with pwrEn := false } })

/-- SHUTDOWN_DONE: the module is in STANDBY; a request that came meanwhile starts it again (R463, R521). -/
def execShutdownDone (s : State) : Host.Outcome State Fault Refusal :=
  .next (if s.power.stopping then
    let t := s.dropRails 1
    { t with power := { t.power with good := s.power.pwrEn } }.moduleEvent
    else s)

/-- MOD_RESET_ASSERT (R521). -/
def execModResetAssert (s : State) : Host.Outcome State Fault Refusal := .next s.holdReset

/-- HOST_PERST: while low the HBR is held in reset, its lanes idle; read on an anchor only (R515). -/
def execHostPerst (low : Bool) (s : State) : Host.Outcome State Fault Refusal :=
  .next (if s.dev.anchor && s.regsUp then
    let t := { s with power := { s.power with perst := low } }
    if low then t.blockReset 0x31 else t
    else s)

/-- DEV_GPX_CFG_WRITE (R520). -/
def execDevGpxCfgWrite (r : Requester) (k : Fin 8) (v : Word) (s : State) : Host.Outcome State Fault Refusal :=
  .next (s.onWrite r 0 (gpxOff k.val) fun s => s.gpxWrite r k.val v)

/-- TIME_CAPTURE: a rising edge latches `DEV_TIME` and counts (R519). -/
def execTimeCapture (k : Fin 8) (s : State) : Host.Outcome State Fault Refusal :=
  .next (if s.regsUp && s.gpxHas k.val 2 then
    let t := s.setPin k.val true
    let c := t.reg 0 0x1EC
    { t with dev := { t.dev with tcap := t.dev.time } }.setReg 0 0x1EC (setFld c 31 16 (fld c 31 16 + 1))
    else s.setPin k.val true)

/-- LEAK_N: low for 1 ms sets `LEAK` and raises the event (R519, R526). -/
def execLeakN (k : Fin 8) (s : State) : Host.Outcome State Fault Refusal :=
  .next (if s.regsUp && s.gpxHas k.val 3 then
    let t := (s.setPin k.val false).setRegBit 0 0x1EC 1 true
    if bit (s.reg 0 0x1EC) 1 then t else t.raise 0 3
    else s.setPin k.val false)

/-- CAP_LIMIT_N: the pin's level bounds the effective cap while low (R519). -/
def execCapLimitN (k : Fin 8) (low : Bool) (s : State) : Host.Outcome State Fault Refusal :=
  .next (if s.regsUp && s.gpxHas k.val 4 then (s.setPin k.val (!low)).setRegBit 0 0x1EC 2 low
    else s.setPin k.val (!low))

end Sys2Proof.Machine
end

