-- ==== Sys2Proof/Machine/Ports.lean ====
section
/-!
DEFINITION. Flaip ports: training, lanes, the relay, and their registers (15 R393-R408, R413, R421, R422).
-/
namespace Sys2Proof.Machine

def laneCount (m : Nat) : Nat := ((List.range 4).filter fun l => m.testBit l).length

/-- Start training: step 1 (R406). -/
def State.train (s : State) (p : Nat) (retrain : Bool) : State :=
  let t := s.portState p 2
  t.setPort p { t.port p with step := 1, retrain := retrain, since := s.dev.time, rxLcnt := 16 }

/-- Lanes that `FL_CFG.LANE_OFF` lets train. -/
def State.lanesOn (s : State) (p : Nat) : Nat := 15 - fld (s.reg (pgFl p) 0x104) 3 0

/-- Training failed, or too few lanes work: `DOWN`. -/
def State.portDown (s : State) (p : Nat) : State := s.portDrop p 1

/-- Retrain a port (R395, R404, R407); `FL_RETRAINS` counts the two cases of R404, and so does the fault
manager (R473). -/
def State.retrain (s : State) (p : Nat) (count : Bool) : State :=
  let t := (((if count then s.countReg (pgFl p) 0x118 1 else s).errSet (pgFl p) 1).raise (pgFl p) 2).train p true
  if count then t.flmEvent 4 p else t

/-- Number of a port of this device that may train: not one of the host bridge's (R17). -/
def State.flaip (s : State) (p : Nat) : Bool := s.regsUp && !s.hostPort p

/-! The relay (R403). -/

/-- Is a frame covered by an acknowledged sequence number? -/
def RelayFrame.covered (f : RelayFrame) (ack : Nat) : Bool := decide ((ack + 4096 - (f.fseq + 4) % 4096) % 4096 < 2048)

/-- An acknowledgement takes covered frames out. -/
def State.takeAckOf (s : State) (p ack : Nat) : State :=
  let x := s.port p
  let left := x.relay.filter fun f => !f.covered ack
  if left.length = x.relay.length then s
  else (s.setPort p { x with relay := left, since := s.dev.time }).drainPort p

/-- Send the frames of the relay again, in order. -/
def State.replay (s : State) (p : Nat) : State :=
  let x := s.port p
  let t := s.setPort p { x with relay := x.relay.map fun f => { f with sends := f.sends + 1 } }
  { t.wrapReg (pgFl p) 0x130 (5 * x.relay.length) with sent := t.sent ++ x.relay.map fun f => .replay p f.fseq }

/-- A `NACK` (R403). -/
def State.takeNack (s : State) (p : Nat) : State :=
  if (s.port p).relay = [] then s else (s.countReg (pgFl p) 0x114 1).replay p

/-! Credits (R401). -/

/-- A `CREDIT` packet that returns up to 1,023 credits of each channel of a class. -/
def State.creditPacket (s : State) (dl : Bool) (ns : List Nat) : Packet :=
  { s.newPacket 1 0 0 0 0 ((ns.zipIdx.map fun x => min 1023 x.1 * 2 ^ (10 * x.2)).sum) [] with dl := dl }

/-- Put a packet into the relay and send it. -/
def State.sendNow (s : State) (p : Nat) (k : Packet) : State :=
  let r := (s.port p).send s.dev.time k
  { (s.setPort p r.1).wrapReg (pgFl p) 0x130 5 with sent := s.sent ++ [.packet p r.2] }

/-- Grant every credit of every channel and class: three packets for each class. -/
def State.grantAll (s : State) (p : Nat) : State :=
  let part := fun (n i : Nat) => (List.range 4).map fun v => min 1023 (fullCredits (2 * v) - 1023 * i) * n
  [false, true].foldl (fun s dl => (List.range 3).foldl (fun s i => s.sendNow p (s.creditPacket dl (part 1 i))) s) s

/-- Return credit where no header goes the other way (R400): one `CREDIT` packet for a class. -/
def State.returnCredit (s : State) (p : Nat) : State :=
  let x := s.port p
  match x.owed with
  | [] => s
  | (i, _) :: _ =>
    if x.st != 3 || 1024 < 5 * (x.relay.length + 1) then s else
    let dl := i % 2
    let ns := (List.range 4).map fun v => min 1023 (Store.get 0 x.owed (2 * v + dl))
    let left := (List.range 4).foldl (fun m v => Store.set 0 m (2 * v + dl) (Store.get 0 x.owed (2 * v + dl) - ns.getD v 0)) x.owed
    (s.setPort p { x with owed := left }).sendNow p (s.creditPacket (dl = 1) ns)

/-! Lanes (R408). -/

/-- Drop a failed lane of a port in service; the fault manager logs it (R408, R473). -/
def State.dropLane (s : State) (p lane : Nat) (tell : Bool) : State :=
  let x := s.port p
  if (x.st != 3 && x.st != 4) || !x.lanes.testBit lane then s else
  let t := (((s.setPort p { x with lanes := x.lanes - 2 ^ lane }).errCount (pgFl p) 1).errSet (pgFl p) 0).raise (pgFl p) 1
  let u := (if tell then t.emit (.linkctl p (.laneDrop (Fin.ofNat 4 lane))) else t).flmLog 0x11 3 p lane
  if laneCount (x.lanes - 2 ^ lane) < 2 then u.portDown p else u.portState p 4

/-! Registers. -/

/-- A write of `FL_CFG` (R421): only `EN` while the page is locked. On an anchor FL12 to FL15 ignore it. -/
def State.flCfgWrite (s : State) (p : Nat) (v : Word) : State :=
  if s.hostPort p then s else
  let old := s.reg (pgFl p) 0x104
  let t := s.setReg (pgFl p) 0x104
    (if s.locked (pgFl p) then (old &&& 0x7FFFFFFF) ||| (v &&& 0x80000000) else v &&& 0xF800000F)
  if bit v 31 && !bit old 31 then t.train p false
  else if !bit v 31 && bit old 31 then t.portDrop p 0
  else t

/-- A write of `ROUTE_CTRL` (R413). -/
def State.routeCtrlWrite (s : State) (v : Word) : State := s.setReg pgRoute 0x100 (v &&& 1)

/-- A write of a route entry: into the inactive bank only (R413). -/
def State.routeWrite (s : State) (off : Nat) (v : Word) : State :=
  let bank := if off < 0x600 then (off - 0x400) / 0x100 else (off - 0x600) / 0x80
  if bank = (s.reg pgRoute 0x100).toNat then s.errSet pgRoute 0
  else s.setReg pgRoute off (v &&& (if off < 0x600 then 0xF0FFFF00 else 0xF8FFFF3F))

/-! Commands. -/

/-- FL_CFG_WRITE (R406, R421). -/
def execFlCfgWrite (r : Requester) (p : Fin 16) (v : Word) (s : State) : Host.Outcome State Fault Refusal :=
  .next (s.onWrite r (pgFl p.val) 0x104 fun s => s.flCfgWrite p.val v)

/-- ROUTE_BANK_FLIP: a write of `ROUTE_CTRL` (R413). -/
def execRouteBankFlip (r : Requester) (v : Word) (s : State) : Host.Outcome State Fault Refusal :=
  .next (s.onWrite r pgRoute 0x100 fun s => s.routeCtrlWrite v)

/-- TRAINING_SIGNAL (R406 step 2). -/
def execTrainingSignal (p : Fin 16) (s : State) : Host.Outcome State Fault Refusal :=
  let x := s.port p.val
  .next (if s.flaip p.val && x.st = 2 && x.step = 1 then s.setPort p.val { x with step := 2 } else s)

/-- TRAINING_NO_SIGNAL (R406 step 1): `DOWN` after 100 ms, and another try every 1 s. -/
def execTrainingNoSignal (p : Fin 16) (s : State) : Host.Outcome State Fault Refusal :=
  let x := s.port p.val
  .next (if !s.flaip p.val then s
    else if x.st = 2 && x.step = 1 && x.since + 100000000 ≤ s.dev.time then s.portDown p.val
    else if x.st = 1 && bit (s.reg (pgFl p.val) 0x104) 31 && x.since + 1000000000 ≤ s.dev.time then s.train p.val false
    else s)

/-- EQUALISATION_DONE (R406 step 3). -/
def execEqualisationDone (p : Fin 16) (s : State) : Host.Outcome State Fault Refusal :=
  let x := s.port p.val
  .next (if s.flaip p.val && x.st = 2 && x.step = 2 then s.setPort p.val { x with step := 3 } else s)

/-- The message of step 4 of R406. -/
def State.exchangeMsg (s : State) (p : Nat) : LinkMsg :=
  let x := s.port p
  .exchange (BitVec.ofNat 11 s.ownId) (BitVec.ofNat 4 p) (BitVec.ofNat 4 x.lanes) (s.reg (pgFl p) 0x104)
    (BitVec.ofNat 12 ((x.rxNext + 4095) % 4096))

/-- CODEWORD_LOCK (R406 steps 3 and 4): `lanes` have locked; a retrain keeps to the port's active lanes (R407). -/
def execCodewordLock (p : Fin 16) (lanes : BitVec 4) (s : State) : Host.Outcome State Fault Refusal :=
  let x := s.port p.val
  .next (if !s.flaip p.val || x.st != 2 || x.step != 3 then s else
    let m := Nat.land (Nat.land lanes.toNat (s.lanesOn p.val)) (if x.retrain then x.lanes else 15)
    if laneCount m < 2 then s.portDown p.val
    else
      let t := s.setPort p.val { x with lanes := m, step := 4 }
      t.emit (.linkctl p.val (t.exchangeMsg p.val)))

/-- LINKCTL (R406 step 4, R408): the partner's exchange, or the lane it drops. A lane that either end left out carries no
symbols (log 81). -/
def execLinkctl (p : Fin 16) (m : LinkMsg) (s : State) : Host.Outcome State Fault Refusal :=
  let x := s.port p.val
  .next (if !s.flaip p.val then s else match m with
    | .exchange id port map _ pos =>
      let m := Nat.land x.lanes map.toNat
      if x.st != 2 || x.step != 4 then s
      else if laneCount m < 2 then s.portDown p.val
      else s.setPort p.val
        { x with step := 5, lanes := m, peerId := id.toNat, peerPort := port.toNat, peerAck := pos.toNat }
    | .laneDrop lane => s.dropLane p.val lane.val false)

/-- LINK_EXCHANGE_DONE (R406 step 5): credits are granted, or replay resumes from the peer's `ACK`. -/
def execLinkExchangeDone (p : Fin 16) (s : State) : Host.Outcome State Fault Refusal :=
  let x := s.port p.val
  .next (if !s.flaip p.val || x.st != 2 || x.step != 5 then s else
    let t := s.portState p.val 3
    let u := t.setPort p.val { t.port p.val with step := 0, window := [], winStart := s.dev.time }
    if x.retrain then ((u.takeAckOf p.val x.peerAck).replay p.val).drainPort p.val
    else u.grantAll p.val)

/-- LANE_FAIL (R408). -/
def execLaneFail (p : Fin 16) (lane : Fin 4) (s : State) : Host.Outcome State Fault Refusal :=
  .next (if s.flaip p.val then s.dropLane p.val lane.val true else s)

/-- RESHAPE_DONE (R408 step 3). -/
def execReshapeDone (p : Fin 16) (s : State) : Host.Outcome State Fault Refusal :=
  .next (if s.flaip p.val && (s.port p.val).st = 4 then ((s.portState p.val 3).replay p.val).drainPort p.val else s)

/-- RELAY_TIMEOUT (R404): 8 sends of one flit, or 50 µs without progress. -/
def execRelayTimeout (p : Fin 16) (s : State) : Host.Outcome State Fault Refusal :=
  let x := s.port p.val
  .next (if s.flaip p.val && x.st = 3 && x.relay != [] &&
      (x.relay.any (fun f => decide (8 ≤ f.sends)) || x.since + 50000 ≤ s.dev.time) then s.retrain p.val true else s)

end Sys2Proof.Machine
end

