-- ==== Sys2Proof/Machine/RegBus.lean ====
section
/-!
DEFINITION. The register bus: a read and a write of any register of any page by any requester (00 R9-R12, 01 R22, 04 R97,
21 R527-R531), and the conditions that the register tables put on plain writes.
-/
namespace Sys2Proof.Machine

/-! Latched pairs (R22). -/

/-- The pair that a low or high word belongs to: 0 `DEV_TIME`, 1 `PWC_ENERGY`, 2 `DEV_TCAP`; and whether it is the high
word. -/
def latchOf (p off : Nat) : Option (Nat × Bool) :=
  if p = 0 && off = 0x110 then some (0, false) else if p = 0 && off = 0x114 then some (0, true)
  else if p = 4 && off = 0x120 then some (1, false) else if p = 4 && off = 0x124 then some (1, true)
  else if p = 0 && off = 0x1E4 then some (2, false) else if p = 0 && off = 0x1E8 then some (2, true)
  else none

/-- The 64-bit count of a pair; the energy in mJ. -/
def State.latchCount (s : State) (i : Nat) : Nat :=
  match i with
  | 0 => s.dev.time
  | 1 => s.dev.energy / 1000000
  | _ => s.dev.tcap

/-- A read of the low word latches the high word for the requester; a read of the high word gives what is latched. -/
def State.latchRead (s : State) (r : Requester) (i : Nat) (hi : Bool) : Word × State :=
  let key := 16 * i + Requester.index r
  if hi then (Store.get 0 s.dev.latches key, s)
  else (BitVec.ofNat 32 (s.latchCount i),
    { s with dev := { s.dev with latches := Store.set 0 s.dev.latches key (BitVec.ofNat 32 (s.latchCount i / 2 ^ 32)) } })

/-! Reads. -/

/-- Clear an RC register. -/
def State.clearReg (s : State) (p off : Nat) : State :=
  if 0x100 ≤ p && 0x100 ≤ off then s.onCore (p - 0x100) fun c => c.setCounter off 0 else s.setReg p off 0

/-- A read of an assigned offset of a block that is up. -/
def State.takeRead (s : State) (r : Requester) (p off : Nat) (row : RegRow) : Word × State :=
  if (p = 1 || p = 2) && 0x400 ≤ off && off < 0x490 && off % 16 = 0 then s.claimRead p ((off - 0x400) / 16)
  else match latchOf p off with
    | some (i, hi) => s.latchRead r i hi
    | none => (s.regValue p off, if row.acc = .rc then s.clearReg p off else s)

/-- A read of a register: its value and its effect (R4, R10, R12, R461, R462). -/
def State.readReg (s : State) (r : Requester) (p off : Nat) : Word × State :=
  if !pageAssigned p then (0, s.awaken.stray)
  else if !s.present p then (0, s.awaken)
  else
    let t := s.awaken.thawPage p
    match regRow p off with
    | none => (0, t.stray)
    | some row => if off < 0x100 || t.blockUp p then t.takeRead r p off row else (0, t)

/-! Writes. -/

/-- Is a plain write of a register taken, by the conditions of the register tables? -/
def State.takes (s : State) (p off : Nat) (v : Word) : Bool :=
  if p = 0 && off = 0x1E0 then 600 ≤ fld v 11 0 && fld v 11 0 ≤ 1800
  else if p = 4 && off = 0x128 then 10 ≤ fld v 19 0
  else if p = 7 && off = 0x100 then 70 ≤ fld v 7 0 && fld v 7 0 ≤ 100
  else if p = pgFlm && off = 0x108 then 1 ≤ fld v 4 0 && fld v 4 0 ≤ 23
  else if p = pgFlm && off = 0x130 then 10 ≤ fld v 15 0
  else if p = pgFlm && 0x200 ≤ off then fld v 31 20 = 0 || fld v 19 0 != 0
  else if p = pgHvu 0 && 0x104 ≤ off && off ≤ 0x124 then !bit (s.reg p 0x100) 31
  else if p = pgSch && 0x104 ≤ off && off ≤ 0x13C && off != 0x120 then !bit (s.reg p 0x100) 31
  else if p = pgKvd && (off = 0x104 || off = 0x108 || (0x128 ≤ off && off ≤ 0x140 && off != 0x130)) then
    !bit (s.reg p 0x100) 31
  else if p = pgKvd && off = 0x114 then f32Unit v.toNat
  else if p = pgMde && off = 0x11C then fld v 23 0 != 0
  else if p = pgMde && off = 0x120 then 2 ≤ fld v 7 0
  else true

/-- What a write leaves in a register whose other bits stay. -/
def maskWrite (old v : Word) (m : Nat) : Word := (old &&& ~~~ (BitVec.ofNat 32 m)) ||| (v &&& BitVec.ofNat 32 m)

/-- A plain write. -/
def State.plainWrite (s : State) (p off : Nat) (v : Word) (m : Nat) : State :=
  if s.takes p off v then s.setReg p off (maskWrite (s.reg p off) v m)
  else if p = pgKvd && off = 0x114 then s.errSet p 3 else s

/-- `FLM_THRk`: with N = 1 the window is not kept (R492). -/
def thrWord (v : Word) : Word := if fld v 31 20 = 0 then 0 else v

/-- A device goes out of service: every Flaip port is `DISABLED` and the control cores halt (R523). -/
def State.leaveService (s : State) : State :=
  let t := (List.range 16).foldl (fun s p =>
    if s.hostPort p then s else (s.setRegBit (pgFl p) 0x104 31 false).portDrop p 0) s
  { t with ctl := { t.ctl with released := false } }

/-- `DEV_BOOT` as firmware writes it: a change of `STAGE` raises the DEV event +3 (R524). -/
def State.bootWrite (s : State) (v : Word) : State :=
  let t := s.setReg 0 0x180 (v &&& 0xFF20007F)
  if fld v 31 28 = fld (s.reg 0 0x180) 31 28 then t
  else if fld v 31 28 = 7 then t.leaveService.raise 0 3
  else t.raise 0 3

/-- The effective ID (R88). -/
def State.idWrite (s : State) (v : Word) : State :=
  { s with dev := { s.dev with group := BitVec.ofNat 5 (fld v 10 6), slot := BitVec.ofNat 6 (fld v 5 0) } }

/-- Word k of the core map (R115). -/
def State.mapWrite (s : State) (k : Nat) (v : Word) : State :=
  let m := (List.range 4).foldl (fun m i =>
    let l := 4 * k + i
    Store.set (if l < 64 then l else l + 4) m l (fld v (8 * i + 7) (8 * i))) s.dev.coreMap
  { s with dev := { s.dev with coreMap := m } }

/-- A register of the MSI-X table (R419, R438). -/
def State.msixWrite (s : State) (off : Nat) (v : Word) : State :=
  if off % 16 = 12 then
    if bit v 0 then s.setRegBit pgHbr off 0 true else s.unmaskVector ((off - 0x8000) / 16)
  else s.setReg pgHbr off (if off % 16 = 0 then v &&& 0xFFFFFFFC else v)

/-- A register of an event hub page (R434-R441). -/
def State.evhWrite (s : State) (r : Requester) (p off : Nat) (v : Word) : State :=
  if 0x1000 ≤ off then s.srcWrite r p ((off - 0x1000) / 4) v
  else if 0x400 ≤ off then
    let t := (off - 0x400) / 16
    if off % 16 = 4 then s.eoiWrite p t v else if off % 16 = 12 then s.stackReset p t v else s
  else
    let k := 4 * (p - 1) + (off - 0x200) / 16
    if off % 16 = 0 then s.tmrCtrlWrite r k (s.tmrActor r k) v else s.tmrValueWrite r k (off % 16 / 4) v

/-- A write that has rules of its own. -/
def State.cmdWrite (s : State) (r : Requester) (p off : Nat) (v : Word) : State :=
  if off = 8 then s.pageCtrlWrite p v
  else if off = 0x30 then s.pageLockWrite p v
  else if p = 0 then
    (if 0x600 ≤ off then s.subqCfgWrite r ((off - 0x600) / 16) v else s.gpxWrite r ((off - 0x1C0) / 4) v)
  else if p = 1 || p = 2 then s.evhWrite r p off v
  else if p = 4 then (if off = 0x100 then s.capWrite r v else s.frostWrite v)
  else if p = 5 || p = 6 then s.freqMaxWrite (p - 5) v
  else if p = pgTrb then (if bit v 0 then s.svnCommit else s)
  else if p = pgFlm then s.flmCmdWrite v
  else if 0x20 ≤ p && p ≤ 0x2F then s.flCfgWrite (p - 0x20) v
  else if p = pgRoute then (if off = 0x100 then s.routeCtrlWrite v else s.routeWrite off v)
  else if p = pgHbr then (if 0x8000 ≤ off then s.msixWrite off v else s.xlatInvWrite v)
  else if 0x40 ≤ p && p ≤ 0x43 then
    let g := p - 0x40
    if off = 0x100 then s.splitWrite g v else if off = 0x104 then s.pkgWrite g v
    else if off % 16 = 4 then s.nosrcWrite g ((off - 0x200) / 16) v else s.repairGoWrite g ((off - 0x200) / 16) v
  else if p = pgHvu 0 then (if off = 0x100 then s.hvuCtrlWrite v else s.hvuCmdWrite v)
  else if p = pgMde then (if off = 0x100 then s.stageWrite false v else s.mdePush v)
  else if p = pgSau then (if off = 0x100 then s.stageWrite true v else s.sauPush v)
  else if p = pgKvd then
    (if off = 0x100 then s.kvdCtrlWrite v else if off = 0x120 then s.kvdCmdWrite v else s.dirSelWrite r v)
  else if p = pgSch then
    (if off = 0x100 then s.schCtrlWrite v else if off = 0x140 then s.schCmdWrite v else s.schSlotWrite off v)
  else if 0x100 ≤ p then s.coreWrite (p - 0x100) off v
  else s

/-- A write of an RW register: those with a home or a rule of their own first. -/
def State.rwWrite (s : State) (r : Requester) (p off : Nat) (v : Word) (m : Nat) : State :=
  if off < 0x100 then s.plainWrite p off v m
  else if p = 0 && off = 0x104 then s.idWrite v
  else if p = 0 && off = 0x180 then s.bootWrite v
  else if p = 0 && 0x400 ≤ off && off < 0x480 then s.mapWrite ((off - 0x400) / 4) v
  else if p = 0 && 0x600 ≤ off then s.subqBaseWrite r ((off - 0x600) / 16) (off % 16 / 4) v
  else if (p = 1 || p = 2) && 0x200 ≤ off then s.evhWrite r p off v
  else if p = pgFlm && 0x200 ≤ off then s.plainWrite p off (thrWord v) m
  else if p = pgMde && 0x180 ≤ off && off < 0x1A0 then
    s.onInput fun x => { x with means := Store.set 0 x.means (8 * x.bank + (off - 0x180) / 4) v }
  else if p = pgMde && 0x140 ≤ off && off < 0x160 then
    (s.plainWrite p off v m).onInput fun x => { x with bank := (off - 0x140) / 4 }
  else if p = pgSch && 0x180 ≤ off && off < 0x1A0 then s.epochWrite off v
  else s.plainWrite p off v m

/-- A write of an assigned offset that its requester may write (R10). -/
def State.takeWrite (s : State) (r : Requester) (p off : Nat) (v : Word) : State :=
  match regRow p off with
  | none => s
  | some row =>
    match row.acc with
    | .ro => s
    | .rc => s
    | .w1c m => s.setReg p off (s.reg p off &&& ~~~ (v &&& BitVec.ofNat 32 m))
    | .rwl m => if s.locked p then s else s.rwWrite r p off v m
    | .rw m => s.rwWrite r p off v m
    | .wo m => s.plainWrite p off v m
    | .cmd => s.cmdWrite r p off v

/-- A write of a register. -/
def State.writeReg (s : State) (r : Requester) (p off : Nat) (v : Word) : State :=
  s.onWrite r p off fun t => t.takeWrite r p off v

/-! The commands. -/

/-- Does a register access keep the width rule of R97? The MSI-X table and PBA also take 64 bits (R419). -/
def State.widthOk (s : State) (a width : Nat) : Bool :=
  (width = 4 && a % 4 = 0) ||
    (width = 8 && a % 8 = 0 && s.dev.anchor && ((0x318000 ≤ a && a < 0x318400) || (0x319000 ≤ a && a < 0x319008)))

/-- REGISTER_WRITE (R10). -/
def execRegisterWrite (r : Requester) (a : BitVec 26) (width : Nat) (v : Quad) (s : State) :
    Host.Outcome State Fault Refusal :=
  let p := a.toNat / 65536
  let off := a.toNat % 65536
  .next (if !s.regsUp then s
    else if !s.widthOk a.toNat width then s.awaken.badAccess r false
    else
      let t := s.writeReg r p off (v.truncate 32)
      if width = 8 then t.writeReg r p (off + 4) (BitVec.ofNat 32 (v.toNat / 2 ^ 32)) else t)

/-- READ_CLEAR: a read of a register; an RC register clears (R10). -/
def execReadClear (r : Requester) (a : BitVec 26) (width : Nat) (s : State) : Host.Outcome State Fault Refusal :=
  let p := a.toNat / 65536
  let off := a.toNat % 65536
  .next (if !s.regsUp then s
    else if !s.widthOk a.toNat width then s.awaken.badAccess r true
    else
      let x := s.readReg r p off
      if width = 8 then
        let y := x.2.readReg r p (off + 4)
        y.2.emit (.hostReply 0 (natLe 4 x.1.toNat ++ natLe 4 y.1.toNat))
      else x.2.reply r (some x.1))

/-- Read a register and answer its requester. -/
def State.answerRead (s : State) (r : Requester) (p off : Nat) : State :=
  if s.regsUp then (s.readReg r p off).2.reply r (some (s.readReg r p off).1) else s

/-- DEV_TIME_LO_READ (R22). -/
def execDevTimeLoRead (r : Requester) (s : State) : Host.Outcome State Fault Refusal := .next (s.answerRead r 0 0x110)

/-- PWC_ENERGY_LO_READ (R467). -/
def execPwcEnergyLoRead (r : Requester) (s : State) : Host.Outcome State Fault Refusal := .next (s.answerRead r 4 0x120)

/-- DEV_TCAP_LO_READ (R525). -/
def execDevTcapLoRead (r : Requester) (s : State) : Host.Outcome State Fault Refusal := .next (s.answerRead r 0 0x1E4)

end Sys2Proof.Machine
end

