-- ==== Sys2Proof/Machine/Runs.lean ====
section
/-!
DEFINITION. Submission lists and runs: reading an entry, checking and setting up a run record, steps, the end of a run, and
group runs (01 R25-R29, R532, 05 R120, 16 R424-R432, 18 R484, 19 R499).
-/
namespace Sys2Proof.Machine

/-! Entries (R426, R428). -/

abbrev Header := BitVec 512

namespace Hd
def kind (h : Header) : Nat := dfld h 0 63 56
def nitem (h : Header) : Nat := dfld h 0 55 48
def seq (h : Header) : Nat := dfld h 0 47 32
def rseq (h : Header) : Nat := dfld h 8 63 48
def rlist (h : Header) : Nat := dfld h 8 47 45
def ext (h : Header) : Nat := dfld h 8 44 0
/-- Items at `EXT`; none where `EXT` is 0. -/
def next (h : Header) : Nat := if ext h = 0 then 0 else dfld h 0x10 63 48
def stepno (h : Header) : Nat := dfld h 0x10 31 0
def status (h : Header) : Nat := dfld h 0x20 63 56
def ctx (h : Header) : Nat := dfld h 0x20 47 45
end Hd

/-- Statuses of R430. -/
def stAccepted : Nat := 1
def stComplete : Nat := 2
def stConflict : Nat := 0x10
def stAbsent : Nat := 0x11
def stMalformed : Nat := 0x12
def stCfgBad : Nat := 0x13
def stEndedFault : Nat := 0x20
def stAborted : Nat := 0x21

/-- Is a span whole in the near tier or the populated outer tier (R429)? -/
def State.localOk (s : State) (a n : Nat) : Bool :=
  match spaceOf (outerSize s.dev.variant) a n with
  | .outer => true
  | .near => true
  | _ => false

/-- Where entry n of a list lies (R425). -/
def State.entryAddr (s : State) (k n : Nat) : Nat :=
  s.subqBase k + 512 * (n % max 1 (fld (s.reg 0 (subqOff k 2)) 12 0))

def State.nextEntry (s : State) (k : Nat) : Nat := fld (s.reg 0 (subqOff k 3)) 31 16

/-- The control core that serves a list, or the one that carries its duties (R424, R480). -/
def State.servingCore (s : State) (k : Nat) : Option Nat :=
  let c := 4 * (k / 4)
  if !s.ctl.failed.contains c then some c
  else match s.ctl.carries.find? fun x => x.2 = c with
    | some x => if s.ctl.failed.contains x.1 then none else some x.1
    | none => none

/-- Does firmware read a list: control cores run, the module is ACTIVE and in service, the list is enabled? -/
def State.listServed (s : State) (k : Nat) : Bool :=
  s.power.mod = 2 && s.ctl.released && !s.outOfService && s.subqOn k && (s.servingCore k).isSome

/-- The header of the next entry of a list, where firmware consumes it (R428). -/
def State.header (s : State) (k : Nat) : Option Header :=
  let h : Header := bitsOf 512 (s.tiers.outerBytes (s.entryAddr k (s.nextEntry k)) 64)
  if s.listServed k && !s.ctl.watch.contains k && Hd.seq h = s.nextEntry k && Hd.kind h != 0 && Hd.status h = 0 then some h
  else none

/-- Consume an entry: `NEXT` advances. -/
def State.consume (s : State) (k : Nat) : State :=
  s.setReg 0 (subqOff k 3) (BitVec.ofNat 32 ((s.nextEntry k + 1) % 65536 * 65536))

/-- Write the status words of an entry, each in one 8-byte write, and raise the submission event (R426, R430). -/
def State.putStatus (s : State) (addr status detail ctx device aux lcore lindex : Nat) : State :=
  ((s.localWrite (addr + 0x28) (natLe 8 (lcore % 128 * 2 ^ 56 + lindex % 2 ^ 20 * 2 ^ 32))).localWrite (addr + 0x20)
    (natLe 8 (status * 2 ^ 56 + detail % 256 * 2 ^ 48 + ctx % 8 * 2 ^ 45 + device % 2048 * 2 ^ 32 + aux))).raise 0 0

/-- Refuse an entry, for an item where one is named. -/
def State.refuse (s : State) (addr status : Nat) (item : Option Nat) : State :=
  s.putStatus addr status (match item with | some i => min i 0xFE | none => 0xFF) 0 s.ownId 0 0 0

/-- A header that breaks R426. -/
def State.headerBad (s : State) (h : Header) : Bool :=
  4 < Hd.kind h || 28 < Hd.nitem h || dfld h 0x10 47 32 != 0 || dfld h 0x18 63 0 != 0 || dfld h 0x30 127 0 != 0 ||
    Hd.ext h % 16 != 0 || (Hd.next h != 0 && !s.localOk (Hd.ext h) (16 * Hd.next h))

/-! Claim items (R429). -/

/-- A claim item: words A and B. -/
structure ClaimItem where
  a : Nat
  b : Nat
  deriving DecidableEq, Repr

namespace ClaimItem
def type (x : ClaimItem) : Nat := x.a / 2 ^ 56
def lo (x : ClaimItem) (hi l : Nat) : Nat := x.a / 2 ^ l % 2 ^ (hi + 1 - l)
def bLo (x : ClaimItem) (hi l : Nat) : Nat := x.b / 2 ^ l % 2 ^ (hi + 1 - l)
end ClaimItem

/-- n items from a local address. -/
def State.itemsAt (s : State) (a n : Nat) : List ClaimItem :=
  (List.range n).map fun i => ⟨s.tiers.localNum (a + 16 * i) 8, s.tiers.localNum (a + 16 * i + 8) 8⟩

/-- Items of an entry in the order in which firmware reads them. -/
def State.items (s : State) (addr : Nat) (h : Header) : List ClaimItem :=
  s.itemsAt (addr + 64) (Hd.nitem h) ++ s.itemsAt (Hd.ext h) (Hd.next h)

/-- The bits of words A and B that a type defines. -/
def itemMasks : Nat → Option (Nat × Nat)
  | 0x01 => some (1, 2 ^ 64 - 1)
  | 0x02 => some (2 ^ 45 - 1 + 3 * 2 ^ 48, 2 ^ 64 - 1)
  | 0x03 => some (2 ^ 45 - 1, 2 ^ 64 - 1)
  | 0x04 => some (0xFFF, 2 ^ 64 - 1)
  | 0x05 => some (0xFFF07FF003F, 2 ^ 64 - 1)
  | 0x06 => some (0, 2 ^ 64 - 1)
  | 0x07 => some (0xFFF, 2 ^ 64 - 1)
  | 0x08 => some (0x3F, 0)
  | 0x09 => some (0xFFFF, 0x03FF01FF)
  | 0x0A => some (0xFF, 0)
  | 0x0B => some (0xFFFFFFFF, 0)
  | 0x0C => some (0xFFFF03FF, 2 ^ 64 - 1)
  | 0x0D => some (0xFFFF, 2 ^ 64 - 1)
  | 0x0E => some (0xFFFF, 2 ^ 64 - 1)
  | 0x0F => some (0x7F, 2 ^ 64 - 1)
  | _ => none

def bitList (n w : Nat) : List Nat := (List.range w).filter fun i => n.testBit i

/-- Register pairs of a `REGS` item: offset, value, and the bits that must be 0. -/
def State.pairs (s : State) (x : ClaimItem) : List (Nat × Nat × Nat) :=
  (List.range (x.lo 31 16)).map fun i =>
    let w := s.tiers.localNum (x.b + 8 * i) 8
    (w / 2 ^ 32 % 65536, w % 2 ^ 32, w / 2 ^ 48)

/-- Launch entries of a `LAUNCH` item (R319). -/
def State.launchItems (s : State) (x : ClaimItem) : List Launch :=
  (List.range (x.lo 15 0)).map fun i => Launch.ofNat (s.tiers.localNum (x.b + 8 * i) 8)

/-- Entries of a `KEYS` item: stream set, the bytes that must be 0, and the key. -/
def State.keyItems (s : State) (x : ClaimItem) : List (Nat × Nat × BitVec 128) :=
  if x.type != 0x0E then [] else
  (List.range (x.lo 15 0)).map fun i =>
    (s.tiers.localNum (x.b + 32 * i) 1, s.tiers.localNum (x.b + 32 * i + 1) 15,
      BitVec.ofNat 128 (s.tiers.localNum (x.b + 32 * i + 16) 16))

/-- Entries of a `DEVICES` item: device, the bits that must be 0, and where the part lies. -/
def State.deviceItems (s : State) (x : ClaimItem) : List (Nat × Nat × Nat) :=
  (List.range (x.lo 6 0)).map fun i =>
    let w := s.tiers.localNum (x.b + 16 * i) 8
    (w % 2048, w / 2048, s.tiers.localNum (x.b + 16 * i + 8) 8)

/-- The claim of one item, added to those before it. Grants take their owner from `owner`. -/
def State.claimItem (s : State) (owner : Range → Nat) (c : Claims) (x : ClaimItem) : Claims :=
  match x.type with
  | 0x01 => { c with cores := (c.cores ++ (bitList x.b 64).map (· + 64 * (x.a % 2))).eraseDups }
  | 0x02 =>
    let r : Range := ⟨x.lo 44 0, x.b⟩
    { c with owned := c.owned ++ [r], shares := if x.a.testBit 49 then c.shares ++ [r] else c.shares }
  | 0x03 => { c with grants := c.grants ++ [(⟨x.lo 44 0, x.b⟩, owner ⟨x.lo 44 0, x.b⟩)] }
  | 0x04 => { c with pins := c.pins ++ (List.range (min x.b 3072)).map (· + x.lo 11 0) }
  | 0x05 => { c with hurdles := c.hurdles ++ [x.lo 5 0] }
  | 0x06 => { c with chans := c.chans ++ bitList x.b 64 }
  | 0x07 => if x.b = 0 then c else { c with kv := c.kv ++ [(x.lo 11 0, x.lo 11 0 + x.b - 1)] }
  | 0x08 => { c with
      sch := c.sch || x.a.testBit 0, hvu := c.hvu || x.a.testBit 1, kvd := c.kvd || x.a.testBit 2,
      pacer := c.pacer || x.a.testBit 3, mde := c.mde || x.a.testBit 4, sau := c.sau || x.a.testBit 5 }
  | 0x09 =>
    let n := x.bLo 25 16
    { c with pipes := c.pipes ++ bitList (x.lo 15 0) 16,
             mstreams := if n = 0 then c.mstreams else c.mstreams ++ [(x.bLo 8 0, x.bLo 8 0 + n - 1)] }
  | 0x0A => { c with timers := c.timers ++ bitList (x.lo 7 0) 8 }
  | 0x0E => { c with keys := c.keys ++ (s.keyItems x).map fun k => (k.1, k.2.2) }
  | _ => c

def State.claimAll (s : State) (owner : Range → Nat) (xs : List ClaimItem) : Claims := xs.foldl (s.claimItem owner) Claims.none

/-- May a `REGS` item write an offset of a page of a unit that the run claims? -/
def regsAllowed (c : Claims) (page off : Nat) : Bool :=
  off % 4 = 0 &&
  ((page = pgSch && c.sch && (off = 0x100 || (0x110 ≤ off && off ≤ 0x13C))) ||
   (page = pgHvu 0 && c.hvu && 0x100 ≤ off && off ≤ 0x124) ||
   (page = pgKvd && c.holdsKvd &&
      (off = 0x100 || off = 0x104 || off = 0x108 || (0x110 ≤ off && off ≤ 0x118) || (0x128 ≤ off && off ≤ 0x140) || off = 0x200 ||
        (0x210 ≤ off && off < 0x230))) ||
   (page = pgTre 0 && c.pacer && 0x300 ≤ off && off ≤ 0x30C) ||
   (page = pgMde && (c.mde || c.pipes != []) && (off = 0x110 || off = 0x114)) ||
   (page = pgSau && c.sau && (off = 0x100 || off = 0x110 || off = 0x114 || (0x140 ≤ off && off < 0x160))))

/-- Does an item break R429? `c` holds the claims of the whole entry, `before` the items read before it. -/
def State.itemBad (s : State) (c : Claims) (before : List ClaimItem) (x : ClaimItem) : Bool :=
  match itemMasks x.type with
  | none => true
  | some m =>
    x.a % 2 ^ 56 &&& m.1 != x.a % 2 ^ 56 || x.b &&& m.2 != x.b ||
    match x.type with
    | 0x02 => x.lo 44 0 % 0x200000 != 0 || x.b % 0x200000 != 0 || outerSize s.dev.variant < x.lo 44 0 + x.b
    | 0x05 => !s.localOk x.b 16 || (bitList (s.tiers.localNum x.b 16) 128).any fun l => !c.cores.contains l
    | 0x07 => 4096 < x.lo 11 0 + x.b
    | 0x09 => 512 < x.bLo 25 16
    | 0x0B => !splitOk (BitVec.ofNat 32 x.a)
    | 0x0C => !s.localOk x.b (8 * x.lo 31 16) ||
        (s.pairs x).any fun p => p.2.2 != 0 || !regsAllowed c (x.lo 9 0) p.1
    | 0x0D => !s.localOk x.b (8 * x.lo 15 0) || (s.launchItems x).any fun l => !c.cores.contains l.lcore
    | 0x0E =>
      let ks := s.keyItems x
      let old := (before.flatMap s.keyItems).map (·.1)
      x.lo 15 0 = 0 || 256 < x.lo 15 0 || !s.localOk x.b (32 * x.lo 15 0) || (ks.any fun k => k.2.1 != 0) ||
        !(old ++ ks.map (·.1)).Nodup
    | 0x0F => !s.dev.anchor || !s.localOk x.b (16 * x.lo 6 0) ||
        (s.deviceItems x).any fun d => d.2.1 != 0 || !s.localOk d.2.2 512
    | _ => false

/-- Does an item name a unit that the variant lacks (R4, R6)? -/
def State.itemAbsent (s : State) (x : ClaimItem) : Bool :=
  match x.type with
  | 0x08 => (x.a.testBit 4 && !s.present pgMde) || (x.a.testBit 5 && !s.present pgSau)
  | 0x09 => !s.present pgMde
  | 0x0C => !s.present (x.lo 9 0)
  | _ => false

/-- The active runs of the device. -/
def State.activeRuns (s : State) : List (Nat × Run) :=
  (List.range 8).filterMap fun c => (s.run c).map fun r => (c, r)

def rangesMeet (a b : Range) : Bool := a.base < b.base + b.len && b.base < a.base + a.len
def spansMeet (a b : Nat × Nat) : Bool := a.1 ≤ b.2 && b.1 ≤ a.2

/-- The run whose `SHARE` ranges hold a span whole (R532). -/
def State.sharer (s : State) (r : Range) : Option Nat :=
  (s.activeRuns.find? fun x => covered x.2.claims.shares (x.2.claims.shares.length + 1) r.base r.len).map (·.1)

/-- Does another run hold what an item claims, or does it break R26 to R29, R269, R272 or R348? `pinned` counts the pages
that the items before it pin. -/
def State.itemConflict (s : State) (ctx : Nat) (before : List ClaimItem) (x : ClaimItem) : Bool :=
  let one := s.claimItem (fun _ => 0) Claims.none x
  let had := s.claimAll (fun _ => 0) before
  let held := fun (p : Claims → Bool) => s.activeRuns.any fun r => p r.2.claims
  match x.type with
  | 0x01 => held fun c => one.cores.any fun l => c.cores.contains l
  | 0x02 => held fun c => one.owned.any fun r => c.owned.any fun q => rangesMeet r q
  | 0x03 => (s.sharer ⟨x.lo 44 0, x.b⟩).isNone
  | 0x04 => 3072 < x.lo 11 0 + x.b || 1536 < s.tiers.pinnedPages + had.pins.length + one.pins.length ||
      one.pins.any fun k => (s.tiers.page k).st != 0 || had.pins.contains k
  | 0x05 => held fun c => c.hurdles.contains (x.lo 5 0)
  | 0x06 => held fun c => one.chans.any fun k => c.chans.contains k
  | 0x07 => held fun c => c.kvd || c.kv != []
  | 0x08 => held fun c => (one.sch && c.sch) || (one.hvu && c.hvu) || (one.kvd && c.holdsKvd) ||
      (one.pacer && c.pacer) || (one.sau && c.sau)
  | 0x09 => held fun c => (one.pipes.any fun p => c.pipes.contains p) || one.mstreams.any fun a => c.mstreams.any fun b => spansMeet a b
  | 0x0A => one.timers.any fun k => s.tmrForeign k ctx
  | 0x0B => s.runActive && BitVec.ofNat 32 x.a &&& 0x001F1F1F != s.reg (pgTre 0) 0x100
  | _ => false

/-- The number of the first item that a test refuses. -/
def firstItem (p : List ClaimItem → ClaimItem → Bool) (xs : List ClaimItem) : Option Nat :=
  (xs.zipIdx.find? fun x => p (xs.take x.2) x.1).map (·.2)

/-! Setting a run up (R429, R120, R256). -/

/-- Zero the cores that a run receives (R120) and give them its context. -/
def Core.receive (c : Core) (ctx epoch : Nat) : Core :=
  { c with ctxValid := true, ctx := ctx, epoch := epoch, seq := { c.seq with loops := [], spare := [] }, dep := [], hist := [], histBase := [],
           bank0 := Bank.empty 0, bank1 := Bank.empty 0, row := ⟨[], [], [], []⟩, stu := [], spd := [], poison := [] }

/-- Give a run its outer-tier ranges: blocks not carried over read as zeros (R256). -/
def State.giveRange (s : State) (x : ClaimItem) : State :=
  if x.type != 0x02 || x.a.testBit 48 then s else
  let a := x.lo 44 0
  let out := fun (b : Nat) => b < a / 4096 || (a + x.b) / 4096 ≤ b
  { s with tiers := { s.tiers with
      outer := dropSpan s.tiers.outer a x.b
      map := s.tiers.map.filter fun m => out m.1
      slots := s.tiers.slots.filter fun r => out r.2.block } }

/-- Pin and zero pages (R269). -/
def State.pinPages (s : State) (ctx : Nat) (ks : List Nat) : State :=
  ks.foldl (fun s k =>
    let t := s.setPages k 1 ⟨1, ctx, 0⟩
    { t with tiers := { t.tiers with
        near := dropSpan t.tiers.near (k * 0x200000) 0x200000
        nearPoison := t.tiers.nearPoison.filter fun w => w.1 < k * 0x40000 || (k + 1) * 0x40000 ≤ w.1 } }) s

/-- What an item sets up beyond ranges, pages and cores. -/
def State.setItem (s : State) (ctx : Nat) (x : ClaimItem) : State :=
  match x.type with
  | 0x05 => s.setHurdle (x.lo 5 0) { Hurdle.reset with
      valid := true, ctx := ctx, ndev := x.lo 43 32, root := x.lo 26 16, cmask := BitVec.ofNat 128 (s.tiers.localNum x.b 16) }
  | 0x06 => (bitList x.b 64).foldl (fun s k => s.setChan k { Chan.reset with valid := true, ctx := ctx }) s
  | 0x09 =>
    let own := fun (s : State) (p : Nat) => s.setReg pgMde (0x108 + 4 * (p / 8))
      (setFld (s.reg pgMde (0x108 + 4 * (p / 8))) (4 * (p % 8) + 3) (4 * (p % 8)) (8 + ctx))
    ((bitList (x.lo 15 0) 16).foldl own s).setReg pgMde (0x140 + 4 * ctx) (BitVec.ofNat 32 x.b)
  | 0x0A => (bitList (x.lo 7 0) 8).foldl (fun s k => s.tmrReserve k ctx) s
  | 0x0B => (List.range 4).foldl (fun s g =>
      if s.present (pgTre g) then s.setReg (pgTre g) 0x100 (BitVec.ofNat 32 x.a &&& 0x001F1F1F) else s) s
  | _ => s

/-- A control register that carries `CONTEXT` and `EN`; firmware writes it after the other pairs, with the run's context. -/
def isControl (page off : Nat) : Bool :=
  off = 0x100 && (page = pgSch || page = pgHvu 0 || page = pgKvd) || (page = pgTre 0 && off = 0x300)

/-- The pairs of the `REGS` items: page, offset, value. -/
def State.allPairs (s : State) (xs : List ClaimItem) : List (Nat × Nat × Nat) :=
  xs.flatMap fun x => if x.type = 0x0C then (s.pairs x).map fun p => (x.lo 9 0, p.1, p.2.1) else []

/-- Write a pair for a context (the units lie on pages from 0x40): `CONTEXT` fields and the directory entry's context take the run's own, and the stream
range of the SAU is that of the context. -/
def State.writePair (s : State) (ctx : Nat) (c : Claims) (p : Nat × Nat × Nat) : State :=
  let v := BitVec.ofNat 32 p.2.2
  let w := fun (off : Nat) (v : Word) => s.takeWrite (.ctl 0) p.1 off v
  if p.1 < 0x40 then s
  else if isControl p.1 p.2.1 then w p.2.1 (setFld v 30 28 ctx)
  else if p.1 = pgSau && 0x140 ≤ p.2.1 then w (0x140 + 4 * ctx) v
  else if p.1 = pgKvd && p.2.1 = 0x214 then w p.2.1 (setFld v 29 27 ctx)
  else if p.1 = pgKvd && p.2.1 = 0x200 && !(c.kv.any fun r => r.1 ≤ fld v 11 0 && fld v 11 0 ≤ r.2) then s
  else w p.2.1 v

/-- The last control word that the pairs give a unit. -/
def controlWord (ps : List (Nat × Nat × Nat)) (page : Nat) : Option (Nat × Nat × Nat) :=
  (ps.filter fun p => p.1 = page && isControl p.1 p.2.1).getLast?

/-- Write the register pairs of a run: plain ones in order, then the lap counter (R342), then the control registers of the
Pacer, the KVD, the HVUs and, with the patch words written (R292), the SCH. -/
def State.writePairs (s : State) (ctx : Nat) (c : Claims) (ps : List (Nat × Nat × Nat)) (lap : Option Nat) : State :=
  let plain := (ps.filter fun p => !isControl p.1 p.2.1).foldl (fun s p => s.writePair ctx c p) s
  let lapped := match lap with | some n => plain.setReg pgSch 0x104 (BitVec.ofNat 32 n) | none => plain
  let ctl := fun (s : State) (page : Nat) => match controlWord ps page with | some p => s.writePair ctx c p | none => s
  let on := ctl (ctl (ctl lapped (pgTre 0)) pgKvd) (pgHvu 0)
  ctl (if (controlWord ps (pgHvu 0)).isSome then on.writePatches else on) pgSch

/-- The unit whose own checks refuse the run (R291, R321, R352, R357), as the bit of its `UNITS` item. -/
def State.unitRefuses (s : State) (ctx : Nat) (ps : List (Nat × Nat × Nat)) : Option Nat :=
  let wants := fun (page : Nat) => match controlWord ps page with | some p => p.2.2.testBit 31 | none => false
  if wants (pgHvu 0) && !bit (s.reg (pgHvu 0) 0x100) 31 then some 1
  else if wants pgSch && s.sch.faulted then some 0
  else if wants pgKvd && (!bit (s.reg pgKvd 0x100) 31 || s.walkRefused ctx) then some 2
  else none

/-- The mark that a refusing unit leaves in its own page: R291, R321 and, for the checks of `EN` alone, R352; `t` is the
machine in which the unit was written. -/
def State.markRefused (s t : State) (u : Nat) : State :=
  match u with
  | 0 => (s.errSet pgSch 0).raise pgSch 1
  | 1 => s.errSet (pgHvu 0) 3
  | _ => if bit (t.reg pgKvd 0x100) 31 then s else s.errSet pgKvd 0

/-- The number of the first `UNITS` item that names a unit; for the KVD also the first `KVSEQ` item. -/
def unitItem (xs : List ClaimItem) (u : Nat) : Option Nat :=
  (xs.zipIdx.find? fun x => (x.1.type = 0x08 && x.1.a.testBit u) || (u = 2 && x.1.type = 0x07)).map (·.2)

/-- Start the lists of `LAUNCH` items; the access wakes the site (R461). -/
def State.startLaunch (s : State) (l : Launch) : State :=
  let n := s.siteOf l.lcore
  (((s.thawPage (pgCore n)).idleWrite n fun c => { c with seq := { c.seq with base := l.base, baseSpd := l.spd } })).listCtrl n 1

def State.launchesOf (s : State) (xs : List ClaimItem) : List Launch :=
  xs.flatMap fun x => if x.type = 0x0D then s.launchItems x else []

/-- Pages of the units that a run claims (R462). -/
def State.claimPages (s : State) (c : Claims) : List Nat :=
  c.cores.map (fun l => pgCore (s.siteOf l)) ++ (if c.sch then [pgSch] else []) ++
    (if c.hvu then (List.range 4).map pgHvu else []) ++ (if c.kvd || c.kv != [] then [pgKvd] else []) ++
    (if c.mde || c.pipes != [] then [pgMde] else []) ++ (if c.sau then [pgSau] else [])

/-- The lowest free run context. -/
def State.freeCtx (s : State) : Option Nat := (List.range 8).find? fun c => (s.run c).isNone

/-- What checking a run record gives: a status and `DETAIL`, units to be powered up first, or the machine with the run set
up in a context. -/
inductive Checked where
  | refuse (status : Nat) (item : Option Nat) (s : State)
  | power (s : State)
  | ok (ctx : Nat) (s : State)

/-- The state that the check leaves. -/
def Checked.state : Checked → State
  | .refuse _ _ s => s
  | .power s => s
  | .ok _ s => s

/-- The context that a run would take. -/
def State.wantCtx (s : State) (want : Option Nat) : Option Nat :=
  match want with | some c => if (s.run c).isNone then some c else none | none => s.freeCtx

/-- Set a run up in its context: ranges, pages, cores, channels and hurdles, registers (R430). -/
def State.setUpRun (s : State) (ctx : Nat) (r : Run) (h : Header) (xs : List ClaimItem) : State :=
  let s1 := xs.foldl State.giveRange { s with runs := Store.set none s.runs ctx (some r) }
  let s2 := s1.pinPages ctx r.claims.pins
  let s3 := r.claims.cores.foldl (fun s l => s.onCore (s.siteOf l) fun c => c.receive ctx (s.ctxEpoch ctx)) s2
  let s4 := xs.foldl (fun s x => s.setItem ctx x) s3
  s4.writePairs ctx r.claims (s.allPairs xs) (if r.claims.sch then some (Hd.stepno h) else none)

/-- A run that is set up, unless a unit's own checks refuse it: then `old` stands, with nothing set up but the mark
(R430). -/
def State.checkedRun (s old : State) (ctx : Nat) (xs : List ClaimItem) (ps : List (Nat × Nat × Nat)) : Checked :=
  match s.unitRefuses ctx ps with
  | some u => .refuse stCfgBad (unitItem xs u) (old.markRefused s u)
  | none => .ok ctx s

/-- Power up the pages of a run that are off. -/
def State.powerPages (s : State) (off : List Nat) : State :=
  off.foldl (fun s p => if bit (s.reg p 8) 0 then s else s.enableWrite p true) s

/-- A run record that its items do not refuse. -/
def State.startRun (s : State) (ctx k addr : Nat) (h : Header) (xs : List ClaimItem) (c0 : Claims) : Checked :=
  if 0xFFFFFFFF ≤ Hd.stepno h + 2 ^ 20 || s.trb.debug then .refuse stConflict none s else
  let off := (s.claimPages c0).filter fun p => s.present p && !s.enabled p
  if off != [] then .power (s.powerPages off) else
  (s.setUpRun ctx { list := k, entry := Hd.seq h, addr := addr, claims := c0, stepno := 0, accepted := false, ending := 0,
                    status := stComplete, detail := 0, device := s.ownId, lcore := 0, lindex := 0, parts := [],
                    since := s.dev.time } h xs).checkedRun s ctx xs (s.allPairs xs)

/-- Check a run record and set it up (R430). `want` is the context that a part of a group run names. -/
def State.checkRun (s : State) (want : Option Nat) (k addr : Nat) (h : Header) (xs : List ClaimItem) : Checked :=
  let c0 := s.claimAll (fun r => (s.sharer r).getD 0) xs
  if s.headerBad h || c0.sch != (Hd.stepno h != 0) then .refuse stMalformed none s else
  match firstItem (s.itemBad c0) xs with
  | some i => .refuse stMalformed (some i) s
  | none =>
  match firstItem (fun _ x => s.itemAbsent x) xs with
  | some i => .refuse stAbsent (some i) s
  | none =>
  match firstItem (s.itemConflict ((s.wantCtx want).getD 8)) xs, s.wantCtx want with
  | some i, _ => .refuse stConflict (some i) s
  | none, none => .refuse stConflict none s
  | none, some ctx => s.startRun ctx k addr h xs c0

/-! Group runs (R431, R484). -/

def State.onRun (s : State) (ctx : Nat) (f : Run → Run) : State :=
  match s.run ctx with
  | some r => { s with runs := Store.set none s.runs ctx (some (f r)) }
  | none => s

/-- The firmware client that writes (0) or reads (1) an entry of a device for a group run. -/
def partClient (ctx dev op : Nat) : Client := .firmware ((ctx * 2048 + dev) * 2 + op)

/-- Ask for the status words of a part's entry. -/
def State.pollPart (s : State) (ctx dev seq : Nat) : State :=
  s.request (partClient ctx dev 1) ctx dev (Config.partAddr dev seq + 0x20) 8 none

/-- Write an entry into a list of another device; it names the context (R431). -/
def State.writePart (s : State) (ctx dev seq : Nat) (entry : List Byte) : State :=
  let e := entry.take 4 ++ natLe 2 seq ++ (entry.drop 6).take 0x1A ++ natLe 8 (ctx * 2 ^ 45) ++ List.replicate 24 0 ++
    entry.drop 64
  s.request (partClient ctx dev 0) ctx dev (Config.partAddr dev seq) 512 (some e)

/-- The next entry number of a device's list. -/
def State.takeSeq (s : State) (dev : Nat) : Nat × State :=
  let n := Store.get 0 s.ctl.partSeq dev
  (n, { s with ctl := { s.ctl with partSeq := Store.set 0 s.ctl.partSeq dev ((n + 1) % 65536) } })

/-- Forward a part to its device. -/
def State.sendPart (s : State) (ctx dev : Nat) (entry : List Byte) : State :=
  let x := s.takeSeq dev
  (x.2.writePart ctx dev x.1 entry).onRun ctx fun r => { r with parts := r.parts ++ [⟨dev, x.1, none⟩] }

/-- Forward an END (3) or ABORT (4) of a run to a part's device. -/
def State.endPart (s : State) (ctx kind list : Nat) (p : RunPart) : State :=
  let x := s.takeSeq p.device
  x.2.writePart ctx p.device x.1
    (natLe 8 (kind * 2 ^ 56) ++ natLe 8 (p.seq * 2 ^ 48 + list * 2 ^ 45) ++ List.replicate 496 0)

/-- Status of the answer of a part. -/
def RunPart.status (p : RunPart) : Option Nat := p.answer.map (· / 2 ^ 56 % 256)

/-- Does a part still run on its device? -/
def RunPart.runs (p : RunPart) : Bool := p.status = some stAccepted

/-- The digest of the claim items of a group run record is extended into M5 (R499). -/
def State.extendMeas (s : State) (m : Nat) (d : List Byte) : State :=
  let old := (List.range 16).flatMap fun j => natLe 4 (s.reg pgTrb (0x200 + 0x40 * m + 4 * j)).toNat
  let new := Config.shake256 (old ++ d) 64
  (List.range 16).foldl (fun s j => s.setReg pgTrb (0x200 + 0x40 * m + 4 * j) (BitVec.ofNat 32 (leNat ((new.drop (4 * j)).take 4)))) s

/-- The recovery mode of a run with n devices that are not spares (R484). -/
def recoveryMode (n : Nat) : Nat := if n ≤ 16 then 1 else 2

/-- Does the own part break what its recovery mode requires? -/
def State.modeBad (s : State) (mode : Nat) (c : Claims) : Bool :=
  (mode = 1 && c.cores != [] && c.hvu && !bit (s.reg (pgHvu 0) 0x11C) 31) ||
    (mode = 2 && c.sch && (s.reg pgSch 0x134).toNat = 0)

/-- The run becomes active: its status is written and its lists start. -/
def State.acceptRun (s : State) (ctx : Nat) (ls : List Launch) : State :=
  match s.run ctx with
  | none => s
  | some r =>
    let t := (s.onRun ctx fun r => { r with accepted := true }).putStatus r.addr stAccepted 0 ctx 0 0 0 0
    ls.foldl State.startLaunch t

/-- Every grant into the ranges of an owner's run lapses (R532). -/
def State.lapseGrants (s : State) (owner : Nat) : State :=
  (List.range 8).foldl (fun s c => s.onRun c fun r =>
    { r with claims := { r.claims with grants := r.claims.grants.filter (·.2 != owner) } }) s

/-- Does a span of the own outer tier meet the ranges? -/
def State.meetsOwn (s : State) (rs : List Range) (a n : Nat) : Bool :=
  match s.target a n with
  | .outer l => rs.any fun r => rangesMeet r ⟨l, n⟩
  | _ => false

/-- Are reads in flight into the ranges of a run, admitted under its grants: tiles, promotions, and reads that a repair
slot holds? Firmware releases the ranges after them (R532). -/
def State.grantsBusy (s : State) (ctx : Nat) : Bool :=
  let rs := (s.claims ctx).shares
  rs != [] && ((s.cores.any fun c => c.2.ctxValid && c.2.ctx != ctx && c.2.stu.any fun x => x.2.tiles.any fun t =>
      t.st = .moving && t.admitted && Sd.dir t.sd != 1 && s.meetsOwn rs (tileAddr t.sd t.idx) (Sd.bytes t.sd)) ||
    (s.pacerCtx != ctx && s.tiers.pacer.promoting.any fun e => (homeSpans e.bits).any fun p => s.meetsOwn rs p.2.1 p.2.2) ||
    s.tiers.slots.any fun r => r.2.held.any fun h => h.whom != .unit && !h.write && rs.any fun q => rangesMeet q ⟨h.addr, h.len⟩)

/-- Release what a run holds: at its end, or where it was set up and is refused after all. Memory that was cleared stays
clear. -/
def State.undoRun (s : State) (ctx : Nat) : State :=
  let c := s.claims ctx
  let t := c.timers.foldl State.tmrRelease (s.lapseGrants ctx)
  let t := c.hurdles.foldl (fun s h => s.setHurdle h Hurdle.reset) t
  let t := c.chans.foldl (fun s k => s.setChan k Chan.reset) t
  let t := c.cores.foldl (fun s l => s.onCore (s.siteOf l) fun x => { x with ctxValid := false }) t
  let t := (t.kvdEnd ctx).inputEnd ctx
  let t := if c.sch then (if bit (t.reg pgSch 0x100) 31 then t.schCtrlWrite 0 else t) else t
  let t := if c.hvu then (if bit (t.reg pHvu 0x100) 31 then t.hvuCtrlWrite 0 else t) else t
  let t := if c.pipes = [] then t else
    (c.pipes.foldl (fun s p => s.setReg pgMde (0x108 + 4 * (p / 8))
      (setFld (s.reg pgMde (0x108 + 4 * (p / 8))) (4 * (p % 8) + 3) (4 * (p % 8)) 0)) t).setReg pgMde (0x140 + 4 * ctx) 0
  let t := if c.sau then t.setReg pgSau (0x140 + 4 * ctx) 0 else t
  let t := t.freeHeldFor ctx 1
  let t := if c.pacer then ((t.freeHeldFor ctx 2).onPacer fun _ => Pacer.reset).setRegBit (pgTre 0) 0x300 31 false else t
  { t with runs := Store.set none t.runs ctx none }

/-- Every part of a group run has answered: accept it, or abort the accepted parts and take the status of the refused part
with the lowest device (R431). -/
def State.groupSettle (s : State) (ctx : Nat) (ls : List Launch) : State :=
  match s.run ctx with
  | none => s
  | some r =>
    if r.accepted || r.parts.any (fun p => p.answer.isNone) then s else
    let bad := r.parts.filter fun p => !p.runs && p.status != some stComplete
    match bad.foldl (fun (b : Option RunPart) p => match b with
        | some q => if p.device < q.device then some p else b
        | none => some p) none with
    | none => s.acceptRun ctx ls
    | some p =>
      let t := (r.parts.filter RunPart.runs).foldl (fun s q => s.endPart ctx 4 r.list q) s
      let w := p.answer.getD 0
      (t.undoRun ctx).putStatus r.addr (w / 2 ^ 56 % 256) (w / 2 ^ 48 % 256) 0 p.device 0 0 0

/-- Items and header of the own part of a group run. -/
def State.ownPart (s : State) (ds : List (Nat × Nat × Nat)) : List ClaimItem :=
  match ds.find? fun d => d.1 = s.ownId with
  | none => []
  | some d => s.items d.2.2 (bitsOf 512 (s.tiers.localBytes d.2.2 64))

/-- Does a part claim cores? One that does not is a standby part (R484). -/
def State.partHasCores (s : State) (a : Nat) : Bool :=
  (s.items a (bitsOf 512 (s.tiers.localBytes a 64))).any fun x => x.type = 0x01

/-- A run without a `GROUP` item starts; on a device that is not the anchor the recovery registers are free (R484). -/
def State.startLocal (s : State) (ctx : Nat) (ls : List Launch) : State :=
  if s.dev.anchor then s.acceptRun ctx ls
  else
    let x := s.draw
    (x.2.setReg pgFlm 0x104 (BitVec.ofNat 32 ((1 + fld x.1 6 6) * 2 ^ 30 + fld x.1 5 0))).acceptRun ctx ls

/-- A group run starts: its parts go to their devices, and M5 takes the digest of the claim items (R431, R484, R499). -/
def State.startGroup (s : State) (ctx : Nat) (ls : List Launch) (xs : List ClaimItem) (ds : List (Nat × Nat × Nat)) : State :=
  let spares := (ds.filter fun d => !s.partHasCores d.2.2).length
  let v := (ds.filter fun d => d.1 != s.ownId).foldl (fun t d => t.sendPart ctx d.1 (s.tiers.localBytes d.2.2 512)) s
  let w := v.setReg pgFlm 0x104 (BitVec.ofNat 32 (recoveryMode (ds.length - spares) * 2 ^ 30 + min spares 63))
  (w.extendMeas 5 (Config.shake256 (xs.flatMap fun x => natLe 8 x.a ++ natLe 8 x.b) 64)).groupSettle ctx ls

/-- What follows the check of a run record; `s` is the machine before the entry. -/
def State.afterCheck (s : State) (k addr : Nat) (isGroup : Bool) (ls : List Launch) (xs : List ClaimItem)
    (ds : List (Nat × Nat × Nat)) : Checked → State
  | .refuse st d u => u.refuse addr st d
  | .power u => u.setReg 0 (subqOff k 3) (s.reg 0 (subqOff k 3))
  | .ok ctx u =>
    if !isGroup then u.startLocal ctx ls
    else if u.modeBad (recoveryMode (ds.length - (ds.filter fun d => !u.partHasCores d.2.2).length)) (u.claims ctx) then
      (s.consume k).refuse addr stCfgBad none
    else u.startGroup ctx ls xs ds

/-- Is a run record a group run whose own items are well formed; the items with those of the own part; the parts. -/
def State.recordItems (s : State) (addr : Nat) (h : Header) : Bool × List ClaimItem × List (Nat × Nat × Nat) :=
  let xs := s.items addr h
  let ds := xs.flatMap fun x => if x.type = 0x0F then s.deviceItems x else []
  let good := (xs.any fun x => x.type = 0x0F) && (firstItem (s.itemBad (s.claimAll (fun _ => 0) xs)) xs).isNone
  (good, if good then xs ++ s.ownPart ds else xs, ds)

/-- The header of a run record; a group run takes `STEPNO` from the own part. -/
def State.recordHead (s : State) (h : Header) (own : Bool) (ds : List (Nat × Nat × Nat)) : Header :=
  match (if own then ds.find? fun d => d.1 = s.ownId else none) with
  | some d => setFld h (8 * 0x10 + 31) (8 * 0x10) (s.tiers.localNum (d.2.2 + 0x10) 4)
  | none => h

/-- Consume a `RUN` entry (R430, R431), or one of no known kind. An entry whose units are being powered up stays. -/
def State.runEntry (s : State) (k : Nat) (h : Header) : State :=
  let addr := s.entryAddr k (s.nextEntry k)
  if Hd.kind h != 1 || s.headerBad h then (s.consume k).refuse addr stMalformed none
  else
    let xs := s.items addr h
    let all := s.recordItems addr h
    s.afterCheck k addr (xs.any fun x => x.type = 0x0F) (s.launchesOf all.2.1) xs all.2.2
      ((s.consume k).checkRun (if s.dev.anchor then none else some (Hd.ctx h)) k addr
        (s.recordHead h all.1 all.2.2) all.2.1)

/-- RUN (R430, R431). -/
def execRun (k : Fin 8) (s : State) : Host.Outcome State Fault Refusal :=
  .next (match s.header k.val with
    | none => s
    | some h => if 2 ≤ Hd.kind h && Hd.kind h ≤ 4 then s else s.runEntry k.val h)

/-- The launches of a group run that waits, read again from its entry. -/
def State.waitingLaunches (s : State) (ctx : Nat) : List Launch :=
  match s.run ctx with
  | none => []
  | some r =>
    let xs := s.items r.addr (bitsOf 512 (s.tiers.localBytes r.addr 64))
    s.launchesOf (xs ++ s.ownPart (xs.flatMap fun x => if x.type = 0x0F then s.deviceItems x else []))

/-- A part of a group run has answered with its status words. -/
def State.partAnswer (s : State) (ctx dev w : Nat) : State :=
  let t := s.onRun ctx fun r => { r with
    parts := r.parts.map fun p => if p.device = dev then { p with answer := some w } else p }
  t.groupSettle ctx (t.waitingLaunches ctx)

/-- GROUP_PART_TIMEOUT: 100 ms without a status count as `CONFLICT` (R431). -/
def execGroupPartTimeout (ctx : Fin 8) (dev : BitVec 11) (s : State) : Host.Outcome State Fault Refusal :=
  .next (match s.run ctx.val with
    | none => s
    | some r =>
      if s.regsUp && !r.accepted && r.since + 100000000 ≤ s.dev.time &&
          r.parts.any (fun p => p.device = dev.toNat && p.answer.isNone) then
        s.partAnswer ctx.val dev.toNat (stConflict * 2 ^ 56 + 0xFF * 2 ^ 48)
      else s)

/-- LINE_WATCH_FIRE: the slot of a list's header line fires (R428). -/
def execLineWatchFire (k : Fin 8) (s : State) : Host.Outcome State Fault Refusal :=
  .next (if s.ctl.watch.contains k.val then
    let t := { s with ctl := { s.ctl with watch := s.ctl.watch.filter (· != k.val) } }
    t.raise (pgCtl ((s.servingCore k.val).getD (4 * (k.val / 4)))) 0
  else s)

/-! Steps and ends (R431). -/

/-- The active run that an entry names. -/
def State.namedRun (s : State) (h : Header) : Option (Nat × Run) :=
  s.activeRuns.find? fun x => x.2.accepted && x.2.list = Hd.rlist h && x.2.entry = Hd.rseq h

def State.openAdd (s : State) (e : OpenEntry) : State := { s with ctl := { s.ctl with opens := s.ctl.opens ++ [e] } }

/-- Is a step in flight complete: its lists halted and, for the KVD, its fold made? -/
def State.stepDone (s : State) (e : OpenEntry) : Bool :=
  e.kind = 2 && (e.sites.all fun n => (s.core n).seq.st = .halted) &&
    match e.fold with | some n => (s.reg pgKvd 0x11C).toNat != n | none => true

/-- Complete the steps that are done. -/
def State.closeSteps (s : State) : State :=
  (s.ctl.opens.filter s.stepDone).foldl (fun s e => s.putStatus e.addr stComplete 0 e.ctx 0 0 0 0)
    { s with ctl := { s.ctl with opens := s.ctl.opens.filter fun e => !s.stepDone e } }

/-- Is the KVD between an `ADMIT` and the end of its step's maintenance (R365 rows 1 to 6)? -/
def State.kvdStepping (s : State) (ctx : Nat) : Bool :=
  s.kvd.phase != 0 || s.kvd.due || s.ctl.opens.any fun e => e.ctx = ctx && e.fold = some (s.reg pgKvd 0x11C).toNat

/-- Consume a `STEP` entry. The Pacer of a run without the SCH starts its walk again with the step (R275); a step of the KVD
waits for the one before it, maintenance included (R365). -/
def State.stepEntry (s : State) (k : Nat) (h : Header) : State :=
  let addr := s.entryAddr k (s.nextEntry k)
  let t := s.consume k
  match s.headerBad h, s.namedRun h with
  | true, _ => t.refuse addr stMalformed none
  | _, none => t.refuse addr stMalformed none
  | _, some (ctx, r) =>
    let xs := s.items addr h
    match firstItem (fun b x => (x.type != 0x0C && x.type != 0x0D) || s.itemBad r.claims b x) xs with
    | some i => t.refuse addr stMalformed (some i)
    | none =>
      let kv := r.claims.holdsKvd && s.kvdOn
      if kv && s.kvdStepping ctx then s else
      let ls := if r.ending = 2 then [] else s.launchesOf xs
      let sites := ls.map fun l => s.siteOf l.lcore
      let u := ((t.putStatus addr stAccepted 0 ctx 0 0 0 0).onRun ctx fun r => { r with stepno := Hd.stepno h }).openAdd
        ⟨addr, 2, ctx, sites, if kv then some (s.reg pgKvd 0x11C).toNat else none⟩
      if r.ending = 2 then u else
      let u := if r.claims.pacer && !r.claims.sch && s.pacerCtx = ctx then u.pacerHome else u
      let v := u.writePairs ctx r.claims (s.allPairs xs) none
      if kv then
        let w := ls.foldl (fun s l => s.idleWrite (s.siteOf l.lcore) fun c =>
          { c with seq := { c.seq with base := l.base, baseSpd := l.spd } }) v
        (w.onKvd fun x => { x with starts := sites }).kvdCmdWrite 1
      else ls.foldl State.startLaunch v

/-- STEP (R431, R365): steps that are done become complete, and the next entry is consumed. -/
def execStep (k : Fin 8) (s : State) : Host.Outcome State Fault Refusal :=
  let t := if s.power.mod = 2 && s.ctl.released then s.closeSteps else s
  .next (match t.header k.val with
    | none => t
    | some h => if Hd.kind h = 2 then t.stepEntry k.val h else t)

/-- `ABANDON` every list of a run. -/
def State.abandonAll (s : State) (ctx : Nat) : State :=
  (s.claims ctx).cores.foldl (fun s l => s.listCtrl (s.siteOf l) 0x10) s

/-- End a run with a status: its lists are abandoned and the ends of its parts follow. A run already ending keeps its
status. -/
def State.endRunWith (s : State) (ctx status detail device lcore lindex : Nat) : State :=
  match s.run ctx with
  | none => s
  | some r =>
    if r.ending = 2 then s else
    let t := s.onRun ctx fun r => { r with
      ending := 2, status := status, detail := detail, device := device, lcore := lcore, lindex := lindex }
    (r.parts.filter RunPart.runs).foldl (fun s q => s.endPart ctx 4 r.list q) (t.abandonAll ctx)

/-- Consume an `END` (3) or `ABORT` (4) entry. -/
def State.endEntry (s : State) (k : Nat) (h : Header) : State :=
  let addr := s.entryAddr k (s.nextEntry k)
  let t := s.consume k
  match s.headerBad h, s.namedRun h with
  | true, _ => t.refuse addr stMalformed none
  | _, none => t.refuse addr stMalformed none
  | _, some (ctx, r) =>
    if s.items addr h != [] then t.refuse addr stMalformed (some 0) else
    let u := (t.putStatus addr stAccepted 0 ctx 0 0 0 0).openAdd ⟨addr, Hd.kind h, ctx, [], none⟩
    if Hd.kind h = 4 then u.endRunWith ctx stAborted 0 s.ownId 0 0
    else if r.ending = 0 then
      (r.parts.filter RunPart.runs).foldl (fun s q => s.endPart ctx 3 r.list q) (u.onRun ctx fun r => { r with ending := 1 })
    else u

/-- END (R431). -/
def execEndRun (k : Fin 8) (s : State) : Host.Outcome State Fault Refusal :=
  .next (match s.header k.val with
    | some h => if Hd.kind h = 3 then s.endEntry k.val h else s
    | none => s)

/-- ABORT (R431). -/
def execAbort (k : Fin 8) (s : State) : Host.Outcome State Fault Refusal :=
  .next (match s.header k.val with
    | some h => if Hd.kind h = 4 then s.endEntry k.val h else s
    | none => s)

/-- Is everything that the end of a run waits for over: lists, buckets in hand, parts? -/
def State.runQuiet (s : State) (r : Run) : Bool :=
  (r.claims.cores.all fun l =>
    let q := (s.core (s.siteOf l)).seq
    (q.st = .idle || q.st = .halted) && !q.abandoning) &&
  (!r.claims.hvu || s.hvu.job.isNone) && !(r.parts.any RunPart.runs)

/-- Stream contexts of a run's cores that are not IDLE. -/
def State.streamsLeft (s : State) (r : Run) : Bool :=
  r.claims.cores.any fun l => (s.core (s.siteOf l)).stu.any fun x => x.2.st != .idle

/-- The entries of a run that is over take their status. -/
def State.closeEntries (s : State) (ctx : Nat) (r : Run) : State :=
  (s.ctl.opens.filter (·.ctx = ctx)).foldl (fun s e =>
      if e.kind = 2 then s.putStatus e.addr r.status r.detail ctx r.device 0 r.lcore r.lindex
      else s.putStatus e.addr stComplete 0 ctx 0 0 0 0)
    { s with ctl := { s.ctl with opens := s.ctl.opens.filter (·.ctx != ctx) } }

/-- The run is over: claims are released and its status is written (R431). -/
def State.finishRun (s : State) (ctx : Nat) (r : Run) : State :=
  let aux := if r.claims.sch then s.lap else 0
  let t := (s.closeSteps.undoRun ctx).closeEntries ctx r
  let t := if r.parts != [] || !s.dev.anchor then t.setReg pgFlm 0x104 0 else t
  let t := { t with txns := t.txns.filter fun x => match x.client with
    | .firmware n => n / 4096 != ctx
    | _ => true }
  ((t.putStatus r.addr r.status r.detail ctx r.device aux r.lcore r.lindex).raise 0 1).flmRelease

/-- The Pacer of a run that ends demotes its entries (R280). -/
def State.pacerLeave (s : State) (r : Run) : State :=
  if r.claims.pacer && bit (s.reg (pgTre 0) 0x300) 31 then s.pacerEnd else s

/-- Grants into the run's ranges lapse at once; its claims are released once no admitted read and no held page is left
(R532, R270). -/
def State.endOrWait (s : State) (ctx : Nat) (r : Run) : State :=
  let t := s.lapseGrants ctx
  if t.grantsBusy ctx || t.kvdHeld ctx || t.pagesHeld ctx 1 then t else t.finishRun ctx r

/-- RUN_END: a run that is ending and waits for nothing more (R431, R280, R244). -/
def execRunEnd (ctx : Fin 8) (s : State) : Host.Outcome State Fault Refusal :=
  .next (match s.run ctx.val with
    | none => s
    | some r =>
      if !s.regsUp || r.ending = 0 || !s.runQuiet r then s
      else if s.streamsLeft r then r.claims.cores.foldl (fun s l => s.abandonStreams (s.siteOf l)) s
      else
        let t := s.pacerLeave r
        if r.claims.pacer && t.tiers.pacer.ending then t else t.endOrWait ctx.val r)

end Sys2Proof.Machine
end

