-- ==== Sys2Proof/Machine/Sources.lean ====
section
/-!
DEFINITION. What firmware names as the source of a block (11 R310, 10 R281), and the mending of a bucket that a poisoned
block stopped (18 R483).
-/
namespace Sys2Proof.Machine

/-! The buddy's copies (R307, R309). -/

/-- The greatest value at most `top` that the buddy's two copies of a bucket hold, with the copy. -/
def newestCopy (m : Store Nat) (b top : Nat) : Option (Nat × Nat) :=
  let ok := fun (i : Nat) => let v := Store.get 0 m i; if v = 0 || top + 1 < v then none else some (v - 1, i)
  match ok (2 * b), ok (2 * b + 1) with
  | some x, some y => some (if x.1 < y.1 then y else x)
  | some x, none => some x
  | none, y => y

/-- The buddy slot whose `STAMP` is that of the committed slot (R310). -/
def State.buddyTwin (s : State) (b : Nat) : Option Nat :=
  let v := s.stampOf (Bk.slot (s.bucket b))
  if !s.buddyOn then none
  else [2 * b, 2 * b + 1].find? fun i => Store.get 0 s.hvu.buddyStamp i = v + 1

/-! Sources (R310). -/

/-- Does block k share a byte with a span? -/
def inSpan (k : Nat) (x : Nat × Nat) : Bool := 0 < x.2 && x.1 < 4096 * k + 4096 && 4096 * k < x.1 + x.2

/-- Does member r hold what this device last gathered of its own shard? Not while the passes leave `W` partly new, nor while
its gather writes are on their way or have failed (R303, R336). -/
def State.holdsGather (s : State) (b r : Nat) : Bool :=
  Bk.state (s.bucket b) != 3 && (s.heldSpare b).isNone && !s.txns.any (gatherOf b r)

/-- The device that serves a block of shard j of `W` (R310). Which copies won the last comparison is known at the owner alone,
so any member that a route reaches stands in for an owner that none reaches (log 42). -/
def State.shardHolder (s : State) (b j : Nat) : Option Nat :=
  let d := s.bucket b
  let me := Bk.rank d
  let rest := (List.range (Bk.nmem d)).filter fun r => r != me && r != j && s.reaches (s.member d r)
  if j = me then (rest.find? fun r => s.holdsGather b r).map (s.member d)
  else if s.reaches (s.member d j) then some (s.member d j)
  else rest.head?.map (s.member d)

/-- The source of block k where bucket b has a claim on it: none where the block is none of its own, `some none` for
`NOSRC`, else a global address (R310). -/
def State.bucketSource (s : State) (b k : Nat) : Option (Option Nat) :=
  let d := s.bucket b
  let a := s.slotAddr (Bk.slot d)
  if inSpan k (a, s.slotBytes) then
    some ((s.buddyTwin b).map fun i => s.buddyDev * 2 ^ 45 + s.mirrorSlot i + (4096 * k - a))
  else match (List.range (Bk.nmem d)).find? fun j => (s.wSpans d j).any (inSpan k) with
    | some j => some ((s.shardHolder b j).map fun r => r * 2 ^ 45 + 4096 * k)
    | none =>
      if ((List.range (Bk.nmem d)).any fun j => (s.gSpans d j).any (inSpan k)) ||
          (s.bucketTables b d).any fun x => inSpan k (x.1, x.2.1) then some none
      else none

/-- The source that firmware names for a block of the own outer tier, where R310 states one. A spare slot has none. -/
def State.sourceOf (s : State) (k : Nat) : Option (Option Nat) :=
  if !s.hvuOn then none
  else match (List.range s.bktCount).findSome? fun b => s.bucketSource b k with
    | some x => some x
    | none => if (List.range s.slotCount).any fun i => inSpan k (s.slotAddr i, s.slotBytes) then some none else none

/-- Answer one repair slot that waits for its source (R281 step 2). -/
def State.nameSource (s : State) (g n : Nat) : State :=
  let r := s.slotOf g n
  if r.st != 1 then s else
  match s.sourceOf r.block with
  | none => s
  | some none => s.nosrcWrite g n 1
  | some (some a) =>
    (s.setReg (pgTre g) (0x208 + 16 * n) (BitVec.ofNat 32 (a % 2 ^ 32))).repairGoWrite g n
      (BitVec.ofNat 32 (2 ^ 31 + a / 2 ^ 32))

/-- Firmware answers the repair events of the TREs (R281, R310). -/
def State.answerRepairs (s : State) : State :=
  (List.range 64).foldl (fun s i => if s.present (pgTre (i / 16)) then s.nameSource (i / 16) (i % 16) else s) s

/-! Mending a bucket (R483): firmware's transfers; the bucket is in the number. -/

def mendClient (b : Nat) : Client := .firmware (2 ^ 18 + b)

def State.txnsOf (s : State) (c : Client) : List Txn := s.txns.filter fun t => t.client = c

def State.dropClient (s : State) (p : Client → Bool) : State := { s with txns := s.txns.filter fun t => !p t.client }

/-- The poisoned blocks that stop a bucket: of the committed slot, of its tables, and of what its reduction or its update
reads. -/
def State.stopBlocks (s : State) (b : Nat) : List Nat :=
  let d := s.bucket b
  let xs := (s.slotAddr (Bk.slot d), (s.slotLayout d).2) :: (s.bucketTables b d).map (fun x => (x.1, x.2.1)) ++
    s.gSpans d (Bk.rank d) ++ s.reduceReads d b
  ((xs.filter fun x => x.1 < nearBase).flatMap fun x => blocksOf x.1 x.2).eraseDups.filter fun k => mapPoison (s.tiers.mapOf k)

/-- Buckets whose record shares a byte with block k. -/
def State.recordsIn (s : State) (k : Nat) : List Nat :=
  (List.range s.bktCount).filter fun c => inSpan k (s.bktBase + 128 * c, 128)

/-- What a block is rewritten from: copies at the buddy, as remote address and length; none where R310 states no source. -/
def State.copiesFor (s : State) (b k : Nat) : Option (List (Nat × Nat)) :=
  let a := s.slotAddr (Bk.slot (s.bucket b))
  let recs := s.recordsIn k
  if recs != [] then
    (if !s.buddyOn then none
     else recs.mapM fun c => (newestCopy s.hvu.buddyLap c (2 ^ 32)).map fun x => (s.mirrorRec x.2, 128))
  else if inSpan k (a, s.slotBytes) then (s.buddyTwin b).map fun i => [(s.mirrorSlot i + (4096 * k - a), 4096)]
  else none

/-- Where the copy at a buddy address belongs on this device. -/
def State.copyHome (s : State) (a : Nat) : Nat :=
  if s.mirrorRec 0 ≤ a then s.bktBase + 128 * ((a - s.mirrorRec 0) / 256)
  else
    let o := a - s.mirrorSlot 0
    s.slotAddr (Bk.slot (s.bucket (o / s.slotBytes / 2))) + o % s.slotBytes

/-- Rewrite a block whole from the copies that came; what no copy holds of it is free. -/
def State.rewriteBlock (s : State) (k : Nat) (xs : List (Nat × List Byte)) : State :=
  let f := s.freeBytes 4096
  let m := xs.foldl (fun m x => putBytes m x.1 x.2) (putBytes [] (4096 * k) f.1)
  f.2.localWrite (4096 * k) ((List.range 4096).map fun i => Store.get 0 m (4096 * k + i))

/-- A record that came back from the buddy: the stopped bucket stays in `FAULT` until it is requeued, any other bucket is
`OPEN` again (log 68). -/
def State.settleRecord (s : State) (b c : Nat) : State := s.stepState c (if c = b then 6 else 0) (if c = b then 5 else 0)

/-- The copies of a bucket's blocks have come: write them and requeue the bucket (R310, R483). -/
def State.mendFrom (s : State) (b : Nat) (ts : List Txn) : State :=
  let xs := ts.map fun t => (s.copyHome t.addr, t.bytes)
  let ks := s.stopBlocks b
  let t := ks.foldl (fun s k => s.rewriteBlock k (xs.filter fun x => inSpan k (x.1, x.2.length))) s
  let u := (ks.flatMap s.recordsIn).eraseDups.foldl (fun s c => s.settleRecord b c) t
  u.hvuCmdWrite (BitVec.ofNat 32 (2 ^ 30 + b))

/-- A bucket in `FAULT` with `POISON_INPUT`: its poisoned blocks are rewritten from the sources of R310 and the bucket is
requeued; where one has no source, the device is restored in place (R483). -/
def State.mendBucket (s : State) (b : Nat) : State :=
  let ts := s.txnsOf (mendClient b)
  let ks := s.stopBlocks b
  if ts.any fun t => !t.done then s
  else if ts != [] then
    let u := s.dropClient fun c => c = mendClient b
    if ts.any fun t => t.status != 0 then u.declareLoss u.ownId else u.mendFrom b ts
  else match ks.mapM fun k => s.copiesFor b k with
    | some (x :: xs) =>
      (x :: xs).flatten.foldl (fun s q => s.request (mendClient b) s.hvuCtx s.buddyDev q.1 q.2 none) s
    | _ => s.declareLoss s.ownId

/-! The replica (R335, R485). -/

/-- The other devices that the record of a run names, as group devices or as roots of hurdles (R429). -/
def State.runDevices (s : State) (r : Run) : List Nat :=
  let xs := s.items r.addr (bitsOf 512 (s.tiers.localBytes r.addr 64))
  let ds := xs.flatMap fun x =>
    if x.type = 0x0F then (s.deviceItems x).map (·.1) else if x.type = 0x05 then [x.lo 26 16] else []
  ds.eraseDups.filter (· != s.ownId)

/-- Firmware sends `WITHDRAW` to the devices of the replica of device `of` that the run record names (R323, R335). -/
def State.withdrawReplica (s : State) (ctx of : Nat) : State :=
  match s.run ctx with
  | none => s
  | some r => ((s.runDevices r).filter fun d => d != of && Config.sameReplica of d).foldl
      (fun s d => s.sendBaton 0xD s.schCtx d 0 0) s

end Sys2Proof.Machine
end

