-- ==== Sys2Proof/Machine/Recovery.lean ====
section
/-!
DEFINITION. Fault responses, the step policy, device loss and the restore of a lap, and the rest of the fault manager's
commands (16 R432, 18 R479-R488).
-/
namespace Sys2Proof.Machine

/-! Firmware's transfers of a restore (R484): the bucket or the copy is in the number. -/

def slotClient (b : Nat) : Client := .firmware (2 ^ 19 + b)
def recClient (b : Nat) : Client := .firmware (2 ^ 20 + b)

/-- A client of the restore; those of its all-gather start at `lastFirmware`. -/
def restoreClient (c : Client) : Bool := match c with | .firmware n => 2 ^ 19 ≤ n && n < lastFirmware | _ => false

/-! Step faults (R432, R483). -/

/-- Is the run active and not ending by a fault already? -/
def State.runLive (s : State) (ctx : Nat) : Bool := match s.run ctx with | some r => r.accepted && r.ending != 2 | none => false

/-- The lap of the device is given up: its lists are abandoned, and its replica withdraws (R335, R483). -/
def State.giveUpLap (s : State) (ctx : Nat) : State :=
  let t := (s.abandonAll ctx).withdraw
  if s.sch.withdrawn then t else t.withdrawReplica ctx s.ownId

/-- The first port that the routes list toward a device, working or not. -/
def State.listedPort (s : State) (dst : Nat) : Option Nat :=
  let e := if dst / 64 = s.dev.group.toNat then s.routeEntry false (dst % 64) else s.routeEntry true (dst / 64 % 32)
  (entryPorts e).head?

/-- A device that was declared lost. -/
def State.isLost (s : State) (d : Nat) : Bool := s.reg pgFlm 0x118 = BitVec.ofNat 32 (2 ^ 31 + d)

/-- Answer a list that stopped with a fault (R432, R483). -/
def State.answerList (s : State) (n : Nat) : State :=
  let c := s.core n
  let f := c.seq.frec
  if c.seq.st != .stoppedFault || !c.ctxValid || !s.runLive c.ctx then s
  else if f.code = 6 then
    let x := s.stu n (scx f.desc)
    if x.shadow.isNone && x.shadowFetch.isNone then s.listCtrl n 4 else s
  else if (f.code = 5 || f.code = 10 || f.code = 12) && (s.claims c.ctx).sch then
    if f.code = 12 then
      let d := gDev f.addr
      if s.isLost d then s
      else
        let t := match s.listedPort d with | some p => s.flmEvent 4 p | none => s
        t.giveUpLap c.ctx
    else s.giveUpLap c.ctx
  else s.endRunWith c.ctx stEndedFault f.code s.ownId ((s.lcoreOf n).getD 0) f.index

/-- End a run for a fault of a unit; the code of a Pacer or schedule fault is not stated, so it is any of R144. -/
def State.endForUnit (s : State) (ctx : Nat) (code : Option Nat) : State :=
  if !s.runLive ctx then s else
  match code with
  | some c => s.endRunWith ctx stEndedFault c s.ownId 0 0
  | none =>
    let x := s.draw
    x.2.endRunWith ctx stEndedFault (1 + x.1.toNat % 12) s.ownId 0 0

/-- Answer the faults that units have reported (R432). -/
def State.answerUnits (s : State) : State :=
  let s1 := if s.tiers.pacer.stopped && s.pacerOn then s.endForUnit s.pacerCtx none else s
  let s2 := if s1.sch.faulted then s1.endForUnit s1.schCtx none else s1
  let s3 := s2.input.faults.foldl (fun s x => s.endForUnit x.1 (some x.2)) { s2 with input := { s2.input with faults := [] } }
  if !s3.hvuOn || !s3.runLive s3.hvuCtx then s3 else
  (List.range s3.bktCount).foldl (fun s b =>
    let d := s.bucket b
    if Bk.state d != 6 then s
    else if dfld d 0x58 59 52 = 5 then s.mendBucket b
    else s.endForUnit s.hvuCtx (some (dfld d 0x58 59 52))) s3

/-- FAULT_RESPONSE (R281, R432, R483): firmware answers a stopped list of a site, the faults that units have reported, and
blocks that wait for a source. -/
def execFaultResponse (site : Fin 136) (s : State) : Host.Outcome State Fault Refusal :=
  .next (if s.regsUp && s.ctl.released then (s.answerList site.val).answerUnits.answerRepairs else s)

/-! Restore (R484, R488). -/

/-- Carry a stream context over (R488): a read ring and a pass start again where they stood, a write ring is empty. -/
def StuCtx.restored (x : StuCtx) : StuCtx :=
  let wr := Sd.ring x.first && Sd.dir x.first = 1
  let back := x.tiles.length + (if Sd.ring x.first && !wr then (x.head + 65536 - x.tail) % 65536 else 0)
  let d := x.cur.getD x.first
  let pos := (match x.cur with | some _ => x.pos | none => Sd.ntiles x.first) - back
  if x.st = .idle then x
  else if wr then { x with tiles := [], head := x.tail, disarmer := none }
  else { x with tiles := [], cur := some d, pos := pos, head := if Sd.ring x.first then x.tail else x.head, disarmer := none }

/-- Restore one core from a record; SPD and the site's own counters stay. -/
def Core.restored (c : Core) (r : Core) : Core :=
  { c with
    seq := { c.seq with base := r.seq.base, baseSpd := r.seq.baseSpd, loops := r.seq.loops, spare := r.seq.spare }
    dep := r.dep, hist := r.hist, histBase := r.histBase
    stu := r.stu.map fun x => (x.1, x.2.restored) }

/-- Near groups go to their backing, or are dropped (R488). -/
def State.kvRestored (s : State) : State :=
  let t := (s.kvd.dir.filter fun x => Kd.state x.2 = 1).foldl (fun s x =>
    (List.range (Kd.groups x.2)).foldl (fun s p =>
      let h := s.groupHead x.1 p
      if Gh.loc h = 1 then s.leaveNear x.1 p (if Gh.backed h then 2 else 3) else s) s) s
  t.onKvd fun k => { k with slots := [], moves := [] }

/-- Write the sections of a record back while the units are disabled (R488). -/
def State.writeBack (s : State) (ctx : Nat) (r : Snapshot) : State :=
  let regs := recordRegs.filter fun q => !isControl q.1 q.2
  let s1 := regs.foldl (fun s q => if s.present q.1 then
    s.setReg q.1 q.2 (Store.get (resetOf q.1 q.2) r.regs (regKey q.1 q.2)) else s) s
  let s2 := r.cores.foldl (fun s x => s.onCore (s.siteOf x.1) fun c => c.restored x.2) s1
  let pc := s2.tiers.pacer
  let s3 := { s2 with
    sch := { r.sch with held := [], waiting := s2.sch.waiting }
    kvd := r.kvd
    input := { r.input with jobs := [], pipes := [], sau := [], faults := [] }
    tiers := { s2.tiers with
      pages := s2.tiers.pages.filter fun x => x.2.st != 2
      pacer := { Pacer.reset with entry := r.entry, cursor := r.cursor, ending := pc.ending } } }
  let s4 := r.spans.foldl (fun s x => s.localWrite x.1 x.2) s3
  s4.kvRestored.onRun ctx fun x => { x with claims := { x.claims with keys := r.keys } }

/-- The control word that a record holds for a page. -/
def Snapshot.control (r : Snapshot) (p off : Nat) : Word := Store.get (resetOf p off) r.regs (regKey p off)

/-- Clear `EN` of the units of a run. -/
def State.unitsOff (s : State) (c : Claims) : State :=
  let s1 := if c.sch then s.schCtrlWrite 0 else s
  let s2 := if c.hvu then s1.hvuCtrlWrite 0 else s1
  let s3 := if c.kvd || c.kv != [] then s2.kvdCtrlWrite 0 else s2
  if c.pacer then s3.setRegBit (pgTre 0) 0x300 31 false else s3

/-- Enable the KVD with the directory and the allotment that it has (R352). -/
def State.kvdOnAgain (s : State) (v : Word) : State :=
  let t := s.setReg pgKvd 0x100 (v &&& 0x70000000)
  let u := { t with tiers := { t.tiers with pages := t.tiers.pages.filter fun x => !(x.2.st = 3 && x.2.ctx = t.kvdCtx) } }
  if !bit v 31 then t
  else if u.kvdRefused then t.errSet pgKvd 0
  else (u.setPages u.kvdFirst u.kvdPages ⟨3, u.kvdCtx, 0⟩).setRegBit pgKvd 0x100 31 true

/-- Enable the units of a run again, as the record has them; their checks run (R488). -/
def State.unitsOn (s : State) (c : Claims) (r : Snapshot) : State :=
  let s1 := if c.pacer then s.setReg (pgTre 0) 0x300 (r.control (pgTre 0) 0x300) else s
  let s2 := if c.kvd || c.kv != [] then s1.kvdOnAgain (r.control pgKvd 0x100) else s1
  let s3 := if c.hvu then s2.hvuCtrlWrite (r.control (pgHvu 0) 0x100) else s2
  let s4 := s3.writePatches
  if c.sch then s4.schCtrlWrite (r.control pgSch 0x100) else s4

/-- The own slot of a bucket that holds a stamp (R484 step 3). -/
def State.localSlot (s : State) (b stamp : Nat) : Option Nat :=
  (List.range s.slotCount).find? fun i => s.stampOf i = stamp && s.tiers.localNum (s.slotAddr i + 8) 8 = b

/-- Ask the buddy for what a bucket needs of lap p (R309, R484 step 3). -/
def State.askBucket (s : State) (p b : Nat) : State :=
  match newestCopy s.hvu.buddyStamp b p, newestCopy s.hvu.buddyLap b p with
  | some x, some y =>
    let t := s.request (recClient b) s.hvuCtx s.buddyDev (s.mirrorRec y.2) 128 none
    if (s.localSlot b x.1).isSome then t
    else t.request (slotClient b) s.hvuCtx s.buddyDev (s.mirrorSlot x.2) (s.slotLayout (s.bucket b)).2 none
  | _, _ => s

/-- Restore one bucket from what came: slot, record with `COMMIT` naming the slot, `OPEN` (R309). -/
def State.restoreBucket (s : State) (p b : Nat) : State :=
  match newestCopy s.hvu.buddyStamp b p, (s.txnsOf (recClient b)).head? with
  | some x, some t =>
    let at' := (s.localSlot b x.1).getD (Bk.slot (s.bucket b))
    let s1 := match (s.txnsOf (slotClient b)).head? with
      | some q => s.localWrite (s.slotAddr at') q.bytes
      | none => s
    let s2 := s1.localWrite (s.bktBase + 128 * b) t.bytes
    (s2.putBucket b 0x50 8 (at' * 2 ^ 48 + x.1)).putBucket b 0x5C 4 0
  | _, _ => s

/-- `W` from the masters, sent to the other members; `G` zeroed (R484 step 4). -/
def State.rebuildBucket (s : State) (b : Nat) : State :=
  let s1 := s.rewriteW b
  let d := s1.bucket b
  let s2 := (others d).foldl (fun s k => (s.wSpans d (Bk.rank d)).foldl (fun s x =>
    s.request (.firmware (lastFirmware + b)) s.hvuCtx (s.member d k) x.1 x.2 (some (s.tiers.localBytes x.1 x.2))) s) s1
  (List.range (Bk.nmem d)).foldl (fun s k => s.zeroShard b k) s2

/-- The anchor's own routes: the lost ID leads to the spare's place (R416). The tables of the other devices are not
stated. -/
def State.redraw (s : State) (lost spare : Nat) : State :=
  let b := (s.reg pgRoute 0x100).toNat % 2
  let word := fun (k : Nat) => s.reg pgRoute (0x400 + 0x100 * b + 4 * k)
  let dest := 0x400 + 0x100 * (1 - b)
  let s1 := (List.range 64).foldl (fun t k => t.setReg pgRoute (dest + 4 * k)
    (if k = lost % 64 then word (spare % 64) else if k = spare % 64 then 0 else word k)) s
  let s2 := (List.range 32).foldl (fun t k => t.setReg pgRoute (0x600 + 0x80 * (1 - b) + 4 * k)
    (s.reg pgRoute (0x600 + 0x80 * b + 4 * k))) s1
  s2.setReg pgRoute 0x100 (BitVec.ofNat 32 (1 - b))

/-- A standby device of the run other than the lost one. -/
def State.standby (s : State) (r : Run) (lost : Nat) : Option Nat :=
  let xs := s.items r.addr (bitsOf 512 (s.tiers.localBytes r.addr 64))
  let ds := xs.flatMap fun x => if x.type = 0x0F then s.deviceItems x else []
  (ds.find? fun d => d.1 != lost && !s.partHasCores d.2.2).map (·.1)

/-- The stream positions derived from the restored counters stand; a mismatch with the stored ones is logged (R85). -/
def State.comparePlace (s : State) (ctx : Nat) (r : Snapshot) : State :=
  if s.drawPlace ctx = r.place then s else s.flmLog 0x15 3 s.ownId 0

/-- Steps 4 to 7 of R484. -/
def State.finishRestore (s : State) (q : Restore) (p : Nat) (r : Snapshot) : State :=
  let c := s.claims q.ctx
  let e := (s.ctxEpoch q.ctx + 1) % 256
  let s1 := if c.hvu then (List.range s.bktCount).foldl (fun s b => s.restoreBucket p b) s else s
  let s2 := if c.hvu then (List.range s.bktCount).foldl State.rebuildBucket s1 else s1
  let s3 := (((s2.unitsOff c).writeBack q.ctx r).comparePlace q.ctx r).dropClient restoreClient
  let s4 := match s3.run q.ctx with
    | some x => if s.dev.anchor && q.device != s.ownId then
        (match s3.standby x q.device with | some d => s3.redraw q.device d | none => s3) else s3
    | none => s3
  let s5 := (s4.adoptEpoch q.ctx e).unitsOn c r
  let again := p + 1 = q.last
  let s6 := s5.onFlm fun f => { f with
    restore := none, replay := if again then some (q.last, (s5.reg pgMde 0x1BC).toNat) else none,
    hold := bit (s5.reg pgFlm 0x100) 1 }
  (s6.flmLog 0x13 4 q.device p).flmPhase (if s6.flm.hold then 3 else if again then 4 else 0)

/-- Is everything at rest that step 1 of R484 waits for? -/
def State.restoreQuiet (s : State) (ctx : Nat) : Bool :=
  s.hvu.job.isNone && (s.claims ctx).cores.all fun l =>
    let q := (s.core (s.siteOf l)).seq
    (q.st = .idle || q.st = .halted) && !q.abandoning

/-- Choose the restore point (R484 step 2): what the other devices hold is not known here, so a free value stands for it. -/
def State.choosePoint (s : State) (q : Restore) : Nat × State :=
  let own := 0 < q.last && (s.recordOf (q.last - 1)).isSome &&
    (List.range s.bktCount).all fun b => (newestCopy s.hvu.buddyStamp b (q.last - 1)).isSome
  let x := s.draw
  (if own && bit x.1 0 then q.last - 1 else q.last, x.2)

/-- Go on with a restore. -/
def State.restoreOn (s : State) (q : Restore) : State :=
  let lost := fun (s : State) => (s.onFlm fun f => { f with restore := none }).endRunWith q.ctx stEndedFault 12 q.device 0 0
  match q.point with
  | none =>
    if !s.restoreQuiet q.ctx then s else
    let x := s.choosePoint q
    let t := (x.2.onFlm fun f => { f with restore := some { q with point := some x.1 } }).setReg pgFlm 0x114 (BitVec.ofNat 32 x.1)
    ((List.range t.bktCount).foldl (fun s b => s.askBucket x.1 b) t).flmPhase 2
  | some p =>
    let ts := s.txns.filter fun t => restoreClient t.client
    if ts.any fun t => !t.done then s
    else match s.recordOf p with
      | none => lost s
      | some r => if ts.any (fun t => t.status != 0) then lost s else s.finishRestore q p r

/-- The owner of a rank that is lost counts as having sent `BKT_CLOSED` (R485). -/
def State.closeFor (s : State) (lost : Nat) : State :=
  if !s.hvuOn then s else
  (List.range s.bktCount).foldl (fun s b =>
    let d := s.bucket b
    ((others d).filter fun k => s.member d k = lost && !(Rd.replied (s.red b)).testBit k).foldl (fun s k =>
      s.takeClosed { s.newBaton 7 s.schCtx s.ownId b (k * 2 ^ 16) with src := BitVec.ofNat 11 lost }) s) s

/-- Is this device a spare of a group run: does its part claim no cores (R484)? -/
def Run.spare (r : Run) : Bool := r.claims.cores = []

/-- The group run that a device loss concerns: the one that holds the SCH, or that this device is a spare of. -/
def State.lossRun (s : State) : Option (Nat × Run) :=
  s.activeRuns.find? fun x =>
    x.2.accepted && x.2.ending != 2 && (x.2.parts != [] || !s.dev.anchor) && (x.2.claims.sch || x.2.spare)

/-- A spare takes the role of a lost device (R88, R416 step 2): it writes the lost ID into `DEV_ID` and adopts the new epoch.
Among several spares, which one the anchor draws is free. The state it takes on lies on the buddy of the lost device (log 68). -/
def State.takeRole (s : State) (d ctx : Nat) : State :=
  let several := 1 < fld (s.reg pgFlm 0x104) 5 0
  let x := if several then s.draw else (1, s)
  if !bit x.1 0 then x.2 else
  let t := if x.2.dev.anchor && !x.2.isLost d then x.2.declareLoss d else x.2.setReg pgFlm 0x118 (BitVec.ofNat 32 (2 ^ 31 + d))
  let u := { t with dev := { t.dev with group := BitVec.ofNat 5 (d / 64), slot := BitVec.ofNat 6 (d % 64) } }
  ((u.adoptEpoch ctx ((u.ctxEpoch ctx + 1) % 256)).flmLog 0x13 4 d 0).flmPhase 0

/-- Begin the answer to the loss of a device (R484, R485). -/
def State.beginLoss (s : State) (d ctx : Nat) (r : Run) : State :=
  let rec' := s.reg pgFlm 0x104
  let t := if s.isLost d then s
    else if s.dev.anchor then s.declareLoss d
    else ((s.setReg pgFlm 0x118 (BitVec.ofNat 32 (2 ^ 31 + d))).flmPhase 1)
  if (fld rec' 5 0 = 0 || !r.claims.hvu) && d != s.ownId then (t.endRunWith ctx stEndedFault 12 d 0 0).flmPhase 0
  else if fld rec' 31 30 = 2 && d != s.ownId then
    let u := t.closeFor d
    let v := if Config.sameReplica d s.ownId then u.withdraw else u
    ((v.withdrawReplica ctx d).flmLog 0x13 3 d 0).flmPhase 0
  else
    let job := match t.hvu.job with | some j => if j.phase ≤ 2 then none else some j | none => none
    let u := (t.abandonAll ctx).onHvu fun h => { h with queue := [], reduceQ := [], job := job }
    let last := if r.claims.hvu then (s.reg (pgHvu 0) 0x130).toNat else (s.flm.records.map (·.lap)).foldl max 0
    u.onFlm fun f => { f with restore := some ⟨d, ctx, last, none⟩ }

/-- DEVICE_LOSS (R482, R484, R485): begins the answer to a loss, and goes on with it each time it comes again. -/
def execDeviceLoss (d : BitVec 11) (s : State) : Host.Outcome State Fault Refusal :=
  let k := d.toNat
  .next (if !s.regsUp || fld (s.reg pgFlm 0x104) 31 30 = 0 then s
    else match s.flm.restore, s.lossRun with
      | some q, _ => if q.device = k then s.restoreOn q else s
      | none, none => s
      | none, some x => if s.dev.anchor && !s.isLost k && (k = s.ownId || s.reaches k) then s
        else if x.2.spare then (if k = s.ownId then s else s.takeRole k x.1)
        else s.beginLoss k x.1 x.2)

/-- LAP_TIMEOUT (R482, R337): a child whose `LAP_DONE` is missing. -/
def execLapTimeout (child : BitVec 11) (s : State) : Host.Outcome State Fault Refusal :=
  .next (if s.schOn && s.lapDone && !s.childrenDone && !s.sch.children.contains child.toNat then s.declareLoss child.toNat else s)

/-- TELEMETRY_GATHER (R481): the layout of the block is not stated, so its bytes are free. -/
def execTelemetryGather (s : State) : Host.Outcome State Fault Refusal :=
  .next (if s.power.mod = 2 then
      let f := s.freeBytes 4096
      f.2.onFlm fun x => { x with telemetry := f.1 }
    else s)

/-- SIBLING_WATCHDOG (R433, R479, R480): a control core without a heartbeat. -/
def execSiblingWatchdog (k : Fin 8) (s : State) : Host.Outcome State Fault Refusal :=
  .next (if !s.regsUp || !s.ctl.released || s.ctl.failed.contains k.val then s else
    let t := match s.watchers k.val with | w :: _ => s.raise (pgCtl w) 1 | [] => s
    let u := t.flmEvent 6 k.val
    if u.ctl.failed.contains k.val then u else u.takeOver k.val)

end Sys2Proof.Machine
end

