-- ==== Sys2Proof/Machine/Packets.lean ====
section
/-!
DEFINITION. The receive side of a port: frames, packets that arrive, served requests and responses, and the host's
accesses through the bridge (15 R395-R404, R410-R412, R418-R420).
-/
namespace Sys2Proof.Machine

/-! Credits (R401). -/

/-- Owe credits for a packet that has left the receive buffer of a port. -/
def State.owe (s : State) (p i n : Nat) : State :=
  let x := s.port p
  if n = 0 || x.st != 3 then s else s.setPort p { x with owed := Store.set 0 x.owed i (Store.get 0 x.owed i + n) }

/-- Take credits that came back. -/
def State.gainCredit (s : State) (p i n : Nat) : State :=
  let x := s.port p
  if n = 0 then s else s.setPort p { x with credits := Store.set 0 x.credits i (Store.get 0 x.credits i + n) }

/-- Credits in the header of a packet (R397), or those that a `CREDIT` packet returns. -/
def State.takeCredits (s : State) (p : Nat) (k : Packet) : State :=
  (if k.type = 1 then
    (List.range 4).foldl (fun s v => s.gainCredit p (2 * v + k.dl.toNat) (fld k.addr (10 * v + 9) (10 * v))) s
  else s.gainCredit p (2 * k.crvc.toNat + k.crdl.toNat) k.crcnt.toNat).drainPort p

/-! The form of a packet (R398). -/

/-- Data slots of n units; a packet may carry fewer bytes than its units hold (log 40). -/
def carries (k : Packet) (lo hi : Nat) : Bool :=
  lo ≤ k.len.toNat && k.len.toNat ≤ hi && k.data != [] && lenUnits k.data.length = k.len

/-- Does a packet have a type of R398, with the channel and length that the type allows? -/
def packetAllowed (k : Packet) : Bool :=
  match k.type.toNat with
  | 1 => k.data = [] && k.crcnt = 0
  | 2 => k.vc = 0 && k.data = []
  | 3 => k.vc = 2 && carries k 1 6
  | 4 => k.vc = 2 && carries k 1 6
  | 5 => k.vc = 2 && carries k 1 6
  | 6 => k.vc = 2 && carries k 1 6
  | 7 => k.vc = 2 && carries k 1 6
  | 8 => k.vc = 2 && carries k 1 6
  | 9 => k.vc = 1 && k.data = []
  | 0xA => k.vc = 1 && k.data = []
  | 0xB => k.vc = 0 && k.len = 1 && k.data = []
  | 0xC => k.vc = 0 && carries k 1 1
  | 0xD => k.vc = 1 && carries k 1 1
  | 0x10 => k.vc = 3 && k.len = 1 && k.data.length = 64
  | _ => false

/-! Requests that the device serves (R399, R92, R93). -/

/-- Serve a read or write of a local span that a packet asks for. -/
def State.serveFar (s : State) (k : Packet) (a n : Nat) (write : Option (List Byte)) : State :=
  let refuse := s.respond write.isSome k.src.toNat k.ctx.toNat k.tag.toNat
  match spaceOf (outerSize s.dev.variant) a n with
  | .outer =>
    if !k.hbr && !s.mayOuter k.ctx.toNat a n write.isSome then refuse 9
    else s.access ⟨.link k.tag k.src k.ctx, write.isSome, .remote, a, n, write.getD []⟩ SectorFault.none
  | .host => if s.dev.anchor then (s.requestAt (.relay k.src k.tag k.ctx) k.ctx.toNat (.host (a - hostBase)) n write).settle else refuse 4
  | _ => refuse 4

/-- Is the epoch of a packet behind that of its context here (R325, R344)? -/
def State.staleEpoch (s : State) (k : Packet) : Bool :=
  !k.hbr && 128 ≤ (k.epoch.toNat + 256 - s.ctxEpoch k.ctx.toNat) % 256

/-- The last data of a write has come: serve it, or drop it where its epoch is stale. -/
def State.serveWrite (s : State) (k : Packet) (a : Nat) (bs : List Byte) : State :=
  if s.staleEpoch k then (s.countReg pgSch 0x150 1).respond true k.src.toNat k.ctx.toNat k.tag.toNat 0
  else s.serveFar k a bs.length (some bs)

def Inbound.of (k : Packet) (x : Inbound) : Bool := x.src = k.src && x.tag = k.tag

/-- Write data arrive; the last part ends the transfer. Compressed data form the block at their address. -/
def State.takeWriteData (s : State) (k : Packet) (last packed : Bool) : State :=
  let old := s.links.inbound.find? (Inbound.of k)
  let x : Inbound := match old with
    | some x => { x with data := x.data ++ k.data }
    | none => ⟨k.src, k.tag, k.addr.toNat, k.data⟩
  let rest := s.links.inbound.filter fun y => !Inbound.of k y
  if !last then { s with links := { s.links with inbound := rest ++ [x] } }
  else
    let t := { s with links := { s.links with inbound := rest } }
    if !packed then t.serveWrite k x.addr x.data
    else match decodeStored x.data (leNat ((x.data.drop 1).take 1)) with
      | some bs => t.serveWrite k (x.addr / 4096 * 4096) bs
      | none => t.respond true k.src.toNat k.ctx.toNat k.tag.toNat 5

/-- Serve a register access of a control core or of an anchor's bridge. A write is answered before what it may do to the ports
(log 81). -/
def State.serveReg (s : State) (k : Packet) (write : Bool) : State :=
  let a := k.addr.toNat - regBase
  let r : Requester := if k.hbr then .host else .remote
  if k.addr.toNat < regBase || 0x4000000 ≤ a then s.respond write k.src.toNat k.ctx.toNat k.tag.toNat 4
  else if a % 4 != 0 then (s.badAccess r false).respond write k.src.toNat k.ctx.toNat k.tag.toNat 4
  else if write then
    (s.respond true k.src.toNat k.ctx.toNat k.tag.toNat 0).writeReg r (a / 65536) (a % 65536)
      (BitVec.ofNat 32 (leNat (k.data.take 4)))
  else
    let x := s.readReg r (a / 65536) (a % 65536)
    x.2.sendOwn (x.2.newPacket 0xD 1 k.src.toNat k.ctx.toNat k.tag.toNat k.addr.toNat (natLe 4 x.1.toNat ++ List.replicate 60 0))

/-! Responses to what the device asked for. -/

/-- A transfer of a group run has ended (R431): a written entry is asked for its status, a status is read again until it is
final. -/
def State.partEnded (s : State) (t : Txn) (n : Nat) : State :=
  let ctx := n / 4096
  let dev := n / 2 % 2048
  let u := s.dropTxn t.tag
  let part := match u.run ctx with | some r => r.parts.find? fun (q : RunPart) => q.device = dev | none => none
  match part with
  | none => u
  | some q =>
    if t.status != 0 then u
    else if n % 2 = 0 then u.pollPart ctx dev q.seq
    else
      let w := leNat t.bytes
      let st := w / 2 ^ 56 % 256
      if st = 0 then u.pollPart ctx dev q.seq
      else
        let v := u.partAnswer ctx dev w
        let live := match v.run ctx with | some r => r.accepted && r.ending = 0 | none => false
        if st = stAccepted then v.pollPart ctx dev q.seq
        else if live && 0x20 ≤ st then v.endRunWith ctx stEndedFault (w / 2 ^ 48 % 256) (w / 2 ^ 32 % 2048) 0 0
        else v

/-- What follows the end of a transaction. -/
def State.ended (s : State) (tag : Nat) : State :=
  match s.txn tag with
  | none => s
  | some t =>
    if !t.done then s else
    let u := (s.settle).hvuAck t
    match t.client with
    | .firmware n => if n < 32768 then u.partEnded t n else u
    | _ => u

/-- The transaction that a response belongs to. -/
def State.asked (s : State) (k : Packet) : Option Txn :=
  (s.txn k.tag.toNat).filter fun t => !t.done && t.dst = k.src.toNat

/-- Has every byte of a read come? -/
def Txn.complete (t : Txn) : Bool :=
  let rs : List Range := t.parts.map fun p => ⟨p.1, p.2.length⟩
  (linkPieces t.addr t.len).all fun p => covered rs (rs.length + 1) (max p.1 t.addr) (min (p.1 + p.2) (t.addr + t.len) - max p.1 t.addr)

/-- Bytes of a read arrive. -/
def State.takeBytes (s : State) (tag a : Nat) (bs : List Byte) : State :=
  let t := s.onTxn tag fun t => let u := { t with parts := t.parts ++ [(a, bs)] }; { u with done := u.complete }
  t.ended tag

/-- A piece of a compressed block arrives; the whole stream is decoded. -/
def State.takePacked (s : State) (t : Txn) (a : Nat) (bs : List Byte) : State :=
  let b := a / 4096
  let had := match t.crd.find? (·.1 = b) with | some x => x.2 | none => []
  let all := had ++ bs
  let n := leNat ((all.drop 1).take 1)
  let u := s.onTxn t.tag fun t => { t with crd := t.crd.filter (·.1 != b) ++ (if all.length < 256 * n then [(b, all)] else []) }
  if all.length < 256 * n then u
  else match decodeStored all n with
    | some blk => u.takeBytes t.tag (4096 * b) blk
    | none => (u.onTxn t.tag fun t => { t with done := true, status := 5 }).ended t.tag

/-- A `WR_ACK`: the first status that is not 0 stands. -/
def State.takeAckPacket (s : State) (t : Txn) (status : Nat) : State :=
  (s.onTxn t.tag fun t => { t with
    wait := t.wait - 1, done := t.wait ≤ 1, status := if t.status = 0 then status else t.status }).ended t.tag

/-- A response, by its type. -/
def State.takeResponse (s : State) (k : Packet) : State :=
  match s.asked k with
  | none => s
  | some t =>
    match k.type.toNat with
    | 3 => if t.write then s else s.takeBytes t.tag k.addr.toNat k.data
    | 4 => if t.write then s else s.takePacked t k.addr.toNat k.data
    | 9 => if t.write then s.takeAckPacket t (fld k.addr 7 0) else s
    | 0xA => if t.write then s else (s.onTxn t.tag fun t => { t with done := true, status := fld k.addr 7 0 }).ended t.tag
    | _ => if t.write then s
      else (s.onTxn t.tag fun t => { t with parts := [(t.addr, k.data.take 4)], done := true }).ended t.tag

/-! Arrival. -/

/-- A packet for this device is consumed. -/
def State.consumePacket (s : State) (k : Packet) : State :=
  match k.type.toNat with
  | 2 => s.serveFar k k.addr.toNat (if k.len = 0 then 4096 else 64 * k.len.toNat) none
  | 5 => s.takeWriteData k false false
  | 6 => s.takeWriteData k true false
  | 7 => s.takeWriteData k false true
  | 8 => s.takeWriteData k true true
  | 0xB => s.serveReg k false
  | 0xC => s.serveReg k true
  | _ => s.takeResponse k

/-- Do responses toward a device wait for `VC1` or `VC2` credit (R402)? -/
def State.responseHeld (s : State) (dst : Nat) : Bool :=
  (s.routePorts dst).any fun q => (s.port q).queue.any fun k => k.vc = 1 || k.vc = 2

/-- Serve the requests whose responses can be sent again, in their order within each port (R402); `fuel` bounds them. -/
def State.serveStalled (s : State) : Nat → State
  | 0 => s
  | f + 1 =>
    let first := fun (x : Nat × Packet) => (s.links.stalled.find? fun y => y.1 = x.1) = some x
    match s.links.stalled.find? fun x => first x && !s.responseHeld x.2.src.toNat with
    | none => s
    | some x =>
      let t := { s with links := { s.links with stalled := s.links.stalled.erase x } }
      ((t.consumePacket x.2).owe x.1 (packetLane x.2) (packetCost x.2)).serveStalled f

/-- Serve every request that waits and can be answered. -/
def State.serveReady (s : State) : State := s.serveStalled s.links.stalled.length

/-- A packet other than `CREDIT` wakes the module, and any packet the island of its port (R461, R463). -/
def State.stir (s : State) (p : Nat) (k : Packet) : State := (if k.type = 1 then s else s.awaken).thawPage (pgFl p)

/-- Forward a packet (R411, R412). -/
def State.forward (s : State) (p : Nat) (k : Packet) : State :=
  if 15 ≤ k.hops.toNat then
    let t := (s.countReg pgRoute 0x104 1).errCount pgRoute 1
    (if bit (s.reg pgRoute 0x10) 1 then t else t.raise pgRoute 0).errSet pgRoute 1
  else
    let dim := fun (q : Nat) => fld (s.reg (pgFl q) 0x104) 29 28
    let k1 := { k with hops := k.hops + 1, dl := k.dl && !bit (s.reg (pgFl p) 0x104) 27, crcnt := 0, crvc := 0, crdl := false }
    match s.routePort k1 with
    | some q => s.toPort q { k1 with dl := k1.dl && dim p = dim q }
    | none =>
      let t := s.countReg pgRoute 0x108 1
      if k.type = 2 || k.type = 0xB then t.respond false k.src.toNat k.ctx.toNat k.tag.toNat 12
      else if k.type = 6 || k.type = 8 || k.type = 0xC then t.respond true k.src.toNat k.ctx.toNat k.tag.toNat 12
      else t

/-- Credits of a `BATON`: a header and four data slots (R401). -/
def batonCost : Nat := 2

/-- May the receive queue of the SCH take a baton now (R326)? -/
def State.batonOpen (s : State) (b : Baton) : Bool := s.enabled pgSch && s.batonRoom b

/-- Batons that waited in the ports' buffers and find a place, in their order within each port; `fuel` bounds them. -/
def State.admitWaiting (s : State) : Nat → State
  | 0 => s
  | f + 1 =>
    let first := fun (x : Nat × Baton) => (s.sch.waiting.find? fun y => y.1 / 2 = x.1 / 2) = some x
    match s.sch.waiting.find? fun x => first x && s.batonOpen x.2 with
    | none => s
    | some x =>
      let t := s.onSch fun c => { c with waiting := c.waiting.erase x }
      ((t.acceptBaton x.2).owe (x.1 / 2) (6 + x.1 % 2) batonCost).admitWaiting f

/-- A packet arrives at an ACTIVE port: credits, form, delivery or forwarding (R398, R401, R410). A flit whose header fails
its check is received in error (R397). -/
def State.packetArrive (s : State) (p : Nat) (k : Packet) : State :=
  if !s.portActive p || k.type = 0 then s
  else if !k.hcrcOk then
    let t := (s.countReg (pgFl p) 0x11C 1).errSet (pgFl p) 3
    t.setPort p { t.port p with nacking := true }
  else
    let t := (s.stir p k).takeCredits p k
    let i := packetLane k
    let n := packetCost k
    if !packetAllowed k then ((t.countReg (pgFl p) 0x11C 1).errSet (pgFl p) 3).owe p i n
    else if k.type = 1 then t.serveReady
    else if k.dst.toNat != t.ownId then (t.forward p k).owe p i n
    else if k.type = 0x10 then
      let b := batonOf k.data
      if t.sch.waiting.any (·.1 / 2 = p) || !t.batonOpen b then
        t.onSch fun c => { c with waiting := c.waiting ++ [(2 * p + k.dl.toNat, b)] }
      else (t.acceptBaton b).owe p i n
    else if k.vc = 0 && (t.links.stalled.any (·.1 = p) || t.responseHeld k.src.toNat) then
      { t with links := { t.links with stalled := t.links.stalled ++ [(p, k)] } }
    else ((t.consumePacket k).owe p i n).serveReady

/-- The row of one packet type. -/
def State.packetRow (s : State) (type p : Nat) (k : Packet) : State := if k.type.toNat = type then s.packetArrive p k else s

/-! Frames (R395, R403, R408). -/

/-- Count what the FEC corrected; a lane above its limit within 1 ms is failed (R408, R421). -/
def State.countFec (s : State) (p : Nat) (f : Frame) : State :=
  let x := s.port p
  let fresh := x.winStart + 1000000 ≤ s.dev.time
  let win := if fresh then [] else x.window
  let lanes := (f.corrected.zipIdx.filter fun c => c.2 < 4)
  let s1 := s.setPort p { x with
    winStart := if fresh then s.dev.time else x.winStart
    window := lanes.foldl (fun m c => Store.set 0 m c.2 (Store.get 0 m c.2 + c.1)) win }
  let s2 := lanes.foldl (fun s c => if c.1 = 0 then s else (s.countReg (pgFl p) 0x10C c.1).countReg (pgFl p) (0x120 + 4 * c.2) c.1) s1
  let s3 := if f.uncorr = 0 then s2 else s2.countReg (pgFl p) 0x110 f.uncorr
  let worn := (List.range 4).filter fun l => (s.reg (pgFl p) 0x108).toNat < Store.get 0 (s3.port p).window l
  worn.foldl (fun s l => s.dropLane p l true) s3

/-- Take the flits of a `DATA` frame in order (R403). -/
def State.takeFlits (s : State) (p : Nat) (seq : Nat) : List Flit → State
  | [] => s
  | f :: fs =>
    let x := s.port p
    if f.ok && f.pkts.all (·.hcrcOk) && seq % 4096 = x.rxNext then
      let t := (s.setPort p { x with rxNext := (x.rxNext + 1) % 4096, nacking := false }).wrapReg (pgFl p) 0x134 1
      (f.pkts.foldl (fun s k => s.packetArrive p k) t).takeFlits p (seq + 1) fs
    else
      let bad := (f.pkts.filter fun k => f.ok && !k.hcrcOk).length
      let t := if bad = 0 then s else (s.countReg (pgFl p) 0x11C bad).errSet (pgFl p) 3
      t.setPort p { t.port p with nacking := true }

/-- A frame reaches an ACTIVE port. -/
def State.takeFrame (s : State) (p : Nat) (f : Frame) : State :=
  let s1 := s.countFec p f
  let x := s1.port p
  if x.st != 3 then s1
  else if f.uncorr = 0 && ((x.rxLcnt != 16 && f.lcnt0.toNat != x.rxLcnt) || f.lcnt1.toNat != (f.lcnt0.toNat + 1) % 16) then
    s1.retrain p false
  else
    let s2 := s1.setPort p { x with rxLcnt := if f.uncorr = 0 then (f.lcnt0.toNat + 2) % 16
      else if x.rxLcnt = 16 then 16 else (x.rxLcnt + 2) % 16 }
    let s3 := if f.uncorr != 0 then s2
      else
        let t := s2.takeAckOf p f.ack.toNat
        if f.nack then t.takeNack p else t
    if f.ftype = .data then s3.takeFlits p f.fseq.toNat f.flits else s3

/-! Commands. -/

/-- FRAME_RECEIVE (R395, R403). -/
def execFrameReceive (p : Fin 16) (f : Frame) (s : State) : Host.Outcome State Fault Refusal :=
  .next (if s.regsUp && s.portActive p.val then
    let t := s.takeFrame p.val f
    let u := t.serveReady
    u.admitWaiting u.sch.waiting.length
    else s)

/-- CREDIT (R401). -/
def execCredit (p : Fin 16) (k : Packet) (s : State) : Host.Outcome State Fault Refusal := .next (s.packetRow 1 p.val k)

/-- RD_REQ (R399). -/
def execRdReq (p : Fin 16) (k : Packet) (s : State) : Host.Outcome State Fault Refusal := .next (s.packetRow 2 p.val k)

/-- RD_DATA (R398). -/
def execRdData (p : Fin 16) (k : Packet) (s : State) : Host.Outcome State Fault Refusal := .next (s.packetRow 3 p.val k)

/-- CRD_DATA (R398, R263). -/
def execCrdData (p : Fin 16) (k : Packet) (s : State) : Host.Outcome State Fault Refusal := .next (s.packetRow 4 p.val k)

/-- WR_DATA (R398). -/
def execWrData (p : Fin 16) (k : Packet) (s : State) : Host.Outcome State Fault Refusal := .next (s.packetRow 5 p.val k)

/-- WR_LAST (R399). -/
def execWrLast (p : Fin 16) (k : Packet) (s : State) : Host.Outcome State Fault Refusal := .next (s.packetRow 6 p.val k)

/-- CWR_DATA (R398, R264). -/
def execCwrData (p : Fin 16) (k : Packet) (s : State) : Host.Outcome State Fault Refusal := .next (s.packetRow 7 p.val k)

/-- CWR_LAST (R399, R264). -/
def execCwrLast (p : Fin 16) (k : Packet) (s : State) : Host.Outcome State Fault Refusal := .next (s.packetRow 8 p.val k)

/-- WR_ACK (R398). -/
def execWrAck (p : Fin 16) (k : Packet) (s : State) : Host.Outcome State Fault Refusal := .next (s.packetRow 9 p.val k)

/-- RD_ERR (R398). -/
def execRdErr (p : Fin 16) (k : Packet) (s : State) : Host.Outcome State Fault Refusal := .next (s.packetRow 0xA p.val k)

/-- REG_RD (R398). -/
def execRegRd (p : Fin 16) (k : Packet) (s : State) : Host.Outcome State Fault Refusal := .next (s.packetRow 0xB p.val k)

/-- REG_WR (R398). -/
def execRegWr (p : Fin 16) (k : Packet) (s : State) : Host.Outcome State Fault Refusal := .next (s.packetRow 0xC p.val k)

/-- REG_DATA (R398). -/
def execRegData (p : Fin 16) (k : Packet) (s : State) : Host.Outcome State Fault Refusal := .next (s.packetRow 0xD p.val k)

/-- LINK_REQ_TIMEOUT (R404): a read or write without its response after 10 ms. -/
def execLinkReqTimeout (tag : Nat) (s : State) : Host.Outcome State Fault Refusal :=
  .next (match s.txn tag with
    | some t =>
      if !t.done && t.dst != 2048 && t.since + 10000000 ≤ s.dev.time then
        (s.onTxn tag fun t => { t with done := true, status := 12 }).ended tag
      else s
    | none => s)

/-! The host's accesses through the bridge (R418, R420). -/

/-- Is the bridge up: on an anchor with its register space accessible, out of reset (R515, R522)? -/
def State.bridgeUp (s : State) : Bool := s.dev.anchor && s.regsUp && !s.power.perst

/-- Send a register access to another device; the answer goes to the client. -/
def State.regRequest (s : State) (cl : Client) (dst a : Nat) (v : Option Word) : State :=
  let tag := s.nextTag
  let k := match v with
    | none => { s.newPacket 0xB 0 dst 0 tag (regBase + a) [] with len := 1 }
    | some w => s.newPacket 0xC 0 dst 0 tag (regBase + a) (natLe 4 w.toNat ++ List.replicate 60 0)
  let t : Txn := Txn.mk tag cl dst (regBase + a) 4 v.isSome [] [] v.isSome.toNat false 0 s.dev.time
  { s with txns := s.txns ++ [t], nextTag := (tag + 1) % 4096 }.sendAll (s.stampFor cl [k])

/-- A host access that completes with Unsupported Request; a write is dropped and logged (R418). -/
def State.hostRefuse (s : State) (write : Bool) : State := s.hostEnd write [] 4

/-- HOST_BAR0_WINDOW (R418): the register space of the selected slot of the own group. -/
def execHostBar0Window (off : BitVec 26) (width : Nat) (data : Option Word) (s : State) : Host.Outcome State Fault Refusal :=
  let sel := s.reg pgHbr 0x100
  let dst := s.dev.group.toNat * 64 + fld sel 5 0
  .next (if !s.bridgeUp then s
    else if !bit sel 31 then s.awaken.hostRefuse data.isSome
    else if width != 4 || off.toNat % 4 != 0 then s.awaken.badAccess .host data.isNone
    else if dst = s.ownId then
      match data with
      | some v => s.writeReg .host (off.toNat / 65536) (off.toNat % 65536) v
      | none => s.answerRead .host (off.toNat / 65536) (off.toNat % 65536)
    else if !s.reaches dst then s.awaken.hostRefuse data.isSome
    else s.awaken.regRequest .host dst off.toNat data)

/-- Where a BAR2 access goes: the sub-window's base and the offset within it; none where the window is off, a write not
allowed, or the span crosses the window. -/
def State.barTarget (s : State) (off n : Nat) (write : Bool) : Option Nat :=
  let i := off / 2 ^ 33
  let lo := s.reg pgHbr (0x120 + 8 * i)
  if n = 0 || !bit lo 0 || (write && !bit lo 1) || 2 ^ 33 < off % 2 ^ 33 + n then none
  else some (fld (s.reg pgHbr (0x124 + 8 * i)) 23 0 * 2 ^ 32 + lo.toNat / 2 ^ 21 * 2 ^ 21 + off % 2 ^ 33)

/-- A host access through BAR2. -/
def State.barAccess (s : State) (off n : Nat) (write : Option (List Byte)) : State :=
  if !s.bridgeUp then s else
  let s := s.awaken
  match s.barTarget off n write.isSome with
  | none => s.hostRefuse write.isSome
  | some g =>
    match s.target g n with
    | .outer a => s.access ⟨.host, write.isSome, .remote, a, n, write.getD []⟩ SectorFault.none
    | .far d a =>
      if nearBase < a + n || !s.reaches d then s.hostRefuse write.isSome
      else (s.request .host 0 d a n write).settle
    | _ => s.hostRefuse write.isSome

/-- HOST_BAR2_READ (R418, R420). -/
def execHostBar2Read (off : BitVec 36) (len : Nat) (s : State) : Host.Outcome State Fault Refusal :=
  .next (s.barAccess off.toNat len none)

/-- HOST_BAR2_WRITE (R418, R420). -/
def execHostBar2Write (off : BitVec 36) (data : List Byte) (s : State) : Host.Outcome State Fault Refusal :=
  .next (s.barAccess off.toNat data.length (some data))

end Sys2Proof.Machine
end

