-- ==== Sys2Proof/Machine/Startup.lean ====
section
/-!
DEFINITION. Boot, measurements, and the start-up of a device and its group (18 R477, 19 R494-R500, R507, 20 R518,
R522-R526).
-/
namespace Sys2Proof.Machine

/-! The module flash (R494). -/

def State.flash (s : State) (a n : Nat) : List Byte :=
  (List.range n).map fun i => (Store.get none s.trb.flash (a + i)).getD (Config.flashByte (a + i))

def State.flashNum (s : State) (a n : Nat) : Nat := leNat (s.flash a n)

/-- Write bytes to the flash. -/
def State.flashWrite (s : State) (a : Nat) (bs : List Byte) : State :=
  { s with trb := { s.trb with flash := bs.zipIdx.foldl (fun m x => Store.set none m (a + x.2) (some x.1)) s.trb.flash } }

def slotBase (comp : Nat) (b : Bool) : Nat :=
  if comp = 1 then (if b then 0x1500000 else 0x500000) else (if b then 0x300000 else 0x100000)

def slotSize (comp : Nat) : Nat := if comp = 1 then 0x1000000 else 0x200000

def stagingBase : Nat := 0x2900000
def stagingSize : Nat := 0x1000000
def calBase : Nat := 0x10000
def calSize : Nat := 0x40000

/-- The bytes of a text. -/
def ascii (x : String) : List Byte := x.toList.map fun c => BitVec.ofNat 8 c.toNat

/-- Is a byte list all zeros? -/
def allZero (bs : List Byte) : Bool := bs.all (· == 0)

/-- Copy k of the slot-selection word: the word, and whether its CRC covers it (R494; the place is log 47). -/
def State.bootWord (s : State) (k : Nat) : Nat × Bool :=
  let w := s.flash (0x8000 * k) 4
  (leNat w, s.flashNum (0x8000 * k + 4) 2 = crc16 w)

/-- The slot that the boot header names for a component: B? Bit 0 of the word is the control firmware's, bit 1 the MGC's
(log 47). -/
def State.headerSlot (s : State) (comp : Nat) : Bool :=
  let n := comp - 1
  if (s.bootWord 0).2 then (s.bootWord 0).1.testBit n
  else if (s.bootWord 1).2 then (s.bootWord 1).1.testBit n else false

/-- Write both copies of the boot header, so that slot b of a component is selected. -/
def State.selectSlot (s : State) (comp : Nat) (b : Bool) : State :=
  let bits := fun (c : Nat) => if c = comp then b else s.headerSlot c
  let w := natLe 4 ((bits 1).toNat + 2 * (bits 2).toNat)
  let c := w ++ natLe 2 (crc16 w)
  (s.flashWrite 0 c).flashWrite 0x8000 c

/-! Signatures (R495, R496). -/

/-- Verify with Ed448: the first byte given tells the pure form (0) from the prehash form (1). -/
def verifyPure (key msg sig : List Byte) : Bool := Config.ed448Verify key (0 :: msg) sig
def verifyHash (key msg sig : List Byte) : Bool := Config.ed448Verify key (1 :: Config.shake256 msg 64) sig

/-- Is a key that of an unrevoked slot? -/
def State.keyOk (s : State) (slot : Nat) (key : List Byte) : Bool :=
  slot < 4 && !s.trb.revoked.contains slot && Config.shake256 key 32 = Config.keyDigest slot

/-- Image length of the header at a flash address. -/
def State.imageLen (s : State) (a : Nat) : Nat := s.flashNum (a + 0x10) 4

/-- Is the image at a flash address valid for a component (R496)? -/
def State.imageValid (s : State) (comp a : Nat) : Bool :=
  let h := s.flash a 512
  let at' := fun (i n : Nat) => (h.drop i).take n
  let svn := leNat (at' 8 4)
  let len := s.imageLen a
  let key := at' 0x40 57
  at' 0 4 = ascii "JLIM" && leNat (at' 4 2) = 1 && leNat (at' 6 2) = comp && 1 ≤ svn && svn ≤ 64 && allZero (at' 0xE 2) &&
    len ≤ slotSize comp - 512 && allZero (at' 0x14 12) && allZero (at' 0x79 7) && allZero (at' 0xF2 270) &&
    s.keyOk (leNat (at' 0xC 1)) key && s.trb.fuseF ≤ svn && verifyHash key (at' 0 128 ++ s.flash (a + 512) len) (at' 0x80 114)

/-- Digest of the image at a flash address. -/
def State.imageDigest (s : State) (a : Nat) : List Byte := Config.shake256 (s.flash (a + 512) (s.imageLen a)) 64

/-- The slot of a component that boots, and whether by fallback; none where neither is valid (R497 steps 1 and 2). -/
def State.bootSlot (s : State) (comp : Nat) : Option (Bool × Bool) :=
  let b := s.headerSlot comp
  if s.imageValid comp (slotBase comp b) then some (b, false)
  else if s.imageValid comp (slotBase comp (!b)) then some (!b, true)
  else none

/-- Bytes that the fuse map's digest covers: key hashes, revocations and F (R499). -/
def State.fuseBytes (s : State) : List Byte :=
  (List.range 4).flatMap Config.keyDigest ++ natLe 1 (s.trb.revoked.foldl (fun n k => n + 2 ^ (k % 4)) 0) ++ natLe 1 s.trb.fuseF

/-- Is the calibration store valid (R507)? -/
def calValid (bs : List Byte) : Bool :=
  let at' := fun (i n : Nat) => (bs.drop i).take n
  let len := leNat (at' 0x18 4)
  at' 0 4 = ascii "JLCS" && leNat (at' 4 4) = 1 && at' 8 16 = Config.serial && 64 + len ≤ bs.length &&
    leNat (at' 0x20 8) = (crc64 (at' 64 len)).toNat

/-- A change of `STAGE` and `CAUSE` (R524, R526). -/
def State.stage (s : State) (st cause : Nat) : State :=
  s.bootWrite (setFld (setFld (s.reg 0 0x180) 31 28 st) 27 24 cause)

/-! Earlier retirements (R477). -/

/-- Usable sites of a half, in rising order. -/
def State.goodSites (s : State) (half : Nat) : List Nat :=
  ((List.range 68).map (68 * half + ·)).filter fun n => Store.get 0 s.sites n = 0

/-- Map the logical cores of a half onto its usable sites, in rising order (R115). -/
def State.fuseMap (s : State) (h : Nat) : State :=
  ((s.goodSites h).take 64).zipIdx.foldl (fun s x =>
    let l := 64 * h + x.2
    { s with dev := { s.dev with coreMap := Store.set (if l < 64 then l else l + 4) s.dev.coreMap l x.1 } }) s

/-- `ENABLE` of the sites that the map puts in or out of use. -/
def State.siteEnables (s : State) : State :=
  (List.range 136).foldl (fun s n =>
    let p := pgCore n
    if s.mapped n == enableReset p then s
    else ((s.setRegBit p 8 0 (s.mapped n)).setRegBit p 0xC 0 (s.mapped n)).setIsland p (if s.mapped n then 0 else 2)) s

/-- A lost package stays lost, and its flag holds. -/
def State.lostAgain (s : State) (x : Nat × Nat) : State :=
  let t : State := { s with tiers := { s.tiers with lost := Store.set 15 s.tiers.lost x.1 x.2 } }
  t.service x.1

/-- The flag of a half that has no spare left. -/
def State.spareFlag (s : State) (half : Nat) : State := if s.spares half = 0 then s.service (6 + half) else s

/-- Apply every earlier retirement; flags of `FLM_SERVICE` that still hold. -/
def State.applyRetired (s : State) : State :=
  let m : Store Nat := s.flm.retired.foldl (fun (m : Store Nat) (n : Nat) => Store.set 0 m n 2) s.sites
  let s1 : State := { s with sites := m }
  let s2 : State := ((s1.fuseMap 0).fuseMap 1).siteEnables
  let s3 : State := s2.flm.pkgsLost.foldl State.lostAgain s2
  let s4 : State := if s3.flm.portsOff.isEmpty then s3 else s3.service 9
  let s5 : State := (s4.spareFlag 0).spareFlag 1
  if bit s5.power.trip 31 then s5.service 10 else s5

/-- A package fails training: the group loses it, or the device where the group has lost one already (R522). -/
def State.trainFail (s : State) (x : Fin 4 × Fin 9) : State :=
  if !s.present (pgTre x.1.val) then s
  else
    let l := Store.get 15 s.tiers.lost x.1.val
    if l = 15 then s.losePackage x.1.val x.2.val else if l = x.2.val then s else s.stage 7 6

/-! Boot (R497, R522 step 4). -/

/-- The calibration store is read and measured (R507, R455). -/
def State.readCal (s : State) : State :=
  let bs := s.flash calBase calSize
  let t := s.extendMeas 3 (Config.shake256 bs 64)
  if calValid bs then { t with trb := { t.trb with calOk := true } }
  else
    let u := ({ t with trb := { t.trb with calOk := false }, power := { t.power with calDefault := true } }.errSet pgTrb 2).service 5
    (u.setReg 5 0x100 1500).setReg 6 0x100 1500

/-- The measurements that the ROM makes before it chooses a slot: itself with the fuse map, and the MGC image. -/
def State.romMeasure (s : State) : State :=
  let rom := (List.range 4).map fun i => Config.makerByte 0 0 i
  let s1 := s.extendMeas 0 (rom ++ Config.shake256 s.fuseBytes 64)
  match s1.mgc.running with
  | some b => s1.extendMeas 2 (s1.imageDigest (slotBase 2 b))
  | none => s1

/-- Boot the chosen slot: a fallback is logged, the image is measured, and its header's fields become those in force. -/
def State.bootFrom (s : State) (b fell : Bool) : State :=
  let a := slotBase 1 b
  let t := (if fell then (s.errSet pgTrb 0).raise pgTrb 0 else s).extendMeas 1 (s.imageDigest a)
  { t with trb := { t.trb with
      booted := true, slotB := b, fallback := fell, svn := s.flashNum (a + 8) 4, kslot := s.flashNum (a + 0xC) 1
      revoke := s.flashNum (a + 0xD) 1 } }

/-- The ROM runs: fuses are measured, the control image is chosen, checked and measured. -/
def State.romBoot (s : State) : State :=
  let t := s.romMeasure
  match t.bootSlot 1 with
  | none => { t with trb := { t.trb with noImage := true } }.platformEvent 0x200 15
  | some x => t.bootFrom x.1 x.2

/-- Budgets of the island groups at the cap in force (R456). -/
def State.firstBudgets (s : State) : State :=
  ((List.range 34).foldl (fun s j => s.setBudget j (Config.fullBudget s.effCap j)) s).rebalanceAll

/-- The MGC ROM takes its slot on standby power (R497, R522 step 2). -/
def State.mgcBoot (s : State) : State := { s with mgc := { s.mgc with running := (s.bootSlot 2).map (·.1) } }

/-- V72_RISE: the standby rails rise; with `MOD_RESET_N` high the module is in STANDBY (R463, R522 step 1). -/
def execV72Rise (mv : Nat) (s : State) : Host.Outcome State Fault Refusal :=
  .next (if s.power.mod = 0 && !s.power.standby && 58000 < mv then
    let t : State := { s with power := { s.power with vin := mv, standby := true, mod := if s.power.resetLow then 0 else 1 } }
    if s.power.resetLow then t else t.mgcBoot
    else s)

/-- MOD_RESET_RELEASE: the straps are latched and the module enters STANDBY (R518, R522 step 2). -/
def execModResetRelease (group : BitVec 5) (slot : BitVec 6) (anchor : Bool) (s : State) :
    Host.Outcome State Fault Refusal :=
  .next (if s.power.resetLow && s.power.standby then (s.leaveReset group slot anchor).mgcBoot else s)

/-- The module becomes ACTIVE: the ROM boots, the calibration store is read, retirements and failed packages are applied, and
the budgets are drawn (R497, R477, R507, R522 step 4). -/
def State.riseActive (s : State) (failed : List (Fin 4 × Fin 9)) : State :=
  let t := s.romBoot.readCal
  (failed.foldl State.trainFail { t.applyRetired with power := { t.power with mod := 2 } }).firstBudgets

/-- Out of service for want of usable sites, or for want of an image (R523, R524). -/
def State.checkStart (s : State) : State :=
  let t := if (s.goodSites 0).length < 64 || (s.goodSites 1).length < 64 then s.stage 7 2 else s
  if t.trb.noImage then t.stage 7 1 else t

/-- TRB_BOOT (R497, R477, R522 step 4): `failed` names the packages that fail training. -/
def execTrbBoot (failed : List (Fin 4 × Fin 9)) (s : State) : Host.Outcome State Fault Refusal :=
  .next (if s.power.mod != 1 || !s.power.good || s.power.resetLow || s.power.stopping || s.trb.booted || s.trb.noImage then s
    else (s.riseActive failed).checkStart.moduleEvent)

/-- CONTROL_RELEASE (R497 step 5, R522 step 5): firmware checks the straps and enables the ports that the cabling may use. -/
def execControlRelease (ports : BitVec 16) (s : State) : Host.Outcome State Fault Refusal :=
  .next (if s.power.mod != 2 || !s.trb.booted || s.ctl.released || s.outOfService then s
    else
      let t := { s with ctl := { s.ctl with released := true }, trb := { s.trb with bootCount := satAdd32 s.trb.bootCount 1 } }
      if s.dev.anchor && s.dev.strapSlot != 0 then { t.stage 7 3 with ctl := s.ctl }
      else
        (List.range 16).foldl (fun s p =>
          if ports.getLsbD p && !s.hostPort p && !s.flm.portsOff.contains p then
            s.flCfgWrite p (s.reg (pgFl p) 0x104 ||| 0x80000000) else s) (t.stage 4 0))

/-! Discovery (R518, R522 steps 6 and 7). -/

/-- Have the enabled ports ended their training? -/
def State.portsSettled (s : State) : Bool := (List.range 16).all fun p => (s.port p).st != 2

/-- Why a device is left out: a cause of R524, none where it is admitted. -/
def State.leftOut (s : State) (all : List DeviceReport) (d : DeviceReport) : Option Nat :=
  if d.id.toNat = s.ownId || 1 < (all.filter fun e => e.id = d.id).length then some 4
  else if d.id.toNat / 64 != s.dev.group.toNat then some 5
  else none

/-- Write new tables into the inactive bank and flip: a route to each admitted device, none to the others. The ports of a
route depend on the cabling of the whole group, so they are free values (R415, log 48). -/
def State.drawRoutes (s : State) (keep : Bool) (ids : List Nat) : State :=
  let b := (s.reg pgRoute 0x100).toNat % 2
  let t := (List.range 64).foldl (fun s k =>
    if ids.contains (64 * s.dev.group.toNat + k) then
      let x := s.draw
      x.2.setReg pgRoute (0x400 + 0x100 * (1 - b) + 4 * k) (x.1.truncate 32 &&& 0x70FFFF00 ||| 0x80000000)
    else s.setReg pgRoute (0x400 + 0x100 * (1 - b) + 4 * k) (if keep then s.reg pgRoute (0x400 + 0x100 * b + 4 * k) else 0)) s
  let u := (List.range 32).foldl (fun s k =>
    s.setReg pgRoute (0x600 + 0x80 * (1 - b) + 4 * k) (s.reg pgRoute (0x600 + 0x80 * b + 4 * k))) t
  u.setReg pgRoute 0x100 (BitVec.ofNat 32 (1 - b))

/-- Write the cause into a device that is left out (R524). -/
def State.tellCause (s : State) (id cause : Nat) : State :=
  if s.reaches id then s.regRequest (.firmware lastFirmware) id 0x180 (some (BitVec.ofNat 32 (7 * 2 ^ 28 + cause * 2 ^ 24))) else s

/-- The number of devices, and `GROUP_READY` with its event. -/
def State.groupReady (s : State) (n : Nat) : State :=
  (s.setReg 0 0x180 (setFld (setFld (s.reg 0 0x180) 21 21 1) 6 0 n)).raise 0 3

/-- GROUP_DISCOVERY (R522 steps 6 and 7): on the anchor the reports are checked and the group made ready; any other device
reaches `STAGE` 6. -/
def execGroupDiscovery (reports : List DeviceReport) (s : State) : Host.Outcome State Fault Refusal :=
  .next (if !s.regsUp || !s.ctl.released || fld (s.reg 0 0x180) 31 28 != 4 || !s.portsSettled then s
    else
      let t := s.stage 5 0
      if !s.dev.anchor then t.stage 6 0
      else
        let here := reports.filter fun d => d.reachedBy && !(d.interGroup && d.id.toNat / 64 != s.dev.group.toNat)
        let out := here.filterMap fun d => (s.leftOut here d).map fun c => (d.id.toNat, c)
        let ids := (here.filter fun d => (s.leftOut here d).isNone).map (·.id.toNat)
        let u := (out.eraseDups.foldl (fun s x => s.tellCause x.1 x.2) t).drawRoutes false ids
        (u.stage 6 0).groupReady (min 64 (1 + ids.length)))

/-- LATE_ADMIT (R522): a device that trains after `GROUP_READY`, while no run is active. -/
def execLateAdmit (d : DeviceReport) (s : State) : Host.Outcome State Fault Refusal :=
  let id := d.id.toNat
  let known := bit (s.routeEntry false (id % 64)) 31
  .next (if !s.regsUp || !s.dev.anchor || !bit (s.reg 0 0x180) 21 || s.runActive || !d.reachedBy ||
      (d.interGroup && id / 64 != s.dev.group.toNat) then s
    else if id / 64 != s.dev.group.toNat then s.tellCause id 5
    else if id = s.ownId || known then s.tellCause id 4
    else (s.drawRoutes true [id]).groupReady (min 64 (fld (s.reg 0 0x180) 6 0 + 1)))

/-! The bridge (R417, R423, R522). -/

/-- HOST_CONFIGURATION_REQUEST (R522): Request Retry Status until start-up step 4 completes, then what the configuration
space of the standard holds, which is free here. -/
def execHostConfigurationRequest (s : State) : Host.Outcome State Fault Refusal :=
  .next (if !s.dev.anchor || s.power.perst || s.power.resetLow || !s.power.good then s
    else if !s.regsUp then s.emit (.hostReply 3 [])
    else
      let x := s.freeBytes 4
      x.2.emit (.hostReply 0 x.1))

/-- HBR_LINK_STATE_CHANGE (R423, R515): x16 or x8 at 16, 32 or 64 GT/s; a hot reset resets the bridge. Whether a link at 16
or 32 GT/s uses Flit mode depends on the partner, so a free value says so; a width of 16 does not fit the four bits of its
field, which then holds a free value (log 49). -/
def execHbrLinkStateChange (up : Bool) (width : BitVec 5) (rate : BitVec 3) (hotReset : Bool) (s : State) :
    Host.Outcome State Fault Refusal :=
  .next (if !s.bridgeUp then s else
    let s := if hotReset then s.blockReset pgHbr else s
    let was := fld (s.reg pgHbr 0x104) 1 0
    let w := width.toNat
    let r := rate.toNat
    if up && ((w != 8 && w != 16) || r = 0 || 3 < r) then s
    else
      let x := s.draw
      let y := x.2.draw
      let flit := r = 3 || bit x.1 0
      let field := if w = 16 then fld y.1 3 0 else w
      let word := if up then field * 2 ^ 16 + boolBit flit 4 + r else 0
      let s1 := if up && r != 3 then x.2 else s
      let s2 := if up && w = 16 then y.2 else s1
      let t := s2.setReg pgHbr 0x104 (BitVec.ofNat 32 word)
      (if !up && was != 0 then t.errSet pgHbr 1 else t).raise pgHbr 0)

end Sys2Proof.Machine
end

