-- ==== Sys2Proof/Machine/Mgc.lean ====
section
/-!
DEFINITION. The management controller and the trust block out of band: MCTP control, PLDM monitoring and firmware update,
the vendor messages, the attestation report and the debug token (19 R500-R511).
-/
namespace Sys2Proof.Machine

/-- The MGC answers: standby rails up, out of reset, with a valid image (R497, R521). -/
def State.mgcUp (s : State) : Bool :=
  s.power.standby && !s.power.resetLow && s.power.mod != 0 && s.mgc.running.isSome

/-- STANDBY: the rails of the TRB and of the register space are down (R463, R501). -/
def State.inStandby (s : State) : Bool := s.power.mod = 1

/-- A request that the MGC serves: counted; in FROST it starts the thaw (R463, R511). -/
def State.mgcServe (s : State) (f : State → State) : State :=
  if s.mgcUp then f (s.awaken.countReg 9 0x108 1) else s

/-- A completion without error. -/
def State.mgmtOk (s : State) (body : List Byte) : State := s.emit (.mgmt 0 body)

/-- An error completion: counted (R511). -/
def State.mgmtErr (s : State) (code : Nat) : State := (s.countReg 9 0x10C 1).emit (.mgmt code [])

/-- Bytes of a record whose format the spec leaves to a standard (log 33). -/
def makerBytes (what n : Nat) : List Byte := (List.range (Config.makerLen what n)).map fun i => Config.makerByte what n i

/-! Completion codes of MCTP and PLDM that the spec does not give (log 50). -/

def codeInvalidData : Nat := 0x02
def codeUnsupportedType : Nat := 0x80
def codeBadSensor : Nat := 0x80
def codeBadRecord : Nat := 0x82
def codeNotInUpdate : Nat := 0x80
def codeInUpdate : Nat := 0x81
def codeBadState : Nat := 0x84

/-! MCTP control messages (R504). -/

/-- SET_ENDPOINT_ID. -/
def execSetEndpointId (op : BitVec 2) (eid : Byte) (s : State) : Host.Outcome State Fault Refusal :=
  .next (s.mgcServe fun s =>
    if op.toNat ≤ 1 && 8 ≤ eid.toNat && eid != 0xFF then
      ({ s with mgc := { s.mgc with eid := eid, eidValid := true } }).mgmtOk [0, eid, 0]
    else s.mgmtErr codeInvalidData)

/-- GET_ENDPOINT_ID. -/
def execGetEndpointId (s : State) : Host.Outcome State Fault Refusal :=
  .next (s.mgcServe fun s => s.mgmtOk [if s.mgc.eidValid then s.mgc.eid else 0, 0, 0])

/-- GET_MCTP_VERSION_SUPPORT: of the base, of the control messages and of the two types supported. -/
def execGetMctpVersionSupport (type : Byte) (s : State) : Host.Outcome State Fault Refusal :=
  .next (s.mgcServe fun s =>
    if type = 0xFF || type = 0 || type = 1 || type = 0x7E then s.mgmtOk (makerBytes 1 type.toNat)
    else s.mgmtErr codeUnsupportedType)

/-- GET_MESSAGE_TYPE_SUPPORT: PLDM and vendor-defined. -/
def execGetMessageTypeSupport (s : State) : Host.Outcome State Fault Refusal :=
  .next (s.mgcServe fun s => s.mgmtOk [2, 0x01, 0x7E])

/-- GET_VENDOR_DEFINED_MESSAGE_SUPPORT: PCI vendor ID 0x1FA9, and no further set. -/
def execGetVendorDefinedMessageSupport (s : State) : Host.Outcome State Fault Refusal :=
  .next (s.mgcServe fun s => s.mgmtOk [0xFF, 0, 0x1F, 0xA9])

/-! PLDM monitoring (R505). -/

/-- PLDM_INVALID_TYPE: `ERROR_INVALID_PLDM_TYPE`. -/
def execPldmInvalidType (type : Byte) (s : State) : Host.Outcome State Fault Refusal :=
  .next (if type = 2 || type = 5 then s else s.mgcServe fun s => s.mgmtErr 0x20)

/-- GET_PDR_REPOSITORY_INFO. -/
def execGetPdrRepositoryInfo (s : State) : Host.Outcome State Fault Refusal :=
  .next (s.mgcServe fun s => s.mgmtOk (makerBytes 2 0))

/-- GET_PDR: a record of the repository; a number it does not hold is an error. -/
def execGetPdr (record : Nat) (s : State) : Host.Outcome State Fault Refusal :=
  .next (s.mgcServe fun s =>
    if Config.makerLen 3 record = 0 then s.mgmtErr codeBadRecord else s.mgmtOk (makerBytes 3 record))

/-- GET_SENSOR_READING: 0 and the value, or 2 where the sensor is unavailable. A temperature sensor is present only while its
reading is valid; in STANDBY only sensors 1 to 3 are readable. -/
def execGetSensorReading (id : BitVec 16) (s : State) : Host.Outcome State Fault Refusal :=
  .next (s.mgcServe fun s =>
    let n := id.toNat
    let w := s.reg 7 (0x400 + 4 * (n - 0x100))
    let input := s.reg 4 0x104
    if n = 1 then s.mgmtOk (0 :: natLe 4 (fld input 31 16))
    else if n = 2 then s.mgmtOk (0 :: natLe 4 (fld input 15 0))
    else if n = 3 then s.mgmtOk (0 :: natLe 8 (s.dev.energy / 1000000))
    else if n < 0x100 || 0x100 + 180 ≤ n then s.mgmtErr codeBadSensor
    else if s.inStandby then s.mgmtOk [2]
    else if bit w 31 then s.mgmtOk (0 :: natLe 2 (fld w 15 0))
    else s.mgmtErr codeBadSensor)

/-- GET_STATE_SENSOR_READINGS: the module state of R463, or `FLM_SERVICE`. -/
def execGetStateSensorReadings (id : BitVec 16) (s : State) : Host.Outcome State Fault Refusal :=
  .next (s.mgcServe fun s =>
    if id = 0x200 then s.mgmtOk [0, BitVec.ofNat 8 s.power.mod]
    else if id = 0x201 then
      (if s.inStandby then s.mgmtOk [2] else s.mgmtOk (0 :: natLe 4 (s.reg pgFlm 0x11C).toNat))
    else s.mgmtErr codeBadSensor)

/-- GET_NUMERIC_EFFECTER_VALUE: the power cap in W. -/
def execGetNumericEffecterValue (id : BitVec 16) (s : State) : Host.Outcome State Fault Refusal :=
  .next (s.mgcServe fun s => if id = 1 then s.mgmtOk (natLe 4 (s.reg 4 0x100).toNat) else s.mgmtErr codeBadSensor)

/-- SET_NUMERIC_EFFECTER_VALUE: writes `PWC_CAP`; a value outside 600 W to 1,800 W is an error and is not written. -/
def execSetNumericEffecterValue (id : BitVec 16) (value : Nat) (s : State) : Host.Outcome State Fault Refusal :=
  .next (s.mgcServe fun s =>
    if id != 1 then s.mgmtErr codeBadSensor
    else if value < 600 || 1800 < value then s.mgmtErr codeInvalidData
    else (s.capWrite .mgc (BitVec.ofNat 32 value)).mgmtOk [])

/-- SET_EVENT_RECEIVER: where platform events go; those that wait are sent. -/
def execSetEventReceiver (enable addr : Byte) (s : State) : Host.Outcome State Fault Refusal :=
  .next (s.mgcServe fun s =>
    if enable = 0 then ({ s with mgc := { s.mgc with receiver := none } }).mgmtOk []
    else
      let t : State := { s with mgc := { s.mgc with receiver := some addr, events := [] } }
      s.mgc.events.foldl (fun (u : State) (e : Nat × Nat) => u.emit (.platformEvent e.1 e.2)) (t.mgmtOk []))

/-! PLDM firmware update (R505, R506, R508). -/

/-- A change of the update state: event +0 of the MGC page. -/
def State.setUpdate (s : State) (n : Nat) : State :=
  if s.mgc.update = n then s else ({ s with mgc := { s.mgc with update := n } }).raise 9 0

/-- QUERY_DEVICE_IDENTIFIERS. -/
def execQueryDeviceIdentifiers (s : State) : Host.Outcome State Fault Refusal :=
  .next (s.mgcServe fun s => s.mgmtOk (makerBytes 4 0))

/-- The slot of a component that runs. -/
def State.runningSlot (s : State) (comp : Nat) : Bool :=
  if comp = 2 then s.mgc.running.getD false else if s.trb.booted then s.trb.slotB else s.headerSlot 1

/-- GET_FIRMWARE_PARAMETERS: the version texts of the running control and MGC images (R495). -/
def execGetFirmwareParameters (s : State) : Host.Outcome State Fault Refusal :=
  .next (s.mgcServe fun s =>
    s.mgmtOk (s.flash (slotBase 1 (s.runningSlot 1) + 0x20) 32 ++ s.flash (slotBase 2 (s.runningSlot 2) + 0x20) 32))

/-- REQUEST_UPDATE: learn components. -/
def execRequestUpdate (_maxTransfer _components : Nat) (s : State) : Host.Outcome State Fault Refusal :=
  .next (s.mgcServe fun s =>
    if s.mgc.update != 0 then s.mgmtErr codeInUpdate
    else ({ s with mgc := { s.mgc with listed := [], applied := [] } }.setUpdate 1).mgmtOk [])

/-- PASS_COMPONENT_TABLE: names a component of the update; one that the device lacks is answered with 1. -/
def execPassComponentTable (component : BitVec 16) (s : State) : Host.Outcome State Fault Refusal :=
  .next (s.mgcServe fun s =>
    let c := component.toNat
    if s.mgc.update = 0 then s.mgmtErr codeNotInUpdate
    else if s.mgc.update != 1 then s.mgmtErr codeBadState
    else if 1 ≤ c && c ≤ 3 then ({ s with mgc := { s.mgc with listed := c :: s.mgc.listed } }).mgmtOk [0]
    else s.mgmtOk [1])

/-- UPDATE_COMPONENT: the download of a listed component begins; one not listed, or larger than staging, is answered with 1. -/
def execUpdateComponent (component : BitVec 16) (size : Nat) (s : State) : Host.Outcome State Fault Refusal :=
  .next (s.mgcServe fun s =>
    let c := component.toNat
    if s.mgc.update = 0 then s.mgmtErr codeNotInUpdate
    else if s.mgc.update != 1 && s.mgc.update != 5 then s.mgmtErr codeBadState
    else if !s.mgc.listed.contains c || size = 0 || stagingSize < size then s.mgmtOk [1]
    else
      let t : State := { s with mgc := { s.mgc with comp := c, size := size, drawn := 0, verified := false } }
      (t.setUpdate 2).mgmtOk [0])

/-- REQUEST_FIRMWARE_DATA: image data that the MGC has asked for arrives and goes to staging (R506 step 1). -/
def execRequestFirmwareData (off : Nat) (data : List Byte) (s : State) : Host.Outcome State Fault Refusal :=
  .next (if s.mgcUp && s.mgc.update = 2 && off + data.length ≤ s.mgc.size then
      let t := s.awaken.flashWrite (stagingBase + off) data
      { t with mgc := { t.mgc with drawn := if off ≤ t.mgc.drawn then max t.mgc.drawn (off + data.length) else t.mgc.drawn } }
    else s)

/-- TRANSFER_COMPLETE: the whole image is in staging. -/
def execTransferComplete (s : State) : Host.Outcome State Fault Refusal :=
  .next (if s.mgcUp && s.mgc.update = 2 && s.mgc.size ≤ s.mgc.drawn then (s.awaken.setUpdate 3).mgmtOk [0] else s)

/-- Is the image in staging good: R496 for firmware, R508 for the calibration store? -/
def State.stagedOk (s : State) : Bool :=
  if s.mgc.comp = 3 then s.mgc.size ≤ calSize && calValid (s.flash stagingBase s.mgc.size)
  else 512 + s.imageLen stagingBase ≤ s.mgc.size && s.imageValid s.mgc.comp stagingBase

/-- VERIFY_COMPLETE: the check of R506 step 2; an image that fails ends the update with result 0x01. -/
def execVerifyComplete (s : State) : Host.Outcome State Fault Refusal :=
  .next (if s.mgcUp && s.mgc.update = 3 then
      let t := s.awaken
      if t.stagedOk then
        ({ t with mgc := { t.mgc with verified := true } }.setUpdate 4).mgmtOk [0]
      else (((t.errSet 9 2).raise 9 2).setUpdate 0).mgmtOk [1]
    else s)

/-- Copy the image in staging: into the slot that is not running, or over the whole calibration store, where the bytes beyond
the image are free values (R506 step 3, R508, log 32). -/
def State.applyStaged (s : State) : State :=
  if s.mgc.comp = 3 then
    let x := s.freeBytes (calSize - s.mgc.size)
    x.2.flashWrite calBase (s.flash stagingBase s.mgc.size ++ x.1)
  else s.flashWrite (slotBase s.mgc.comp (!s.runningSlot s.mgc.comp)) (s.flash stagingBase (512 + s.imageLen stagingBase))

/-- APPLY_COMPLETE. -/
def execApplyComplete (s : State) : Host.Outcome State Fault Refusal :=
  .next (if s.mgcUp && s.mgc.update = 4 && s.mgc.verified then
      let t := s.awaken.applyStaged
      ({ t with mgc := { t.mgc with applied := t.mgc.comp :: t.mgc.applied, verified := false } }.setUpdate 5).mgmtOk [0]
    else s)

/-- Select the other slot of a component whose image was applied. -/
def State.pickApplied (s : State) (c : Nat) : State :=
  if s.mgc.applied.contains c then s.selectSlot c (!s.runningSlot c) else s

/-- ACTIVATE_FIRMWARE: the copied slots are selected for the next module reset, with the commit of R498 where it is asked
for; the response gives an activation method of reset only (R506 step 4). -/
def execActivateFirmware (selfContained : Bool) (s : State) : Host.Outcome State Fault Refusal :=
  .next (s.mgcServe fun s =>
    if s.mgc.update = 0 then s.mgmtErr codeNotInUpdate
    else if s.mgc.update != 5 then s.mgmtErr codeBadState
    else
      let t := (s.pickApplied 1).pickApplied 2
      let u := if selfContained && t.trb.booted then t.svnCommit else t
      (u.setUpdate 0).mgmtOk [0, 0])

/-- GET_STATUS: the state of the update. -/
def execGetStatus (s : State) : Host.Outcome State Fault Refusal :=
  .next (s.mgcServe fun s => s.mgmtOk [BitVec.ofNat 8 s.mgc.update])

/-- CANCEL_UPDATE_COMPONENT: back to the list of components. -/
def execCancelUpdateComponent (s : State) : Host.Outcome State Fault Refusal :=
  .next (s.mgcServe fun s =>
    if s.mgc.update = 0 then s.mgmtErr codeNotInUpdate
    else if s.mgc.update = 1 || s.mgc.update = 5 then s.mgmtErr codeBadState
    else (s.setUpdate 1).mgmtOk [])

/-- CANCEL_UPDATE. -/
def execCancelUpdate (s : State) : Host.Outcome State Fault Refusal :=
  .next (s.mgcServe fun s => if s.mgc.update = 0 then s.mgmtErr codeNotInUpdate else (s.setUpdate 0).mgmtOk [])

/-! Attestation (R499-R501). -/

/-- Bytes of Mm. -/
def State.measBytes (s : State) (m : Nat) : List Byte :=
  (List.range 16).flatMap fun j => natLe 4 (s.reg pgTrb (0x200 + 0x40 * m + 4 * j)).toNat

/-- The secret of the alias key: SHAKE256 with a fixed label over the device secret, M0, M1 and M4 (R500, log 16). -/
def State.aliasSecret (s : State) : List Byte :=
  Config.shake256 (makerBytes 5 0 ++ Config.deviceSecret ++ s.measBytes 0 ++ s.measBytes 1 ++ s.measBytes 4) 57

/-- Flags of the report. -/
def State.reportFlags (s : State) : Nat :=
  boolBit s.trb.slotB 0 + boolBit s.trb.fallback 1 + boolBit s.trb.debug 2 + boolBit (!s.trb.calOk) 3 +
    s.trb.revoked.foldl (fun (n k : Nat) => n + 2 ^ (4 + k % 4)) 0

/-- The signed part of the report: bytes 0x000 to 0x29F. -/
def State.reportBody (s : State) (nonce : BitVec 256) : List Byte :=
  ascii "JLAT" ++ natLe 2 1 ++ natLe 2 800 ++ Config.serial ++ natLe 4 (devVariant s.dev.variant) ++ natLe 4 s.dev.idWord ++
    natLe 4 s.trb.fuseF ++ natLe 4 s.trb.svn ++ natLe 4 s.trb.bootCount ++ natLe 4 s.reportFlags ++ natLe 8 s.dev.time ++
    natLe 8 0 ++ (List.range 8).flatMap s.measBytes ++ natLe 32 nonce.toNat ++ Config.ed448Public s.aliasSecret ++ natLe 7 0

/-- The report: the body, its pure Ed448 signature by the alias key, and 14 bytes of 0. -/
def State.report (s : State) (nonce : BitVec 256) : List Byte :=
  s.reportBody nonce ++ Config.ed448Sign s.aliasSecret (0 :: s.reportBody nonce) ++ natLe 14 0

/-! Vendor messages (R509). -/

/-- A vendor request that STANDBY refuses with `STATE`. -/
def State.vendor (s : State) (f : State → State) : State := s.mgcServe fun t => if t.inStandby then t.mgmtErr 3 else f t

/-- REPORT. -/
def execReport (nonce : BitVec 256) (s : State) : Host.Outcome State Fault Refusal :=
  .next (s.vendor fun s => s.mgmtOk (s.report nonce))

/-- CERTS: the device certificate, then the alias certificate; in STANDBY the device certificate only. -/
def execCerts (off : Nat) (s : State) : Host.Outcome State Fault Refusal :=
  .next (s.mgcServe fun s =>
    let chain := s.flash 0x50000 (Config.makerLen 6 0) ++
      (if s.inStandby || !s.trb.booted then [] else Config.aliasCert (Config.ed448Public s.aliasSecret))
    s.mgmtOk ((chain.drop off).take 1024))

/-- DEBUG_CHALLENGE: a fresh nonce replaces the previous one (R503). -/
def execDebugChallenge (s : State) : Host.Outcome State Fault Refusal :=
  .next (s.vendor fun s =>
    let x := s.freeBytes 32
    ({ x.2 with trb := { x.2.trb with challenge := some x.1 } }).mgmtOk x.1)

/-- Does the TRB accept a debug token (R503)? -/
def State.tokenOk (s : State) (token : List Byte) : Bool :=
  let at' := fun (i n : Nat) => (token.drop i).take n
  let key := at' 0x40 57
  at' 0 4 = ascii "JLDT" && leNat (at' 4 2) = 1 && at' 8 16 = Config.serial && s.trb.challenge = some (at' 0x18 32) &&
    s.keyOk (leNat (at' 0x38 1)) key && verifyPure key (at' 0 128) (at' 0x80 114) && !s.runActive

/-- DEBUG_UNLOCK (R503). -/
def execDebugUnlock (token : List Byte) (s : State) : Host.Outcome State Fault Refusal :=
  .next (s.vendor fun s =>
    if token.length != 256 then s.mgmtErr 1
    else if s.tokenOk token then
      let scope := leNat ((token.drop 6).take 2) % 8
      let t := s.extendMeas 4 (Config.shake256 token 64)
      ({ t with trb := { t.trb with challenge := none, debug := true, scope := t.trb.scope ||| scope } }.raise pgTrb 1).mgmtOk []
    else
      let t : State := { s with trb := { s.trb with challenge := none } }
      (((t.errSet pgTrb 1).errCount pgTrb 1).raise pgTrb 2).mgmtErr 4)

/-- REG_READ: RO registers and `PWC_CAP`, those of an absent unit reading 0 (R4); a wrong alignment is counted (R97). -/
def execRegRead (a : BitVec 26) (s : State) : Host.Outcome State Fault Refusal :=
  let p := a.toNat / 65536
  let off := a.toNat % 65536
  .next (s.vendor fun s =>
    if a.toNat % 4 != 0 then
      ((if s.reg 0 0x108 = 0 then s.raise 0 2 else s).countReg 0 0x108 1).mgmtErr 1
    else
      let ro := match regRow p off with | some row => row.acc = .ro || (p = 4 && off = 0x100) | none => false
      if !pageAssigned p || !ro then s.mgmtErr 5
      else
        let x := s.readReg .mgc p off
        x.2.mgmtOk (natLe 4 x.1.toNat))

/-- TELEMETRY: bytes of the FLM telemetry block as of its last update (R481). -/
def execTelemetry (off len : Nat) (s : State) : Host.Outcome State Fault Refusal :=
  .next (s.vendor fun s =>
    if 1024 < len || 4096 < off + len then s.mgmtErr 1
    else if s.flm.telemetry.isEmpty then
      let x := s.freeBytes len
      x.2.mgmtOk x.1
    else s.mgmtOk ((s.flm.telemetry.drop off).take len))

/-- FAULT_LOG: the entry written at `FLM_LOG_SEQ` = n, or `INVALID` (R491). -/
def execFaultLog (n : Nat) (s : State) : Host.Outcome State Fault Refusal :=
  .next (s.mgcServe fun s =>
    match s.flm.log.find? fun (e : List Byte) => leNat ((e.drop 8).take 4) = n % 2 ^ 32 with
    | some e => s.mgmtOk e
    | none => s.mgmtErr 1)

/-- CAL_READ: up to 1,024 bytes of the calibration store. -/
def execCalRead (off : Nat) (s : State) : Host.Outcome State Fault Refusal :=
  .next (s.mgcServe fun s => s.mgmtOk (s.flash (calBase + off) (min 1024 (calSize - off))))

/-- TRIP: `MGC_TRIP`. -/
def execTrip (s : State) : Host.Outcome State Fault Refusal := .next (s.mgcServe fun s => s.mgmtOk (natLe 4 s.power.trip.toNat))

/-! The pins. -/

/-- BOUNDARY_SCAN: the boundary-scan instructions are always offered. What shifts out depends on instruction codes and
registers that are not stated, so it is free; once a token has unlocked debug, a free bit says whether the instruction is
one of a debug path, whose effect is not stated (R502). -/
def execBoundaryScan (_ir _dr : Nat) (s : State) : Host.Outcome State Fault Refusal :=
  if !s.power.standby then .next s
  else
    let x := s.draw
    if s.trb.debug && bit (x.1.truncate 32) 31 then .refused .debugPathUnspecified
    else .next (x.2.emit (.tdo (x.1.toNat % 2 ^ 31)))

/-- SMBUS_BUS_TIMEOUT: the transaction is abandoned (R511). -/
def execSmbusBusTimeout (s : State) : Host.Outcome State Fault Refusal := .next (if s.mgcUp then s.errSet 9 1 else s)

end Sys2Proof.Machine
end

