-- ==== Sys2Proof/Machine/Dispatch.lean ====
section
/-!
DEFINITION. The meaning of every command, one arm each.
-/
namespace Sys2Proof.Machine

def exec (i : Instr) (s : State) : Host.Outcome State Fault Refusal :=
  match i with
  | .registerWrite r a width v => Sys2Proof.Machine.execRegisterWrite r a width v s
  | .readClear r a width => Sys2Proof.Machine.execReadClear r a width s
  | .devTimeLoRead r => Sys2Proof.Machine.execDevTimeLoRead r s
  | .pwcEnergyLoRead r => Sys2Proof.Machine.execPwcEnergyLoRead r s
  | .devTcapLoRead r => Sys2Proof.Machine.execDevTcapLoRead r s
  | .pageLock r p v => Sys2Proof.Machine.execPageLock r p v s
  | .softReset r p v => Sys2Proof.Machine.execSoftReset r p v s
  | .pageEnableWrite r p v => Sys2Proof.Machine.execPageEnableWrite r p v s
  | .shutdownComplete p => Sys2Proof.Machine.execShutdownComplete p s
  | .powerUpComplete p => Sys2Proof.Machine.execPowerUpComplete p s
  | .retentionEntry p => Sys2Proof.Machine.execRetentionEntry p s
  | .islandThaw p => Sys2Proof.Machine.execIslandThaw p s
  | .nop site => Sys2Proof.Machine.execNop site s
  | .halt site => Sys2Proof.Machine.execHalt site s
  | .loop site => Sys2Proof.Machine.execLoop site s
  | .wait site => Sys2Proof.Machine.execWait site s
  | .signal site => Sys2Proof.Machine.execSignal site s
  | .signalDelivery n => Sys2Proof.Machine.execSignalDelivery n s
  | .hurdle site => Sys2Proof.Machine.execHurdle site s
  | .hurdleOpen h => Sys2Proof.Machine.execHurdleOpen h s
  | .hurdleTimeout site serial => Sys2Proof.Machine.execHurdleTimeout site serial s
  | .event site => Sys2Proof.Machine.execEvent site s
  | .histCfg site => Sys2Proof.Machine.execHistCfg site s
  | .histStore site => Sys2Proof.Machine.execHistStore site s
  | .batonSend site => Sys2Proof.Machine.execBatonSend site s
  | .batonWait site => Sys2Proof.Machine.execBatonWait site s
  | .mm site => Sys2Proof.Machine.execMm site s
  | .mmDw site => Sys2Proof.Machine.execMmDw site s
  | .accDrain site => Sys2Proof.Machine.execAccDrain site s
  | .accSpill site => Sys2Proof.Machine.execAccSpill site s
  | .accResume site => Sys2Proof.Machine.execAccResume site s
  | .accClear site => Sys2Proof.Machine.execAccClear site s
  | .vCopy site => Sys2Proof.Machine.execVCopy site s
  | .vAdd site => Sys2Proof.Machine.execVAdd site s
  | .vSub site => Sys2Proof.Machine.execVSub site s
  | .vMul site => Sys2Proof.Machine.execVMul site s
  | .vFma site => Sys2Proof.Machine.execVFma site s
  | .vMax site => Sys2Proof.Machine.execVMax site s
  | .vMin site => Sys2Proof.Machine.execVMin site s
  | .vNeg site => Sys2Proof.Machine.execVNeg site s
  | .vAbs site => Sys2Proof.Machine.execVAbs site s
  | .vCmp site => Sys2Proof.Machine.execVCmp site s
  | .vSelect site => Sys2Proof.Machine.execVSelect site s
  | .vFunc site => Sys2Proof.Machine.execVFunc site s
  | .vReduce site => Sys2Proof.Machine.execVReduce site s
  | .vPsum site => Sys2Proof.Machine.execVPsum site s
  | .vPerm site => Sys2Proof.Machine.execVPerm site s
  | .vCompress site => Sys2Proof.Machine.execVCompress site s
  | .vExpand site => Sys2Proof.Machine.execVExpand site s
  | .vRandU site => Sys2Proof.Machine.execVRandU site s
  | .vRandN site => Sys2Proof.Machine.execVRandN site s
  | .vDropout site => Sys2Proof.Machine.execVDropout site s
  | .vRandBits site => Sys2Proof.Machine.execVRandBits site s
  | .rowSoftmax site => Sys2Proof.Machine.execRowSoftmax site s
  | .rowSoftmaxBwd site => Sys2Proof.Machine.execRowSoftmaxBwd site s
  | .rowXent site => Sys2Proof.Machine.execRowXent site s
  | .rowXentBwd site => Sys2Proof.Machine.execRowXentBwd site s
  | .rowLnorm site => Sys2Proof.Machine.execRowLnorm site s
  | .rowLnormBwd site => Sys2Proof.Machine.execRowLnormBwd site s
  | .rowRmsnorm site => Sys2Proof.Machine.execRowRmsnorm site s
  | .rowRmsnormBwd site => Sys2Proof.Machine.execRowRmsnormBwd site s
  | .rowTagClose site => Sys2Proof.Machine.execRowTagClose site s
  | .sArm site => Sys2Proof.Machine.execSArm site s
  | .sArmFetchDone site c => Sys2Proof.Machine.execSArmFetchDone site c s
  | .sLoad site => Sys2Proof.Machine.execSLoad site s
  | .sStore site => Sys2Proof.Machine.execSStore site s
  | .sAcquire site => Sys2Proof.Machine.execSAcquire site s
  | .sRelease site => Sys2Proof.Machine.execSRelease site s
  | .releaseEffect site serial => Sys2Proof.Machine.execReleaseEffect site serial s
  | .sDisarm site => Sys2Proof.Machine.execSDisarm site s
  | .disarmDone site c => Sys2Proof.Machine.execDisarmDone site c s
  | .tileComplete site c n => Sys2Proof.Machine.execTileComplete site c n s
  | .tileFault site c n => Sys2Proof.Machine.execTileFault site c n s
  | .chainFetchDone site c => Sys2Proof.Machine.execChainFetchDone site c s
  | .passComplete site c => Sys2Proof.Machine.execPassComplete site c s
  | .descriptorComplete site serial => Sys2Proof.Machine.execDescriptorComplete site serial s
  | .descriptorFault site serial => Sys2Proof.Machine.execDescriptorFault site serial s
  | .listStopped site => Sys2Proof.Machine.execListStopped site s
  | .start r site v => Sys2Proof.Machine.execStart r site v s
  | .stop r site v => Sys2Proof.Machine.execStop r site v s
  | .resume r site v => Sys2Proof.Machine.execResume r site v s
  | .skip r site v => Sys2Proof.Machine.execSkip r site v s
  | .abandon r site v => Sys2Proof.Machine.execAbandon r site v s
  | .abandonDone site => Sys2Proof.Machine.execAbandonDone site s
  | .coreLoopWrite r site ix v => Sys2Proof.Machine.execCoreLoopWrite r site ix v s
  | .coreMigrate lcore site => Sys2Proof.Machine.execCoreMigrate lcore site s
  | .outerRead cls addr len x => Sys2Proof.Machine.execOuterRead cls addr len x s
  | .outerWrite cls addr data x => Sys2Proof.Machine.execOuterWrite cls addr data x s
  | .patrolScrub block sector x => Sys2Proof.Machine.execPatrolScrub block sector x s
  | .nearScrub word bad => Sys2Proof.Machine.execNearScrub word bad s
  | .trePkgWrite r g v => Sys2Proof.Machine.execTrePkgWrite r g v s
  | .treSplitWrite r g v => Sys2Proof.Machine.execTreSplitWrite r g v s
  | .repairGo r g slot v => Sys2Proof.Machine.execRepairGo r g slot v s
  | .nosrc r g slot v => Sys2Proof.Machine.execNosrc r g slot v s
  | .repairBlockArrive g slot block bad1 bad2 => Sys2Proof.Machine.execRepairBlockArrive g slot block bad1 bad2 s
  | .repairTimeout g slot => Sys2Proof.Machine.execRepairTimeout g slot s
  | .pageAgeTick => Sys2Proof.Machine.execPageAgeTick s
  | .pacerPromote => Sys2Proof.Machine.execPacerPromote s
  | .promotionComplete entry => Sys2Proof.Machine.execPromotionComplete entry s
  | .pacerDemote entry => Sys2Proof.Machine.execPacerDemote entry s
  | .pacerStall => Sys2Proof.Machine.execPacerStall s
  | .hostWindowAccess addr len data origin => Sys2Proof.Machine.execHostWindowAccess addr len data origin s
  | .hbrXlatInv r v => Sys2Proof.Machine.execHbrXlatInv r v s
  | .xlatInvDone => Sys2Proof.Machine.execXlatInvDone s
  | .hvuEnable r v => Sys2Proof.Machine.execHvuEnable r v s
  | .hvuVerdictStart => Sys2Proof.Machine.execHvuVerdictStart s
  | .verdict b => Sys2Proof.Machine.execVerdict b s
  | .hvuPasses => Sys2Proof.Machine.execHvuPasses s
  | .hvuCommit => Sys2Proof.Machine.execHvuCommit s
  | .hvuDone => Sys2Proof.Machine.execHvuDone s
  | .requeue r v => Sys2Proof.Machine.execRequeue r v s
  | .hvuAbandon r v => Sys2Proof.Machine.execHvuAbandon r v s
  | .digest b => Sys2Proof.Machine.execDigest b s
  | .schEnable r v => Sys2Proof.Machine.execSchEnable r v s
  | .slotOpen => Sys2Proof.Machine.execSlotOpen s
  | .coreLaunch lcore => Sys2Proof.Machine.execCoreLaunch lcore s
  | .user b => Sys2Proof.Machine.execUser b s
  | .loss b => Sys2Proof.Machine.execLoss b s
  | .hurdleArrive b => Sys2Proof.Machine.execHurdleArrive b s
  | .hurdleRelease b => Sys2Proof.Machine.execHurdleRelease b s
  | .batonInvalid b => Sys2Proof.Machine.execBatonInvalid b s
  | .batonGap src => Sys2Proof.Machine.execBatonGap src s
  | .bktLocal b count => Sys2Proof.Machine.execBktLocal b count s
  | .bktPartSend b owner => Sys2Proof.Machine.execBktPartSend b owner s
  | .bktPart b => Sys2Proof.Machine.execBktPart b s
  | .reduceDeadline b => Sys2Proof.Machine.execReduceDeadline b s
  | .reducePassDone b => Sys2Proof.Machine.execReducePassDone b s
  | .bktAck b => Sys2Proof.Machine.execBktAck b s
  | .bktClosed b => Sys2Proof.Machine.execBktClosed b s
  | .bktGather b => Sys2Proof.Machine.execBktGather b s
  | .schCmdWithdraw r v => Sys2Proof.Machine.execSchCmdWithdraw r v s
  | .withdraw b => Sys2Proof.Machine.execWithdraw b s
  | .lapDoneSend => Sys2Proof.Machine.execLapDoneSend s
  | .lapDone b => Sys2Proof.Machine.execLapDone b s
  | .lapGo b => Sys2Proof.Machine.execLapGo b s
  | .kvdEnable r v => Sys2Proof.Machine.execKvdEnable r v s
  | .kvdClearDone => Sys2Proof.Machine.execKvdClearDone s
  | .kvdDirSel r v => Sys2Proof.Machine.execKvdDirSel r v s
  | .admitSeqs => Sys2Proof.Machine.execAdmitSeqs s
  | .walkEmit => Sys2Proof.Machine.execWalkEmit s
  | .stepEnd => Sys2Proof.Machine.execStepEnd s
  | .kvdMaintenance => Sys2Proof.Machine.execKvdMaintenance s
  | .kvdMoveDone n => Sys2Proof.Machine.execKvdMoveDone n s
  | .mdeJobPush r v => Sys2Proof.Machine.execMdeJobPush r v s
  | .mdeDecodeStart pipe pos h => Sys2Proof.Machine.execMdeDecodeStart pipe pos h s
  | .mdeDecodeDone pipe ok pixels => Sys2Proof.Machine.execMdeDecodeDone pipe ok pixels s
  | .mdeDecodeTimeout pipe => Sys2Proof.Machine.execMdeDecodeTimeout pipe s
  | .mdeCommit => Sys2Proof.Machine.execMdeCommit s
  | .sauJobPush r v => Sys2Proof.Machine.execSauJobPush r v s
  | .sauAlign => Sys2Proof.Machine.execSauAlign s
  | .stageEnable r sau v => Sys2Proof.Machine.execStageEnable r sau v s
  | .stageReleaseDone => Sys2Proof.Machine.execStageReleaseDone s
  | .frameReceive p f => Sys2Proof.Machine.execFrameReceive p f s
  | .linkctl p m => Sys2Proof.Machine.execLinkctl p m s
  | .credit p k => Sys2Proof.Machine.execCredit p k s
  | .rdReq p k => Sys2Proof.Machine.execRdReq p k s
  | .rdData p k => Sys2Proof.Machine.execRdData p k s
  | .crdData p k => Sys2Proof.Machine.execCrdData p k s
  | .wrData p k => Sys2Proof.Machine.execWrData p k s
  | .wrLast p k => Sys2Proof.Machine.execWrLast p k s
  | .cwrData p k => Sys2Proof.Machine.execCwrData p k s
  | .cwrLast p k => Sys2Proof.Machine.execCwrLast p k s
  | .wrAck p k => Sys2Proof.Machine.execWrAck p k s
  | .rdErr p k => Sys2Proof.Machine.execRdErr p k s
  | .regRd p k => Sys2Proof.Machine.execRegRd p k s
  | .regWr p k => Sys2Proof.Machine.execRegWr p k s
  | .regData p k => Sys2Proof.Machine.execRegData p k s
  | .relayTimeout p => Sys2Proof.Machine.execRelayTimeout p s
  | .linkReqTimeout tag => Sys2Proof.Machine.execLinkReqTimeout tag s
  | .flCfgWrite r p v => Sys2Proof.Machine.execFlCfgWrite r p v s
  | .trainingSignal p => Sys2Proof.Machine.execTrainingSignal p s
  | .trainingNoSignal p => Sys2Proof.Machine.execTrainingNoSignal p s
  | .equalisationDone p => Sys2Proof.Machine.execEqualisationDone p s
  | .linkExchangeDone p => Sys2Proof.Machine.execLinkExchangeDone p s
  | .laneFail p lane => Sys2Proof.Machine.execLaneFail p lane s
  | .reshapeDone p => Sys2Proof.Machine.execReshapeDone p s
  | .routeBankFlip r v => Sys2Proof.Machine.execRouteBankFlip r v s
  | .hostBar0Window off width data => Sys2Proof.Machine.execHostBar0Window off width data s
  | .hostBar2Read off len => Sys2Proof.Machine.execHostBar2Read off len s
  | .hostBar2Write off data => Sys2Proof.Machine.execHostBar2Write off data s
  | .hostPerst low => Sys2Proof.Machine.execHostPerst low s
  | .lineWatchFire k => Sys2Proof.Machine.execLineWatchFire k s
  | .run k => Sys2Proof.Machine.execRun k s
  | .groupPartTimeout ctx dev => Sys2Proof.Machine.execGroupPartTimeout ctx dev s
  | .step k => Sys2Proof.Machine.execStep k s
  | .endRun k => Sys2Proof.Machine.execEndRun k s
  | .abort k => Sys2Proof.Machine.execAbort k s
  | .runEnd ctx => Sys2Proof.Machine.execRunEnd ctx s
  | .faultResponse site => Sys2Proof.Machine.execFaultResponse site s
  | .devSubqCfgWrite r k v => Sys2Proof.Machine.execDevSubqCfgWrite r k v s
  | .eventDeliver n => Sys2Proof.Machine.execEventDeliver n s
  | .claim r t => Sys2Proof.Machine.execClaim r t s
  | .eoi r t v => Sys2Proof.Machine.execEoi r t v s
  | .evhReset r t v => Sys2Proof.Machine.execEvhReset r t v s
  | .evhSrcWrite r n v => Sys2Proof.Machine.execEvhSrcWrite r n v s
  | .evhTmrCtrlWrite r k owner v => Sys2Proof.Machine.execEvhTmrCtrlWrite r k owner v s
  | .timerFire k => Sys2Proof.Machine.execTimerFire k s
  | .hubFrost h => Sys2Proof.Machine.execHubFrost h s
  | .hubThaw h => Sys2Proof.Machine.execHubThaw h s
  | .siblingWatchdog k => Sys2Proof.Machine.execSiblingWatchdog k s
  | .v72Rise mv => Sys2Proof.Machine.execV72Rise mv s
  | .undervoltageLockout mv => Sys2Proof.Machine.execUndervoltageLockout mv s
  | .overvoltageShutdown mv => Sys2Proof.Machine.execOvervoltageShutdown mv s
  | .lowInputLimit mv => Sys2Proof.Machine.execLowInputLimit mv s
  | .phaseShed stage phase => Sys2Proof.Machine.execPhaseShed stage phase s
  | .droop island => Sys2Proof.Machine.execDroop island s
  | .regulatorRetrim island => Sys2Proof.Machine.execRegulatorRetrim island s
  | .ageingMeasure island slowing => Sys2Proof.Machine.execAgeingMeasure island slowing s
  | .estimateCorrect estimate measured => Sys2Proof.Machine.execEstimateCorrect estimate measured s
  | .capStep watts => Sys2Proof.Machine.execCapStep watts s
  | .fastThrottle watts => Sys2Proof.Machine.execFastThrottle watts s
  | .fastThrottleEnd => Sys2Proof.Machine.execFastThrottleEnd s
  | .pwcCapWrite r v => Sys2Proof.Machine.execPwcCapWrite r v s
  | .pwcFreqMaxWrite r h v => Sys2Proof.Machine.execPwcFreqMaxWrite r h v s
  | .frost r v => Sys2Proof.Machine.execFrost r v s
  | .frostWake => Sys2Proof.Machine.execFrostWake s
  | .modPwrEnRise => Sys2Proof.Machine.execModPwrEnRise s
  | .modPwrEnFall => Sys2Proof.Machine.execModPwrEnFall s
  | .shutdownDone => Sys2Proof.Machine.execShutdownDone s
  | .modResetAssert => Sys2Proof.Machine.execModResetAssert s
  | .modResetRelease group slot anchor => Sys2Proof.Machine.execModResetRelease group slot anchor s
  | .sensorRead readings => Sys2Proof.Machine.execSensorRead readings s
  | .thermalTrip sensor => Sys2Proof.Machine.execThermalTrip sensor s
  | .trbBoot failed => Sys2Proof.Machine.execTrbBoot failed s
  | .controlRelease ports => Sys2Proof.Machine.execControlRelease ports s
  | .groupDiscovery reports => Sys2Proof.Machine.execGroupDiscovery reports s
  | .lateAdmit d => Sys2Proof.Machine.execLateAdmit d s
  | .devGpxCfgWrite r k v => Sys2Proof.Machine.execDevGpxCfgWrite r k v s
  | .timeCapture k => Sys2Proof.Machine.execTimeCapture k s
  | .leakN k => Sys2Proof.Machine.execLeakN k s
  | .capLimitN k low => Sys2Proof.Machine.execCapLimitN k low s
  | .flmReport kind resource => Sys2Proof.Machine.execFlmReport kind resource s
  | .lapTimeout child => Sys2Proof.Machine.execLapTimeout child s
  | .deviceLoss d => Sys2Proof.Machine.execDeviceLoss d s
  | .release r v => Sys2Proof.Machine.execRelease r v s
  | .telemetryGather => Sys2Proof.Machine.execTelemetryGather s
  | .trbSvnCommit r v => Sys2Proof.Machine.execTrbSvnCommit r v s
  | .setEndpointId op eid => Sys2Proof.Machine.execSetEndpointId op eid s
  | .getEndpointId => Sys2Proof.Machine.execGetEndpointId s
  | .getMctpVersionSupport type => Sys2Proof.Machine.execGetMctpVersionSupport type s
  | .getMessageTypeSupport => Sys2Proof.Machine.execGetMessageTypeSupport s
  | .getVendorDefinedMessageSupport => Sys2Proof.Machine.execGetVendorDefinedMessageSupport s
  | .pldmInvalidType type => Sys2Proof.Machine.execPldmInvalidType type s
  | .getPdrRepositoryInfo => Sys2Proof.Machine.execGetPdrRepositoryInfo s
  | .getPdr record => Sys2Proof.Machine.execGetPdr record s
  | .getSensorReading id => Sys2Proof.Machine.execGetSensorReading id s
  | .getStateSensorReadings id => Sys2Proof.Machine.execGetStateSensorReadings id s
  | .getNumericEffecterValue id => Sys2Proof.Machine.execGetNumericEffecterValue id s
  | .setNumericEffecterValue id value => Sys2Proof.Machine.execSetNumericEffecterValue id value s
  | .setEventReceiver enable addr => Sys2Proof.Machine.execSetEventReceiver enable addr s
  | .queryDeviceIdentifiers => Sys2Proof.Machine.execQueryDeviceIdentifiers s
  | .getFirmwareParameters => Sys2Proof.Machine.execGetFirmwareParameters s
  | .requestUpdate maxTransfer components => Sys2Proof.Machine.execRequestUpdate maxTransfer components s
  | .passComponentTable component => Sys2Proof.Machine.execPassComponentTable component s
  | .updateComponent component size => Sys2Proof.Machine.execUpdateComponent component size s
  | .requestFirmwareData off data => Sys2Proof.Machine.execRequestFirmwareData off data s
  | .transferComplete => Sys2Proof.Machine.execTransferComplete s
  | .verifyComplete => Sys2Proof.Machine.execVerifyComplete s
  | .applyComplete => Sys2Proof.Machine.execApplyComplete s
  | .activateFirmware selfContained => Sys2Proof.Machine.execActivateFirmware selfContained s
  | .getStatus => Sys2Proof.Machine.execGetStatus s
  | .cancelUpdateComponent => Sys2Proof.Machine.execCancelUpdateComponent s
  | .cancelUpdate => Sys2Proof.Machine.execCancelUpdate s
  | .report nonce => Sys2Proof.Machine.execReport nonce s
  | .certs off => Sys2Proof.Machine.execCerts off s
  | .debugChallenge => Sys2Proof.Machine.execDebugChallenge s
  | .debugUnlock token => Sys2Proof.Machine.execDebugUnlock token s
  | .regRead a => Sys2Proof.Machine.execRegRead a s
  | .telemetry off len => Sys2Proof.Machine.execTelemetry off len s
  | .faultLog n => Sys2Proof.Machine.execFaultLog n s
  | .calRead off => Sys2Proof.Machine.execCalRead off s
  | .trip => Sys2Proof.Machine.execTrip s
  | .hostConfigurationRequest => Sys2Proof.Machine.execHostConfigurationRequest s
  | .hostReadCompletion tag status data => Sys2Proof.Machine.execHostReadCompletion tag status data s
  | .hbrLinkStateChange up width rate hotReset => Sys2Proof.Machine.execHbrLinkStateChange up width rate hotReset s
  | .msixVectorUnmask vec => Sys2Proof.Machine.execMsixVectorUnmask vec s
  | .codewordLock p lanes => Sys2Proof.Machine.execCodewordLock p lanes s
  | .boundaryScan ir dr => Sys2Proof.Machine.execBoundaryScan ir dr s
  | .smbusBusTimeout => Sys2Proof.Machine.execSmbusBusTimeout s

end Sys2Proof.Machine
end

