-- ==== Sys2Proof/Machine/Tick.lean ====
section
/-!
DEFINITION. What the passing of 1 ns does of itself (log 1): time, energy, the cycle counters of the core sites, the idle
times of the islands, the telemetry period of the droop counts, credit that no header carries back, and steps that are done.
-/
namespace Sys2Proof.Machine

/-- Clock cycles of a core site in the ns that begins now: its operating point, less the sixteenths of each 1 µs frame in
which its clock is stopped (R449, R457). The stopped part lies at the end of the frame (log 18). -/
def State.cycles (s : State) (site : Nat) : Nat :=
  if 1000 * (16 - s.power.k) ≤ s.dev.time % 1000 * 16 then 0
  else
    let f := pointMhz (s.power.point site)
    (s.dev.time + 1) * f / 1000 - s.dev.time * f / 1000

/-- Does an S_ACQUIRE hold the issue of a core (R235)? -/
def State.acquireHeld (s : State) (site : Nat) : Bool :=
  let c := s.core site
  s.mayIssue site && match s.fetchAt c c.seq.cursor with
    | .desc d => Dsc.opcode d = 0x63 && (!Dsc.wen d || reached (c.depCtr (Dsc.wctr d)) (Dsc.wval d)) &&
        !acquireKind.ready s site d
    | .fault _ => false

def Core.addCounter (c : Core) (off n : Nat) : Core := c.setCounter off ((c.counter off + n) % 2 ^ 32)

/-- `CORE_CYCLES` and `STU_ACQ_WAIT_CYCLES` of one core. -/
def State.tickCore (s : State) (site : Nat) : State :=
  if (s.core site).seq.st != .running then s
  else
    let n := s.cycles site
    let t := s.onCore site fun c => { c.addCounter 0x13C n with clk := c.clk + n }
    if s.acquireHeld site then t.onCore site fun c => c.addCounter 0x50C n else t

/-- Pages of the islands that may frost: bit 4 of `PAGE_CTRL` (R461). -/
def State.frostAllowed (s : State) : List Nat :=
  (s.regs.filter fun (x : Nat × Word) => x.1 % 16384 = 2 && bit x.2 4).map fun (x : Nat × Word) => x.1 / 16384

/-- An island that is not idle now was busy at this time. -/
def State.tickIdle (s : State) (p : Nat) : State :=
  if s.islandIdle p then s else { s with busyAt := Store.set 0 s.busyAt p s.dev.time }

/-- Return credit where a port owes some (R400). -/
def State.tickPort (s : State) (p : Nat) : State := if (s.port p).owed.isEmpty then s else s.returnCredit p

/-- 1 ns later. -/
def State.later (s : State) : State :=
  let w := fld (s.reg 4 0x104) 31 16
  let t : State := { s with dev := { s.dev with time := s.dev.time + 1, energy := s.dev.energy + w } }
  if t.dev.time % 1000000 = 0 then { t with power := { t.power with droops := [] } } else t

/-- 1 ns passes; before the reference oscillator runs (OFF and reset) nothing happens. -/
def State.tick (s : State) : State :=
  if s.power.mod = 0 then s
  else if !s.regsUp then s.later
  else
    let t := (s.cores.map fun (x : Nat × Core) => x.1).foldl State.tickCore s
    let u := (t.frostAllowed.foldl State.tickIdle t).later
    let v := (List.range 16).foldl State.tickPort u
    if v.ctl.opens.isEmpty || v.power.mod != 2 then v else v.closeSteps

end Sys2Proof.Machine
end

