-- ==== Sys2Proof/Safety.lean ====
section
/-!
DEFINITION. What counts as a safe run, and the terms that claims use.
-/
namespace Sys2Proof.Safety

/-- n steps from a state, as long as each answers a next state. -/
def runs : Nat → Machine.State → Option Machine.State
  | 0, s => some s
  | n + 1, s => match Machine.step s with
    | .next t => runs n t
    | _ => none

/-- No step of the first n faults or is refused. -/
def Safe (n : Nat) (s : Machine.State) : Prop := (runs n s).isSome

end Sys2Proof.Safety

namespace Sys2Proof.Machine

/-! Register accesses. -/

/-- An access of a register of a page meets an ACTIVE device, a present block whose island is ON and an assigned offset. -/
def State.reachable (s : State) (p off : Nat) : Bool :=
  s.power.mod = 2 && s.present p && s.island p = 0 && !((p = 1 || p = 2) && Store.get false s.evh.frost (p - 1)) &&
    (regRow p off).isSome

/-- A write of a register is carried out: the register is reachable, and its requester may write it. -/
def State.accepts (s : State) (r : Requester) (p off : Nat) : Bool :=
  s.reachable p off && match regRow p off with | some row => mayWrite r row.fw p off | none => false

/-! Issue of descriptors (R122, R142, R143). -/

/-- The core and the kind of a control, matrix, vector or row descriptor's command; HALT and the stream descriptors have more
to do than to issue. -/
def issueRow : Instr → Option (Nat × Kind)
  | .nop x => some (x.val, nopKind) | .loop x => some (x.val, loopKind) | .wait x => some (x.val, waitKind)
  | .signal x => some (x.val, signalKind) | .hurdle x => some (x.val, hurdleKind) | .event x => some (x.val, eventKind)
  | .histCfg x => some (x.val, histCfgKind) | .histStore x => some (x.val, histStoreKind)
  | .batonSend x => some (x.val, batonSendKind) | .batonWait x => some (x.val, batonWaitKind)
  | .mm x => some (x.val, mmKind 0x10 false) | .mmDw x => some (x.val, mmKind 0x11 true)
  | .accDrain x => some (x.val, drainKind) | .accSpill x => some (x.val, spillKind)
  | .accResume x => some (x.val, resumeKind) | .accClear x => some (x.val, clearKind)
  | .vCopy x => some (x.val, vecKind .copy) | .vAdd x => some (x.val, vecKind .add) | .vSub x => some (x.val, vecKind .sub)
  | .vMul x => some (x.val, vecKind .mul) | .vFma x => some (x.val, vecKind .fma) | .vMax x => some (x.val, vecKind .max)
  | .vMin x => some (x.val, vecKind .min) | .vNeg x => some (x.val, vecKind .neg) | .vAbs x => some (x.val, vecKind .abs)
  | .vCmp x => some (x.val, vecKind .cmp) | .vSelect x => some (x.val, vecKind .select)
  | .vFunc x => some (x.val, vecKind .func) | .vReduce x => some (x.val, vecKind .reduce)
  | .vPsum x => some (x.val, vecKind .psum) | .vPerm x => some (x.val, vecKind .perm)
  | .vCompress x => some (x.val, vecKind .compress) | .vExpand x => some (x.val, vecKind .expand)
  | .vRandU x => some (x.val, vecKind .randU) | .vRandN x => some (x.val, vecKind .randN)
  | .vDropout x => some (x.val, vecKind .dropout) | .vRandBits x => some (x.val, vecKind .randBits)
  | .rowSoftmax x => some (x.val, rowKind .softmax) | .rowSoftmaxBwd x => some (x.val, rowKind .softmaxBwd)
  | .rowXent x => some (x.val, rowKind .xent) | .rowXentBwd x => some (x.val, rowKind .xentBwd)
  | .rowLnorm x => some (x.val, rowKind .lnorm) | .rowLnormBwd x => some (x.val, rowKind .lnormBwd)
  | .rowRmsnorm x => some (x.val, rowKind .rms) | .rowRmsnormBwd x => some (x.val, rowKind .rmsBwd)
  | .rowTagClose x => some (x.val, rowKind .tagClose)
  | _ => none

/-- The run of a matrix, vector or row descriptor on its core. -/
def runRow : Instr → Option (Core → Env → Desc → RunRes)
  | .mm _ | .mmDw _ => some mmRun
  | .accDrain _ => some drainRun | .accSpill _ => some accSpillRun | .accResume _ => some accResumeRun
  | .accClear _ => some accClearRun
  | .vCopy _ => some (vRun .copy) | .vAdd _ => some (vRun .add) | .vSub _ => some (vRun .sub) | .vMul _ => some (vRun .mul)
  | .vFma _ => some (vRun .fma) | .vMax _ => some (vRun .max) | .vMin _ => some (vRun .min) | .vNeg _ => some (vRun .neg)
  | .vAbs _ => some (vRun .abs) | .vCmp _ => some (vRun .cmp) | .vSelect _ => some (vRun .select)
  | .vFunc _ => some (vRun .func) | .vReduce _ => some (vRun .reduce) | .vPsum _ => some (vRun .psum)
  | .vPerm _ => some (vRun .perm) | .vCompress _ => some (vRun .compress) | .vExpand _ => some (vRun .expand)
  | .vRandU _ => some (vRun .randU) | .vRandN _ => some (vRun .randN) | .vDropout _ => some (vRun .dropout)
  | .vRandBits _ => some (vRun .randBits)
  | .rowSoftmax _ => some (rRun .softmax) | .rowSoftmaxBwd _ => some (rRun .softmaxBwd) | .rowXent _ => some (rRun .xent)
  | .rowXentBwd _ => some (rRun .xentBwd) | .rowLnorm _ => some (rRun .lnorm) | .rowLnormBwd _ => some (rRun .lnormBwd)
  | .rowRmsnorm _ => some (rRun .rms) | .rowRmsnormBwd _ => some (rRun .rmsBwd) | .rowTagClose _ => some (rRun .tagClose)
  | _ => none

/-- The state in which descriptor d of kind k has been issued at core n of s: u holds what it did besides; its entry joins the
window, the serial number goes on, and the cursor moves past it. -/
def State.afterIssue (s u : State) (n : Nat) (k : Kind) (d : Desc) (st : EntryState) (fs : List FaultAt)
    (push : Option LoopLevel) : State :=
  (u.onCore n fun c => c.pushEntry (s.entryOf n k d st fs)).moveOn n push

/-! Batons (R323-R326). -/

/-- The type of a baton's command, and its baton. -/
def rowBaton : Instr → Option (Nat × Baton)
  | .user b => some (1, b) | .loss b => some (2, b) | .hurdleArrive b => some (3, b) | .hurdleRelease b => some (4, b)
  | .bktPart b => some (5, b) | .bktAck b => some (6, b) | .bktClosed b => some (7, b) | .bktGather b => some (8, b)
  | .verdict b => some (9, b) | .digest b => some (0xA, b) | .lapDone b => some (0xB, b) | .lapGo b => some (0xC, b)
  | .withdraw b => some (0xD, b)
  | _ => none

/-- The next baton of its source expected. -/
def State.expectNext (s : State) (b : Baton) : State :=
  s.onSch fun c => { c with expectNo := Store.set 0 c.expectNo b.src.toNat ((s.expected b.src.toNat + 1) % 65536) }

/-- The state after a baton was settled in u: held batons that it has freed are taken up, first those of its source. -/
def State.takeFreed (u : State) (b : Baton) : State :=
  let v := u.drainAhead b.src.toNat u.sch.held.length
  v.takeHeld v.sch.held.length

/-- A baton comes to an SCH that serves, with a place in the receive queue, and is the next of its source (R324, R326). -/
def State.nextBaton (s : State) (b : Baton) : Bool :=
  s.power.mod = 2 && s.enabled pgSch && s.batonRoom b && b.seq.toNat = s.expected b.src.toNat

/-! Packets (R398). -/

/-- The type, the port and the packet of a packet's command. -/
def rowPacket : Instr → Option (Nat × Nat × Packet)
  | .credit p k => some (1, p.val, k) | .rdReq p k => some (2, p.val, k) | .rdData p k => some (3, p.val, k)
  | .crdData p k => some (4, p.val, k) | .wrData p k => some (5, p.val, k) | .wrLast p k => some (6, p.val, k)
  | .cwrData p k => some (7, p.val, k) | .cwrLast p k => some (8, p.val, k) | .wrAck p k => some (9, p.val, k)
  | .rdErr p k => some (0xA, p.val, k) | .regRd p k => some (0xB, p.val, k) | .regWr p k => some (0xC, p.val, k)
  | .regData p k => some (0xD, p.val, k)
  | _ => none

/-! The anti-rollback fuses (R496, R498). -/

/-- `F` and the `SVN` that runs are at most 64. -/
def State.svnFits (s : State) : Prop := s.trb.fuseF ≤ 64 ∧ s.trb.svn ≤ 64

/-- The fuses stay, or take a commit: the image did not boot by fallback, its `SVN` exceeds F, F becomes that `SVN`, and only
slots that its `REVOKE` names, its own `KSLOT` apart, are revoked besides those that were. -/
def State.fusesTo (s t : State) : Prop :=
  (t.trb.fuseF = s.trb.fuseF ∧ t.trb.revoked = s.trb.revoked) ∨
    (s.trb.fallback = false ∧ s.trb.fuseF < s.trb.svn ∧ t.trb.fuseF = s.trb.svn ∧
      (∀ k ∈ s.trb.revoked, k ∈ t.trb.revoked) ∧
      ∀ k ∈ t.trb.revoked, k ∈ s.trb.revoked ∨ (k < 4 ∧ s.trb.revoke.testBit k = true ∧ k ≠ s.trb.kslot))

end Sys2Proof.Machine
end

