-- ==== Sys2Proof/Certificates/Slice0/Obligations.lean ====
section
/-!
DEFINITION. The statements for the provers.
-/
open Sys2Proof Sys2Proof.Machine

/-! The queue and time. -/

/-- A step takes the command at the front of the queue: it is `exec` of that command on the state with the queue's rest. -/
def Obligations.StepTakesFrontCommand : Prop :=
  ∀ (c : Instr) (rest : List Instr) (s : State), s.pending = c :: rest → step s = exec c { s with pending := rest }

/-- With no command waiting a step lets 1 ns pass: before the reference oscillator runs (module state 0, OFF or reset) nothing
changes; else `DEV_TIME` counts one (R22; that a step on an empty queue is 1 ns is the model's choice, log 1). -/
def Obligations.EmptyQueueLetsTimePass : Prop :=
  ∀ s : State, s.pending = [] → ∃ t, step s = .next t ∧ t.pending = [] ∧ (s.power.mod = 0 → t = s) ∧
    (s.power.mod = 1 → t.dev.time = s.dev.time + 1)

/-- No command touches the commands that wait behind it, nor the part's order number. -/
def Obligations.CommandLeavesQueueRestAndVariant : Prop :=
  ∀ (c : Instr) (s t : State), exec c s = .next t → t.pending = s.pending ∧ t.dev.variant = s.dev.variant

/-- Every command but `BOUNDARY_SCAN` completes in every state, whatever its operands: `exec` answers a next state, with the queue's
rest and the order number unchanged. No rule gives a command an outcome that stops the block; the one refusal of the model is that
of `BOUNDARY_SCAN` on a debug path (R502), which `BoundaryScanIsAlwaysOffered` states. What each command's next state holds is
stated family by family below. -/
def Obligations.EveryCommandCompletes : Prop :=
  ∀ (c : Instr) (s : State), (∀ ir dr, c ≠ .boundaryScan ir dr) →
    ∃ t, exec c s = .next t ∧ t.pending = s.pending ∧ t.dev.variant = s.dev.variant

/-! The anti-rollback fuses. -/

/-- R498: over every step of the block, whatever the command, F and the revocation fuses stay as they are or take one commit, and no
fuse is cleared; a host write of `COMMIT`, and an `ActivateFirmware` that asks for it, is a commit, which blows fuses until F equals
the running control image's `SVN` and the revocation fuse of every slot that `REVOKE` names, its own `KSLOT` apart; it is
refused, and sets `ERR_STATUS.COMMIT_REFUSED`, where the image booted by fallback or its `SVN` does not exceed F. -/
def Obligations.FusesOnlyTakeCommits : Prop :=
  (∀ s t : State, step s = .next t →
    (t.trb.fuseF = s.trb.fuseF ∧ t.trb.revoked = s.trb.revoked) ∨
      (s.trb.fallback = false ∧ s.trb.fuseF < s.trb.svn ∧ t.trb.fuseF = s.trb.svn ∧
        (∀ k ∈ s.trb.revoked, k ∈ t.trb.revoked) ∧
        ∀ k ∈ t.trb.revoked, k ∈ s.trb.revoked ∨ (k < 4 ∧ s.trb.revoke.testBit k = true ∧ k ≠ s.trb.kslot))) ∧
  (∀ s : State, s.trb.fallback = false → s.trb.fuseF < s.trb.svn →
    s.svnCommit.trb.fuseF = s.trb.svn ∧
    (∀ k, k ∈ s.svnCommit.trb.revoked ↔ k ∈ s.trb.revoked ∨ (k < 4 ∧ s.trb.revoke.testBit k = true ∧ k ≠ s.trb.kslot))) ∧
  (∀ s : State, s.trb.fallback = true ∨ s.trb.svn ≤ s.trb.fuseF → s.svnCommit = s.errSet pgTrb 3) ∧
  (∀ (v : Word) (s : State), s.accepts .host pgTrb 0x108 = true → bit v 0 = true →
    exec (.trbSvnCommit .host v) s = .next s.svnCommit) ∧
  (∀ s : State, s.mgcUp = true → s.mgc.update = 5 → s.trb.booted = true → ∃ t : State,
    (t.trb.fuseF = s.trb.fuseF ∧ t.trb.svn = s.trb.svn ∧ t.trb.revoked = s.trb.revoked ∧ t.trb.fallback = s.trb.fallback ∧
      t.trb.revoke = s.trb.revoke ∧ t.trb.kslot = s.trb.kslot) ∧
    exec (.activateFirmware true) s = .next ((t.svnCommit.setUpdate 0).mgmtOk [0, 0]))

/-- Every step keeps F and the running image's `SVN` within the 64 fuses (R496). -/
def Obligations.SecurityVersionBounded : Prop :=
  ∀ s t : State, s.trb.fuseF ≤ 64 ∧ s.trb.svn ≤ 64 → step s = .next t → t.trb.fuseF ≤ 64 ∧ t.trb.svn ≤ 64

/-- The bound of `SecurityVersionBounded` holds after reset. -/
def Obligations.SecurityVersionBoundedAtReset : Prop := State.reset.trb.fuseF ≤ 64 ∧ State.reset.trb.svn ≤ 64

/-! Reset. -/

/-- After reset the module is in STANDBY (R522), no list runs, no stream is armed, nothing is in service, no run is active and
the queue is empty, and the registers whose reset value the register tables of chapters 10, 13, 14, 15, 16, 17, 18, 20 and 21
give hold it. -/
def Obligations.ResetHoldsStatedValues : Prop :=
  State.reset.pending = [] ∧ State.reset.power.mod = 1 ∧ State.reset.power.standby = true ∧
    State.reset.trb.booted = false ∧ State.reset.ctl.released = false ∧ State.reset.runActive = false ∧
    (∀ n, (State.reset.core n).seq.st = .idle ∧ (State.reset.core n).seq.inflight = 0) ∧
    (∀ n k, (State.reset.stu n k).st = .idle) ∧
    (∀ x ∈ ([(0, 0x180, 0x30000000), (0, 0x1E0, 1800), (1, 0x100, 0xF), (2, 0x100, 0xF), (4, 0x100, 1800), (4, 0x11C, 0x6010100C),
        (4, 0x128, 1000), (5, 0x100, 1900), (5, 0x104, 1), (6, 0x100, 1900), (7, 0x100, 95), (0xA, 0x100, 2), (0xA, 0x108, 10),
        (0xA, 0x130, 100), (0x20, 0x108, 65536), (0x40, 0x100, 0x0002040A), (0x40, 0x118, 2000), (0x40, 0x300, 0x200),
        (0x50, 0x11C, 4096), (0x50, 0x120, 16), (0x50, 0x124, 50000), (0x52, 0x114, 0x3F800000), (0x52, 0x118, 64),
        (0x60, 0x134, 5000), (0x60, 0x138, 10000), (0x44, 8, 0), (0x60, 8, 0), (0x40, 8, 1), (0x100, 8, 1)] : List (Nat × Nat × Nat)),
      State.reset.reg x.1 x.2.1 = BitVec.ofNat 32 x.2.2) ∧
    Memory.wf State.reset = true

/-! Registers. -/

/-- The common access types (R10, R12, R528) of a write of one register by its address: an RO or RC register ignores it; a W1C
register clears the bits written as 1 among those that the table names and keeps the rest; an RW register of a page whose plain
registers have no rule of their own takes the table's bits of the value where the table's condition lets it, and keeps its other
bits; a host's write of a firmware-only register is dropped. Nothing else changes, in any of these. -/
def Obligations.RegisterWriteByAccessType : Prop :=
  ∀ (r : Requester) (a : BitVec 26) (v : Quad) (row : RegRow) (s : State),
    let p := a.toNat / 65536
    let off := a.toNat % 65536
    let w : Word := v.truncate 32
    a.toNat % 4 = 0 → regRow p off = some row →
    (s.accepts r p off = true → (row.acc = .ro ∨ row.acc = .rc) → exec (.registerWrite r a 4 v) s = .next s) ∧
    (s.accepts r p off = true → ∀ m, row.acc = .w1c m →
      exec (.registerWrite r a 4 v) s = .next (s.setReg p off (s.reg p off &&& ~~~ (w &&& BitVec.ofNat 32 m)))) ∧
    (s.accepts r p off = true → ∀ m, row.acc = .rw m →
      p ≠ 0 → p ≠ 1 → p ≠ 2 → p ≠ pgFlm → p ≠ pgMde → p ≠ pgSch → s.takes p off w = true →
      exec (.registerWrite r a 4 v) s =
        .next (s.setReg p off ((s.reg p off &&& ~~~ BitVec.ofNat 32 m) ||| (w &&& BitVec.ofNat 32 m)))) ∧
    (s.reachable p off = true → row.fw = true → exec (.registerWrite .host a 4 v) s = .next s)

/-- A read by address (R10): the requester is answered with the register's value; an RC register then reads 0, in its stored word
or among the counters of its core; no other register's read changes anything but for the latched pairs of R22 and the claim
registers of R436. -/
def Obligations.ReadAnswersAndClears : Prop :=
  ∀ (r : Requester) (a : BitVec 26) (row : RegRow) (s : State),
    let p := a.toNat / 65536
    let off := a.toNat % 65536
    a.toNat % 4 = 0 → s.reachable p off = true → regRow p off = some row →
    latchOf p off = none → ¬ ((p = 1 ∨ p = 2) ∧ 0x400 ≤ off ∧ off < 0x490 ∧ off % 16 = 0) →
    (row.acc ≠ .rc → exec (.readClear r a 4) s = .next (s.reply r (some (s.regValue p off)))) ∧
    (row.acc = .rc → p < 0x100 → exec (.readClear r a 4) s = .next ((s.setReg p off 0).reply r (some (s.regValue p off)))) ∧
    (row.acc = .rc → 0x100 ≤ p → 0x100 ≤ off →
      exec (.readClear r a 4) s =
        .next ((s.onCore (p - 0x100) fun c => c.setCounter off 0).reply r (some (s.regValue p off))))

/-- DEV_TIME_LO_READ, PWC_ENERGY_LO_READ and DEV_TCAP_LO_READ (R22): the low word is answered, and the high word of the same
count is latched for that requester alone. Nothing else changes. -/
def Obligations.LowWordReadLatchesHighWord : Prop :=
  ∀ (r : Requester) (s : State),
    let answered := fun (i n : Nat) =>
      let l := Store.set 0 s.dev.latches (16 * i + Requester.index r) (BitVec.ofNat 32 (n / 2 ^ 32))
      ({ s with dev := { s.dev with latches := l } }).reply r (some (BitVec.ofNat 32 n))
    (s.reachable 0 0x110 = true → exec (.devTimeLoRead r) s = .next (answered 0 s.dev.time)) ∧
    (s.reachable 4 0x120 = true → exec (.pwcEnergyLoRead r) s = .next (answered 1 (s.dev.energy / 1000000))) ∧
    (s.reachable 0 0x1E4 = true → exec (.devTcapLoRead r) s = .next (answered 2 s.dev.tcap))

/-! Islands. -/

/-- PAGE_LOCK, SOFT_RESET and PAGE_ENABLE_WRITE (R462, R529, R530): `LOCK` written as 1 sets; `SOFT_RESET` of a disabled idle
unit returns its block to the reset values; clearing `ENABLE` of an island that is ON clears `ENABLED` and starts the
shut-down. -/
def Obligations.PageControlWrites : Prop :=
  ∀ (r : Requester) (p : Fin 1024) (v : Word) (s : State),
    (s.accepts r p.val 0x30 = true → bit v 0 = true → exec (.pageLock r p v) s = .next (s.setRegBit p.val 0x30 0 true)) ∧
    (s.accepts r p.val 8 = true → v = 2 → (s.setRegBit p.val 8 4 false).enabled p.val = false →
      (s.setRegBit p.val 8 4 false).busy p.val = false → (s.setRegBit p.val 8 4 false).island p.val = 0 →
      exec (.softReset r p v) s = .next (((s.setRegBit p.val 8 4 false).blockReset p.val).enableWrite p.val false)) ∧
    (s.accepts r p.val 8 = true → powersIsland p.val = true → v = 0 →
      bit ((s.setRegBit p.val 8 4 false).reg p.val 8) 0 = true →
      exec (.pageEnableWrite r p v) s = .next
        ((((s.setRegBit p.val 8 4 false).setRegBit p.val 8 0 false).setRegBit p.val 0xC 0 false).setIsland p.val 1))

/-- SHUTDOWN_COMPLETE, POWER_UP_COMPLETE, RETENTION_ENTRY and ISLAND_THAW (R460-R462): an island shutting down with nothing in
flight goes OFF and loses its contents, or powers up where an enable is pending; one powering up comes ON with `ENABLED` set,
`PENDING_ON` clear and the power-up event raised; one that may frost and has been idle for the set time enters RETENTION; one in
RETENTION returns to ON. -/
def Obligations.IslandTransitions : Prop :=
  ∀ (p : Fin 1024) (s : State),
    (s.present p.val = true → s.island p.val = 1 → s.inFlight p.val = false →
      exec (.shutdownComplete p) s = .next ((s.loseBlock p.val).setIsland p.val (if bit (s.reg p.val 0xC) 4 then 3 else 2))) ∧
    (s.present p.val = true → s.island p.val = 3 → bit (s.reg p.val 8) 0 = true →
      exec (.powerUpComplete p) s = .next
        (((((s.setRegBit p.val 0xC 4 false).setRegBit p.val 0xC 0 true).setIsland p.val 0)).raise (5 + halfOf p.val) 0)) ∧
    (s.power.mod = 2 → s.present p.val = true → p.val ≠ 1 → p.val ≠ 2 → s.island p.val = 0 → bit (s.reg p.val 8) 4 = true →
      s.islandIdle p.val = true → Store.get 0 s.busyAt p.val + 1000 * (s.reg 4 0x128).toNat ≤ s.dev.time →
      exec (.retentionEntry p) s = .next (s.setIsland p.val 4)) ∧
    (s.power.mod = 2 → s.present p.val = true → s.island p.val = 4 → exec (.islandThaw p) s = .next (s.setIsland p.val 0))

/-! Lists and descriptors. -/

/-- A control descriptor that may issue and shows no fault issues (R122, R128, R132-R137, R150, R328): NOP and WAIT do nothing
besides; LOOP pushes its level; SIGNAL sends its addition on its way; HURDLE records the core's arrival; EVENT keeps its code and
raises a core event; HIST_CFG clears its slot and sets its base as its bits say; BATON_WAIT completes where its channel has
reached its value, else it waits. Each joins the window and the cursor moves past it; nothing else changes. -/
def Obligations.ControlDescriptorsIssue : Prop :=
  ∀ (x : Fin 136) (d : Desc) (s : State),
    let n := x.val
    let c := s.core n
    (s.issuable n nopKind = some d → nopKind.faults s n d = [] →
      exec (.nop x) s = .next (s.afterIssue s n nopKind d .run [] none)) ∧
    (s.issuable n loopKind = some d → loopKind.faults s n d = [] →
      exec (.loop x) s = .next (s.afterIssue s n loopKind d .run []
        (some ⟨dfld d 8 9 0, c.seq.cursor + 1, dfld d 8 31 16, 0⟩))) ∧
    (s.issuable n waitKind = some d → waitKind.faults s n d = [] →
      exec (.wait x) s = .next (s.afterIssue s n waitKind d .run [] none)) ∧
    (s.issuable n signalKind = some d → signalKind.faults s n d = [] →
      exec (.signal x) s = .next (s.afterIssue (s.sendSignals [⟨n, dfld d 8 6 0, dfld d 8 11 8, dfld d 8 31 16,
        dbit d 8 12, if dbit d 8 12 then some (n, c.seq.serial) else none⟩]) n signalKind d .run [] none)) ∧
    (s.issuable n hurdleKind = some d → hurdleKind.faults s n d = [] →
      exec (.hurdle x) s = .next (s.afterIssue (s.arrive (dfld d 8 5 0) ((s.lcoreOf n).getD 128)).1 n hurdleKind d
        (s.arrive (dfld d 8 5 0) ((s.lcoreOf n).getD 128)).2 [] none)) ∧
    (s.issuable n eventKind = some d → eventKind.faults s n d = [] →
      exec (.event x) s = .next (s.afterIssue
        ((s.setCore n { c with seq := { c.seq with eventCode := dfld d 8 31 16 } }).raise (pgCore n) (2 + dfld d 8 0 0))
        n eventKind d .run [] none)) ∧
    (s.issuable n histCfgKind = some d → histCfgKind.faults s n d = [] →
      exec (.histCfg x) s = .next (s.afterIssue (s.setCore n
        (let c1 := if dbit d 8 4 then c.histClear (dfld d 8 3 0) else c
         if dbit d 8 5 then { c1 with histBase := Store.set (-40) c1.histBase (dfld d 8 3 0) (signedOf 9 (dfld d 8 24 16)) }
         else c1)) n histCfgKind d .run [] none)) ∧
    (s.issuable n batonWaitKind = some d → batonWaitKind.faults s n d = [] →
      exec (.batonWait x) s = .next (s.afterIssue s n batonWaitKind d
        (if reached (s.chan (dfld d 8 5 0)).count (dfld d 0x10 15 0) then .run else .wait) [] none))

/-- HIST_STORE to SPD without merging writes the slot's 320-byte image at its offset, and clears the slot where its bit 5 says so
(R137); BATON_SEND of type 0 hands a user baton with its value and channel to the SCH, and of type 1 leaves a bucket-local baton
for it (R328, R332). Each joins the window and the cursor moves past it; nothing else changes. -/
def Obligations.HistStoreAndBatonSendIssue : Prop :=
  ∀ (x : Fin 136) (d : Desc) (s : State),
    let n := x.val
    let c := s.core n
    let k := dfld d 8 3 0
    (s.issuable n histStoreKind = some d → histStoreKind.faults s n d = [] → dbit d 0x10 63 = true → dbit d 8 4 = false →
      exec (.histStore x) s = .next (s.afterIssue
        (s.setCore n ((if dbit d 8 5 then c.histClear k else c).write (dfld d 0x10 55 0) (c.histImage k)))
        n histStoreKind d .run [] none)) ∧
    (s.issuable n batonSendKind = some d → batonSendKind.faults s n d = [] → dfld d 8 25 24 = 0 →
      exec (.batonSend x) s = .next (s.afterIssue
        (s.handBaton (s.newBaton 1 c.ctx (dfld d 8 10 0) (dfld d 0x10 31 0) (dfld d 8 21 16))) n batonSendKind d .run [] none)) ∧
    (s.issuable n batonSendKind = some d → batonSendKind.faults s n d = [] → dfld d 8 25 24 = 1 →
      exec (.batonSend x) s = .next (s.afterIssue
        { s with sch := { s.sch with locals := s.sch.locals ++ [(dfld d 0x10 63 48, dfld d 0x10 47 32)] } }
        n batonSendKind d .run [] none))

/-- HALT (R134): it may issue only once no issued descriptor is incomplete. It then writes its code into `CORE_HALT_CODE`, sets
the list to HALTED and raises the list-done event; its `SEN` counts, its window is empty and nothing else changes. From then on no
descriptor of the list may issue, so nothing further is fetched. -/
def Obligations.HaltEndsList : Prop :=
  ∀ (x : Fin 136) (d : Desc) (s : State),
    let n := x.val
    let c := s.core n
    let t := (s.setCore n
      { (if Dsc.sen d then c.addDep (Dsc.sctr d) 1 else c) with
        seq := { c.seq with haltCode := dfld d 8 15 0, st := .halted, window := [], walk := [], serial := c.seq.serial + 1 } }).raise
      (pgCore n) 0
    s.issuable n haltKind = some d →
      c.seq.inflight = 0 ∧ (haltKind.faults s n d = [] → exec (.halt x) s = .next t ∧ ∀ k, t.issuable n k = none)

/-- Each of the 36 matrix, vector and row descriptors that may issue, shows no fault, and names no bank on which a descriptor has
failed, runs as its own description says (06, 07, 08): its core becomes what the run makes of it, with the entry in the window
that carries the faults of the run, and the cursor moves past it; the operating points of its island group are shared out
again (R451). -/
def Obligations.EngineDescriptorsRun : Prop :=
  ∀ (i : Instr) (n : Nat) (k : Kind) (run : Core → Env → Desc → RunRes) (d : Desc) (s : State),
    issueRow i = some (n, k) → runRow i = some run → s.issuable n k = some d → k.faults s n d = [] →
    (∀ b, k.bank d = some b → (s.core n).bankFails b.1 = false) →
    let r := run (s.core n) (s.env n) d
    exec i s = .next ((s.afterIssue { s.setCore n r.core with free := s.free + r.drawn } n k d .run r.faults none).rebalance (n / 4))

/-- What a matrix, vector or row descriptor's command leaves as it was, however it ends: every other core site, both memory
tiers, the registers but `PWC_GRPg` of its island group, the events raised, signals, links, transactions, runs and every other
unit; only its core, the operating points with the power measured, and the count of free values drawn may change (R451). -/
def Obligations.EngineDescriptorFrame : Prop :=
  ∀ (i : Instr) (n : Nat) (k : Kind) (run : Core → Env → Desc → RunRes) (s t : State),
    issueRow i = some (n, k) → runRow i = some run → exec i s = .next t →
    (∀ m, m ≠ n → t.core m = s.core m) ∧ t.tiers = s.tiers ∧
      (∀ p off, regKey p off ≠ regKey (5 + n / 4 / 17) (0x200 + 4 * (n / 4 % 17)) → t.reg p off = s.reg p off) ∧
      t.raised = s.raised ∧ t.signals = s.signals ∧ t.links = s.links ∧ t.txns = s.txns ∧ t.sent = s.sent ∧
      t.runs = s.runs ∧ t.hvu = s.hvu ∧ t.sch = s.sch ∧ t.kvd = s.kvd ∧ t.input = s.input ∧ t.islands = s.islands ∧ t.evh = s.evh ∧ t.ctl = s.ctl ∧ t.flm = s.flm ∧ t.trb = s.trb ∧
      t.mgc = s.mgc ∧ t.dev = s.dev ∧ t.pending = s.pending

/-- A fault at issue (R142, R143): of a control, matrix, vector or row descriptor that shows one, nothing is executed; its entry
joins the window as faulted with the faults found, and the list stops issuing. Nothing else changes. And a command whose
descriptor may not issue now has no effect (log 2). -/
def Obligations.FaultAtIssueStopsList : Prop :=
  ∀ (i : Instr) (n : Nat) (k : Kind) (s : State), issueRow i = some (n, k) →
    (∀ d, s.issuable n k = some d → k.faults s n d ≠ [] →
      exec i s = .next (s.onCore n fun c =>
        let c1 := c.pushEntry (s.entryOf n k d .faulted (k.faults s n d))
        { c1 with seq := { c1.seq with faultStop := true } })) ∧
    (s.issuable n k = none → exec i s = .next s)

/-- What the array descriptors write to SPD (R158-R168): MM, MM_DW, ACC_RESUME and ACC_CLEAR leave every byte of their core's SPD
as it was, and ACC_SPILL every byte outside the 49,216 bytes of the buffer that its descriptor names; a command that does not
issue, or whose descriptor shows a fault, leaves all of them. -/
def Obligations.ArrayDescriptorsSpdFrame : Prop :=
  ∀ (x : Fin 136) (a : Nat) (s t : State),
    let n := x.val
    ((exec (.mm x) s = .next t ∨ exec (.mmDw x) s = .next t ∨ exec (.accResume x) s = .next t ∨ exec (.accClear x) s = .next t) →
      (t.core n).byte a = (s.core n).byte a) ∧
    (∀ d, s.issuable n spillKind = some d → exec (.accSpill x) s = .next t →
      (a < dfld d 0x10 20 0 ∨ dfld d 0x10 20 0 + 49216 ≤ a) → (t.core n).byte a = (s.core n).byte a) ∧
    (s.issuable n spillKind = none → exec (.accSpill x) s = .next t → (t.core n).byte a = (s.core n).byte a)

/-- SIGNAL_DELIVERY (R20, R128, R130, R135): the n-th signal on its way, where nothing that it waits behind is unfinished and
no earlier one of its sender to its receiver is still on its way, leaves the way and adds its number to the named dependency
counter, modulo 65,536. An island of that core that lies in RETENTION is ON again (R461). That counter's core, its island and the
signals are all that changes. -/
def Obligations.SignalAddsToCounter : Prop :=
  ∀ (n : Nat) (g : Signal) (s : State), s.signals[n]? = some g → s.signalFree g = true →
    (∀ h ∈ s.signals.take n, h.sender = g.sender → h.lcore ≠ g.lcore) →
    ∃ t, exec (.signalDelivery n) s = .next t ∧
      (t.core (s.siteOf g.lcore)).depCtr g.ctr = ((s.core (s.siteOf g.lcore)).depCtr g.ctr + g.add) % 65536 ∧
      t = { s with signals := s.signals.eraseIdx n, cores := t.cores, islands := t.islands } ∧
      (∀ p, t.island p = if p = pgCore (s.siteOf g.lcore) ∧ s.island p = 4 then 0 else s.island p) ∧
      (∀ m, m ≠ s.siteOf g.lcore → t.core m = s.core m) ∧
      t.core (s.siteOf g.lcore) = (s.core (s.siteOf g.lcore)).addDep g.ctr g.add

/-- HURDLE_OPEN and HURDLE_TIMEOUT (R136, R328, R330): a hurdle at which every local participant has arrived opens if it has
no other device; else its root records this device, and another device sends its arrival to the root once, as a `HURDLE_ARRIVE`
baton with the generation and the number. A wait of HURDLE or
BATON_WAIT that passes its limit faults with `HURDLE_TIMEOUT`, and a HURDLE keeps its core's arrival for a later issue. -/
def Obligations.HurdleOpensOrTimesOut : Prop :=
  ∀ (h : Fin 64) (x : Fin 136) (serial : Nat) (e : InFlight) (s : State),
    let y := s.hurdleOf h.val
    (s.power.mod = 2 → s.enabled pgSch = true → y.valid = true → s.allArrived h.val = true →
      (y.ndev ≤ 1 → exec (.hurdleOpen h) s = .next (s.releaseHurdle h.val)) ∧
      (1 < y.ndev → y.root = s.ownId → s.ownId ∉ y.devices → exec (.hurdleOpen h) s =
        .next ((s.setHurdle h.val { y with devices := y.devices ++ [s.ownId] }).rootCheck h.val)) ∧
      (1 < y.ndev → y.root ≠ s.ownId → y.sent = false → exec (.hurdleOpen h) s =
        .next ((s.setHurdle h.val { y with sent := true }).sendBaton 3 y.ctx y.root (y.gen * 2 ^ 16 + h.val) 0))) ∧
    ((s.core x.val).seq.entry serial = some e → e.st = .wait → e.since + s.waitLimit e.desc ≤ s.dev.time →
      let t := (s.onCore x.val fun c => c.faultEntry serial (.plain .hurdleTimeout)).raiseFault x.val e
      (Dsc.opcode e.desc = 7 → exec (.hurdleTimeout x serial) s = .next t) ∧
      (Dsc.opcode e.desc = 5 → exec (.hurdleTimeout x serial) s = .next (t.setHurdle (dfld e.desc 8 5 0)
        { t.hurdleOf (dfld e.desc 8 5 0) with
          late := (t.hurdleOf (dfld e.desc 8 5 0)).late ++ [(s.lcoreOf x.val).getD 128] })))

/-- The stream descriptors that may issue and show no fault (R229-R238): a direct S_ARM begins a pass on a context that is IDLE
or whose pass is complete and else becomes the shadow, an indirect one on an IDLE context starts the fetch of its descriptor and
waits; S_LOAD and S_STORE, with no tile left from a faulted issue, queue `CNT` tiles of the current descriptor and wait;
S_ACQUIRE takes the next slot and with `REBASE` writes its offset into the tensor entry; S_RELEASE is recorded and waits;
S_DISARM of an IDLE context completes, else it waits and, once no load of the context runs, puts it into DISARMING. Each joins
the window, the cursor moves past it, and what may start in the contexts of the core starts; with a load or store the
operating points of the island group are shared out again (R451). -/
def Obligations.StreamDescriptorsIssue : Prop :=
  ∀ (x : Fin 136) (d : Desc) (s : State),
    let n := x.val
    let k := scx d
    let u := s.stu n k
    let c := s.core n
    let after := fun (t : State) (kind : Kind) (st : EntryState) => (s.afterIssue t n kind d st [] none).startTiles n k
    let busy := s.onCore n fun c => c.countSat 0x508 1
    (s.issuable n armKind = some d → armKind.faults s n d = [] → armIndir d = false → u.st = .idle →
      exec (.sArm x) s = .next (after ((s.setStuCtx n k (u.beginPass (armDesc d))).startTiles n k) armKind .run)) ∧
    (s.issuable n armKind = some d → armKind.faults s n d = [] → armIndir d = false → u.st ≠ .idle → u.passDone = false →
      exec (.sArm x) s = .next (after (busy.setStuCtx n k { busy.stu n k with shadow := some (armDesc d) }) armKind .run)) ∧
    (s.issuable n armKind = some d → armKind.faults s n d = [] → armIndir d = true → u.st = .idle →
      exec (.sArm x) s = .next (after
        (s.setStuCtx n k { u with st := .active, fetch := some (armLoc d, some c.seq.serial) }) armKind .wait)) ∧
    (∀ code dir sd, (code, dir) ∈ [(0x61, 0), (0x62, 1)] → s.issuable n (loadKind code dir) = some d →
      (loadKind code dir).faults s n d = [] → tiPoison c (s.env n) d [0] = none → c.staleTiles k = [] → u.cur = some sd →
      exec (if dir = 0 then .sLoad x else .sStore x) s = .next (((s.afterIssue (s.setStuCtx n k { u.step sd (ldCnt d) with
        started := u.started + ldCnt d,
        tiles := u.tiles ++ (List.range (ldCnt d)).map fun i =>
          ⟨sd, u.pos + i, u.started + i, (c.ti (s.env n) d 0).base + i * Sd.bytes sd, dbit d 8 11, some c.seq.serial, .queued,
            false, false, false⟩ }) n (loadKind code dir) d .wait [] none).rebalance (n / 4)).startTiles n k)) ∧
    (s.issuable n acquireKind = some d → acquireKind.faults s n d = [] →
      exec (.sAcquire x) s = .next (after (acquireAct s n c.seq.serial d).1 acquireKind .run)) ∧
    (s.issuable n releaseKind = some d → releaseKind.faults s n d = [] →
      exec (.sRelease x) s = .next (after (s.setStuCtx n k { u with relRec := u.relRec + relN d }) releaseKind .wait)) ∧
    (s.issuable n disarmKind = some d → disarmKind.faults s n d = [] → u.st = .idle →
      exec (.sDisarm x) s = .next (after s disarmKind .run)) ∧
    (s.issuable n disarmKind = some d → disarmKind.faults s n d = [] → u.st ≠ .idle →
      let t := s.setStuCtx n k { u with disarmer := some c.seq.serial }
      exec (.sDisarm x) s = .next (after
        (if c.loadsEnded k then (t.onStu n k (StuCtx.disarm false)).startTiles n k else t) disarmKind .wait))

/-- What S_ACQUIRE writes (R235): with `REBASE` the eight bytes at the start of its tensor-table entry, else nothing; the rest of
the core's SPD stays. -/
def Obligations.AcquireWritesTensorEntryOnly : Prop :=
  ∀ (x : Fin 136) (d : Desc) (a : Nat) (s t : State),
    let n := x.val
    let e := 0x17E000 + 32 * tensorIndex d (s.env n).loops 0
    s.issuable n acquireKind = some d → exec (.sAcquire x) s = .next t →
    (dbit d 8 12 = false ∨ a < e ∨ e + 8 ≤ a) → (t.core n).byte a = (s.core n).byte a

/-- What happens in a stream context (R228-R243): the fetch of an arm or of a chained descriptor ends and begins the pass, keeps
the shadow or stands ahead (a page that it reads turns young, R271), a release takes effect
once all before it have completed, a tile that may end moves its bytes and is settled, or ends faulted with its destination
undefined, a complete pass gives way to the shadow or leaves the context IDLE once drained, and a disarm completes, with releases
of its ring that have no effect yet freeing nothing any more. An IDLE context keeps the last fault that it shows (R247). -/
def Obligations.StreamEventsTakeEffect : Prop :=
  ∀ (x : Fin 136) (c i : Fin 8) (serial p : Nat) (l : StreamLoc) (d : StreamDesc) (t : Tile) (e : InFlight) (f : FaultCode)
      (s : State),
    let n := x.val
    let u := s.stu n c.val
    (u.fetch = some (l, some serial) → s.fetchSd n l = .ok d → s.streamFaults (s.core n).ctx d = [] →
      shadowBad u.first d = false → u.st ≠ .disarming →
      exec (.sArmFetchDone x c) s = .next ((((s.fetchTouch l).setStuCtx n c.val ({ u with fetch := none }.beginPass d)).onCore n
        fun k => k.readyEntry serial).startTiles n c.val)) ∧
    (u.fetch = none → u.shadowFetch = some (l, serial) → s.fetchSd n l = .ok d → s.streamFaults (s.core n).ctx d = [] →
      shadowBad u.first d = false → u.st = .active → u.cur ≠ none →
      exec (.sArmFetchDone x c) s = .next ((((s.fetchTouch l).setStuCtx n c.val { u with shadowFetch := none, shadow := some d }).onCore
        n fun k => k.readyEntry serial).startTiles n c.val)) ∧
    (u.fetch = some (l, none) → s.fetchSd n l = .ok d → s.streamFaults (s.core n).ctx d = [] → chainBad u.first d = false →
      Sd.ring d = false → u.cur ≠ none →
      exec (.chainFetchDone x c) s =
        .next (((s.fetchTouch l).setStuCtx n c.val { u with fetch := none, ahead := some d }).startTiles n c.val)) ∧
    ((s.core n).seq.entry serial = some e → Dsc.opcode e.desc = 0x64 → e.st = .wait → e.unit = 6 →
      ((s.core n).seq.window.all fun v => serial ≤ v.serial || v.st = .done) = true →
      exec (.releaseEffect x serial) s = .next (((s.onStu n (scx e.desc) fun v =>
        if Sd.dir v.first = 1 then { v with tail := v.tail + relN e.desc } else { v with head := v.head + relN e.desc }).onCore n
          fun k => k.readyEntry serial).startTiles n (scx e.desc))) ∧
    (u.movingAt i.val = some p → u.tiles[p]? = some t → s.tileEnd n c.val t = .ok →
      exec (.tileComplete x c i) s = .next (((s.moveTile n c.val t).onTile n c.val p fun t => { t with st := .moved }).stuSettle
        n c.val t.owner)) ∧
    (u.movingAt i.val = some p → u.tiles[p]? = some t → s.tileEnd n c.val t = .fault f →
      exec (.tileFault x c i) s = .next ((s.failTile n c.val p t f).stuSettle n c.val t.owner)) ∧
    (u.passDone = true → u.shadow = some d →
      exec (.passComplete x c) s = .next ((s.setStuCtx n c.val ({ u with shadow := none }.beginPass d)).startTiles n c.val)) ∧
    (u.passDone = true → u.shadow = none → u.shadowFetch = none → u.drained = true →
      exec (.passComplete x c) s = .next (s.setStuCtx n c.val
        { StuCtx.idle with faultCode := u.faultCode, faultTile := u.faultTile })) ∧
    (u.shedMoved.disarmed = true → u.shedMoved.disarmer = some serial →
      exec (.disarmDone x c) s = .next (((s.setStuCtx n c.val { StuCtx.idle with faultCode := u.faultCode, faultTile := u.faultTile }).onCore
        n fun k => k.orphanReleases c.val).onCore n fun k => k.readyEntry serial))

/-- DESCRIPTOR_COMPLETE and DESCRIPTOR_FAULT (R122, R128, R142): an entry that may complete is done, its `SEN` counts, and what
is done at the front leaves the window, with the tiles of a load handed over and the operating points shared out again; an
entry that shows faults is faulted and stops further issue; the descriptor at the cursor that no opcode owns joins the window
as faulted with the fault of its fetch, or with `BAD_OPCODE` and what else its first words show. -/
def Obligations.EntriesCompleteOrFault : Prop :=
  ∀ (x : Fin 136) (serial : Nat) (e : InFlight) (d : Desc) (fs : List FaultAt) (s : State),
    let n := x.val
    let q := (s.core n).seq
    (q.entry serial = some e → q.mayComplete e = true → e.unit ≠ 4 → e.cls = 0 → Dsc.sen e.desc = true →
      exec (.descriptorComplete x serial) s = .next (s.onCore n fun c =>
        let c1 := ({ c with seq := c.seq.onEntry e.serial fun x => { x with st := .done } }).addDep (Dsc.sctr e.desc) 1
        { c1 with seq := { c1.seq with window := prune c1.seq.window } })) ∧
    (q.entry serial = some e → q.mayComplete e = true →
      exec (.descriptorComplete x serial) s = .next (s.complete n e)) ∧
    (q.entry serial = some e → e.st = .run → e.faults ≠ [] →
      exec (.descriptorFault x serial) s = .next (s.raiseFault n e)) ∧
    (q.entry serial = none → serial = q.serial → s.cursorFault n = some (d, fs) →
      exec (.descriptorFault x serial) s = .next (s.onCore n fun c =>
        let c1 := c.pushEntry (s.entryOf n nopKind d .faulted fs)
        { c1 with seq := { c1.seq with faultStop := true } }))

/-- LIST_STOPPED and ABANDON_DONE (R142-R147): with every issued descriptor ended, a list that a request stopped is
`STOPPED_REQ` and raises the stop event, one that a fault stopped is `STOPPED_FAULT` at the first faulted descriptor with its
fault record and the error bit set, its `DONE` bits those of the seven descriptors behind the stop point, and an abandoned one is IDLE. In none of these does any byte of SPD change. -/
def Obligations.ListsStop : Prop :=
  ∀ (x : Fin 136) (s : State),
    let n := x.val
    let q := (s.core n).seq
    (q.st = .running → q.abandoning = false → q.inflight = 0 → q.faultStop = true ∨ q.reqStop = true →
      ∃ t, exec (.listStopped x) s = .next t ∧ (∀ a, (t.core n).byte a = (s.core n).byte a) ∧
        (t.core n).seq.window = [] ∧ (t.core n).seq.reqStop = false ∧ (t.core n).seq.faultStop = false ∧
        (s.present (pgCore n) = true → t.raised = s.raised ++ [eventBase (pgCore n) + 1]) ∧
        (fromFault q.window = [] → (t.core n).seq.st = .stoppedReq ∧ t.regs = s.regs) ∧
        (∀ e rest, fromFault q.window = e :: rest → (t.core n).seq.st = .stoppedFault ∧ (t.core n).seq.cursor = e.idx ∧
          (t.core n).seq.loops = e.loops ∧ (t.core n).seq.frec = { faultRec e rest (e :: rest) with
            done := (rest.map (fun u : InFlight => decide (u.st = .done)) ++ q.walk).take 7 })) ∧
    (q.abandoning = true → q.inflight = 0 →
      ∃ t, exec (.abandonDone x) s = .next t ∧ (∀ a, (t.core n).byte a = (s.core n).byte a) ∧
        (t.core n).seq.st = .idle ∧ (t.core n).seq.window = [] ∧ (t.core n).seq.loops = [] ∧ t.regs = s.regs ∧
        t.raised = s.raised)

/-- The list commands (R146-R149): a write of `CORE_LIST_CTRL` starts an IDLE or HALTED list at descriptor 0, asks a running one
to stop, resumes or skips past the fault of a stopped one, or abandons one that is not IDLE; ABANDON acts whatever else is
written, STOP whatever but ABANDON; START of a running list and SKIP of one stopped on request are ignored, with the error bit
set. -/
def Obligations.ListCommands : Prop :=
  ∀ (r : Requester) (x : Fin 136) (v : Word) (s : State), s.accepts r (pgCore x.val) 0x110 = true →
    let n := x.val
    let q := (s.core n).seq
    let ignored := s.errSet (pgCore n) 1
    q.abandoning = false →
    let only := fun (i : Nat) => ∀ j, j < 5 → (bit v j = true ↔ j = i)
    (only 0 → q.st = .idle ∨ q.st = .halted →
      exec (.start r x v) s = .next ((s.forgetLate n).onCore n fun c => { c with seq := { c.seq with
        st := .running, cursor := 0, faultStop := false, reqStop := false, abandoning := false, window := [], walk := [],
        loops := [], spare := [], frec := FaultRec.clear } })) ∧
    (only 0 → q.st = .running → exec (.start r x v) s = .next ignored) ∧
    (bit v 4 = false → bit v 1 = true → q.st = .running →
      exec (.stop r x v) s = .next (s.onCore n fun c => { c with seq := { c.seq with reqStop := true } })) ∧
    (only 2 → q.st = .stoppedFault ∨ q.st = .stoppedReq → exec (.resume r x v) s = .next (s.resumeList n)) ∧
    (only 3 → q.st = .stoppedFault → exec (.skip r x v) s = .next (s.skipList n)) ∧
    (only 3 → q.st = .stoppedReq → exec (.skip r x v) s = .next ignored) ∧
    (bit v 4 = true → q.st ≠ .idle → exec (.abandon r x v) s = .next (s.abandon n))

/-- CORE_LOOP_WRITE (R153): outside RUNNING, a write of a B word sets `ITER` and `INDEX` of its level, active or not; of an A word
with `VALID` it sets `BODY` and `START` of its level, which becomes active where it was not and the level below is; without `VALID`
it drops its level and those above, whose other words stay and read back. `VALID` above a level that is not active, and every
write while the list runs, is ignored and sets the error bit. -/
def Obligations.LoopStackWrites : Prop :=
  ∀ (r : Requester) (x : Fin 136) (ix : Fin 8) (v : Word) (s : State),
    let n := x.val
    let q := (s.core n).seq
    let l := ix.val / 2
    let old := q.level l
    let new := { old with body := fld v 29 20, start := fld v 19 0 }
    let seq := fun p : Sequencer => s.onCore n fun c => { c with seq := p }
    s.accepts r (pgCore n) (0x180 + 4 * ix.val) = true →
    (q.st ≠ .running → ix.val % 2 = 1 → l < q.loops.length → exec (.coreLoopWrite r x ix v) s =
      .next (seq { q with loops := q.loops.set l { old with iter := fld v 31 16, index := fld v 15 0 } })) ∧
    (q.st ≠ .running → ix.val % 2 = 1 → q.loops.length ≤ l → exec (.coreLoopWrite r x ix v) s = .next (seq { q with
      spare := Store.set LoopLevel.zero q.spare l { old with iter := fld v 31 16, index := fld v 15 0 } })) ∧
    (q.st ≠ .running → ix.val % 2 = 0 → bit v 31 = true → l < q.loops.length →
      exec (.coreLoopWrite r x ix v) s = .next (seq { q with loops := q.loops.set l new })) ∧
    (q.st ≠ .running → ix.val % 2 = 0 → bit v 31 = true → l = q.loops.length → exec (.coreLoopWrite r x ix v) s = .next (seq
      { q with loops := q.loops ++ [new], spare := Store.set LoopLevel.zero q.spare l LoopLevel.zero })) ∧
    (q.st ≠ .running → ix.val % 2 = 0 → bit v 31 = false → ∃ p : Sequencer, exec (.coreLoopWrite r x ix v) s = .next (seq p) ∧
      p.loops = q.loops.take l ∧ (l ≤ q.loops.length → p.level l = new)) ∧
    (q.st = .running ∨ (ix.val % 2 = 0 ∧ bit v 31 = true ∧ q.loops.length < l) →
      exec (.coreLoopWrite r x ix v) s = .next (s.errSet (pgCore n) 1))

/-- START (R149): it clears the loop stack and the fault record and begins at descriptor 0; the dependency counters, SPD and the
histogram bank stay as they are. -/
def Obligations.StartBeginsAtDescriptorZero : Prop :=
  ∀ (r : Requester) (x : Fin 136) (s : State), s.accepts r (pgCore x.val) 0x110 = true →
    let c := s.core x.val
    c.seq.st = .idle ∨ c.seq.st = .halted → c.seq.abandoning = false →
    ∃ t : State, exec (.start r x 1) s = .next t ∧ (t.core x.val).seq.st = .running ∧ (t.core x.val).seq.cursor = 0 ∧
      (t.core x.val).seq.loops = [] ∧ (t.core x.val).seq.frec = FaultRec.clear ∧ (t.core x.val).dep = c.dep ∧
      (t.core x.val).spd = c.spd ∧ (t.core x.val).poison = c.poison ∧ (t.core x.val).hist = c.hist ∧
      (t.core x.val).histBase = c.histBase

/-! The memory tiers. -/

/-- OUTER_READ and OUTER_WRITE (R254-R258): with no fault on the packages, no block of the span under repair and none poisoned
that a partial write would touch, a write stores its bytes at consecutive addresses of the own outer tier and no other byte of
it, nor any of the near tier, changes; it is answered with no fault; and a read of any span that lies in the tier, is not under
repair and holds no poisoned block is answered with the bytes of that span, which it leaves as they are; it charges the sectors
it moves and wakes the TREs that it meets (R257, R461). -/
def Obligations.OuterTierStoresBytes : Prop :=
  ∀ (cls : TierClass) (a : BitVec 40) (bs : List Byte) (n : Nat) (s : State),
    (bs ≠ [] → a.toNat + bs.length ≤ outerSize s.dev.variant → s.heldBlock a.toNat bs.length = none →
      s.tiers.partPoison a.toNat bs.length = false →
      ∃ t, exec (.outerWrite cls a bs SectorFault.none) s = .next t ∧
        (∀ k, Store.get 0 t.tiers.outer k =
          if a.toNat ≤ k ∧ k < a.toNat + bs.length then bs.getD (k - a.toNat) 0 else Store.get 0 s.tiers.outer k) ∧
        t.tiers.near = s.tiers.near ∧ t.tiers.nearPoison = s.tiers.nearPoison ∧ t.cores = s.cores ∧
        t.sent = s.sent ++ [.readReply [] 0]) ∧
    (n ≠ 0 → a.toNat + n ≤ outerSize s.dev.variant → s.heldBlock a.toNat n = none → s.tiers.poisoned a.toNat n = false →
      exec (.outerRead cls a n SectorFault.none) s =
        .next (((s.thawBlocks a.toNat n).chargeRead cls a.toNat n).emit (.readReply (s.tiers.outerBytes a.toNat n) 0)))

/-- A read of what a write has just stored answers the bytes written (R254-R258). -/
def Obligations.OuterReadAfterWrite : Prop :=
  ∀ (c1 c2 : TierClass) (a : BitVec 40) (bs : List Byte) (s t : State),
    bs ≠ [] → a.toNat + bs.length ≤ outerSize s.dev.variant → s.heldBlock a.toNat bs.length = none →
    s.tiers.partPoison a.toNat bs.length = false → exec (.outerWrite c1 a bs SectorFault.none) s = .next t →
    ∃ u, exec (.outerRead c2 a bs.length SectorFault.none) t = .next u ∧ u.sent = t.sent ++ [.readReply bs 0]

/-- The tier's own commands (R251-R266, R281-R285, R473, R481): a patrol scrub charges one sector and decodes it; a corrected
word of the near tier counts against its row, and an uncorrectable one is marked and counts against its site; a pass that ends
more than 10% late sets `SCRUB_LATE`; ages grow by the periods of 65,536 ns that have passed, up to 255; a package is written off
and a split takes three legal shares; a repair fetches from the source that is named, also in place of one under way, writes the
block that arrives, once more where it does not read back, and ends once it reads back; it ends in poison where the source
returns poison, no source is left or the time is over. -/
def Obligations.TierServiceAndRepair : Prop :=
  ∀ (r : Requester) (b : BitVec 28) (sec : Fin 16) (x : SectorFault) (w : Nat) (g : Fin 4) (k : Fin 16) (v : Word)
      (bs : List Byte) (s : State),
    let slot := s.slotOf g.val k.val
    let src := s.repairSource g.val k.val
    (4096 * b.toNat + 4096 ≤ outerSize s.dev.variant → mapRepair (s.tiers.mapOf b.toNat) = false → s.power.mod ≠ 3 →
      x.mapWord = false → x.stream = false → x.errs = [] →
      let u := if sec.val = 15 && s.lastOfGroup b.toNat then s.scrubEnd (s.groupOf b.toNat) 86400000000000 else s
      exec (.patrolScrub b sec x) s = .next (u.charge .background b.toNat 1)) ∧
    (8 * w < nearSize → s.power.mod ≠ 3 →
      let u := if 8 * w + 8 = nearSize then s.scrubEnd 4 21600000000000 else s
      exec (.nearScrub w 0) s = .next u ∧
      exec (.nearScrub w 1) s = .next (u.flmEvent 0 (w / 1024)) ∧
      ((s.tiers.page (8 * w / 0x200000)).st ≠ 2 → exec (.nearScrub w 2) s =
        .next (({ u with tiers := { u.tiers with nearPoison := Store.set false u.tiers.nearPoison w true } } : State).flmEvent 2
          (u.siteOf (8 * w / 0x3000000))))) ∧
    (∀ c period : Nat, 10 * Store.get 0 s.flm.scrubAt c + 11 * period < 10 * s.dev.time → bit (s.reg pgFlm 0x11C) 8 = false →
      (s.scrubEnd c period).reg pgFlm 0x11C = setFld (s.reg pgFlm 0x11C) 8 8 1) ∧
    (exec .pageAgeTick s = .next { s with tiers := { s.tiers with
      aged := s.dev.time / 65536
      pages := s.tiers.pages.map fun p => (p.1, { p.2 with age := min 255 (p.2.age + (s.dev.time / 65536 - s.tiers.aged)) }) } }) ∧
    (s.accepts r (pgTre g) 0x104 = true → Store.get 15 s.tiers.lost g.val = 15 → fld v 3 0 ≤ 8 →
      exec (.trePkgWrite r g v) s = .next (s.losePackage g.val (fld v 3 0))) ∧
    (s.accepts r (pgTre g) 0x100 = true → s.locked (pgTre g) = false → splitOk v = true →
      exec (.treSplitWrite r g v) s = .next (s.setReg (pgTre g) 0x100 (v &&& 0x001F1F1F))) ∧
    (s.accepts r (pgTre g) 0x100 = true → s.locked (pgTre g) = false → splitOk v = false →
      exec (.treSplitWrite r g v) s = .next (s.errSet (pgTre g) 2)) ∧
    (s.accepts r (pgTre g) (0x20C + 16 * k.val) = true → bit v 31 = true → slot.st = 1 ∨ slot.st = 2 →
      exec (.repairGo r g k v) s =
        .next ((s.setReg (pgTre g) (0x20C + 16 * k.val) (v &&& 0x00FFFFFF)).repairFetch g.val k.val)) ∧
    (s.accepts r (pgTre g) (0x204 + 16 * k.val) = true → bit v 0 = true → slot.st ≠ 0 →
      exec (.nosrc r g k v) s = .next (s.repairPoison g.val k.val)) ∧
    (slot.st = 2 → s.sourceHeld src = false → s.sourceBlock g.val k.val src (some bs) = some bs → bs.length = 4096 →
      let once := (s.chargeSource src).repairWrite slot.block bs
      exec (.repairBlockArrive g k (some bs) false false) s = .next (once.repairDone g.val k.val) ∧
      exec (.repairBlockArrive g k (some bs) true false) s = .next ((once.repairWrite slot.block bs).repairDone g.val k.val) ∧
      exec (.repairBlockArrive g k (some bs) true true) s = .next ((once.repairWrite slot.block bs).repairPoison g.val k.val)) ∧
    (slot.st = 2 → s.sourceHeld src = false → s.sourceBlock g.val k.val src none = none →
      exec (.repairBlockArrive g k none false false) s = .next ((s.chargeSource src).repairPoison g.val k.val)) ∧
    (slot.st ≠ 0 → slot.since + s.repairLimit ≤ s.dev.time → exec (.repairTimeout g k) s = .next (s.repairPoison g.val k.val))

/-- The Pacer and the host window's translation (R95, R96, R274-R280): the walk starts the promotions that may start, a promotion
completes once the home bytes of its first entry are there, an entry whose last use is past leaves for its home, a walk that
waits 10 ms raises the stall event once; an invalidation is recorded as busy and, when done, drops what it names from the cache;
a read's data and its failure end their transaction. -/
def Obligations.PacerAndHostWindow : Prop :=
  ∀ (r : Requester) (i : BitVec 16) (e : PacerEntry) (es : List PacerEntry) (t0 tag : Nat) (v : Word) (a : BitVec 37) (n : Nat)
      (x : Txn) (data : List Byte) (s : State),
    exec .pacerPromote s = .next s.pacerWalk ∧
    (s.tiers.pacer.promoting = e :: es → e.idx = i.toNat →
      (∀ p ∈ homeSpans e.bits, (s.homeBytes e.idx p).isSome = true) →
      exec (.promotionComplete i) s = .next (s.promoted e
        ((homeSpans e.bits).map fun p => (p, (s.homeBytes e.idx p).getD ([], 0))))) ∧
    (s.tiers.pacer.resident.find? (·.idx = i.toNat) = some e → s.demotionDue e = true → s.entryHeld e = false →
      s.homeHeld e = false → exec (.pacerDemote i) s = .next (s.demote e)) ∧
    (s.tiers.pacer.waiting = some (t0, false) → t0 + 10000000 ≤ s.dev.time →
      exec .pacerStall s = .next (((s.onPacer fun p => { p with waiting := some (t0, true) }).countReg 0x40 0x31C 1).raise 0x40 3)) ∧
    (n ≠ 0 → a.toNat + n ≤ hostSize →
      exec (.hostWindowAccess a n none none) s = .next (s.requestAt .bus 0 (.host a.toNat) n none).settle) ∧
    (n ≠ 0 → hostSize < a.toNat + n →
      exec (.hostWindowAccess a n none none) s = .next (s.emit (.readReply [] 4))) ∧
    (s.accepts r pgHbr 0x208 = true → bit v 31 = false →
      exec (.hbrXlatInv r v) s = .next { s with xlat := { s.xlat with busy := true, indexes := s.xlat.indexes ++ [fld v 15 0] } }) ∧
    (s.xlat.busy = true → s.xlat.all = false →
      exec .xlatInvDone s = .next { s with xlat :=
        { cache := s.xlat.cache.filter fun c => !s.xlat.indexes.contains c.1, busy := false, all := false, indexes := [] } }) ∧
    (s.txns.find? (fun t => t.tag = tag && t.dst = 2048 && !t.done && !t.write) = some x →
      exec (.hostReadCompletion tag .ok data) s = .next (s.onTxn tag fun t =>
        let got := (x.parts.map fun p => p.2.length).sum
        { t with parts := t.parts ++ [(t.addr + got, data)], done := t.len ≤ got + data.length }).settle ∧
      exec (.hostReadCompletion tag .poisoned data) s =
        .next (s.onTxn tag fun t => { t with done := true, status := 5 }).settle)

/-! Batons and the synchronisation hub. -/

/-- The checks of an arriving baton (R323-R325): the next of its source, in the current epoch and lap, acts; of an earlier epoch
it is dropped into `SCH_STALE`, of a later epoch or of the next lap it is held, of an earlier lap it is dropped into
`SCH_DUP` unless it is a `BKT_PART`; one of a type that is not assigned, or of a lap further on, is counted in `SCH_BAD`. One
behind the expected number is dropped as a duplicate, and one ahead of it is held. The next one wakes the island of the SCH
(R461). -/
def Obligations.BatonsAreChecked : Prop :=
  ∀ (i : Instr) (b : Baton) (s : State), rowBaton i = some (b.type.toNat, b) →
    let d := (b.epoch.toNat + 256 - s.ctxEpoch b.ctx.toNat) % 256
    let s1 := (s.expectNext b).thawPage pgSch
    (s.nextBaton b = true → d = 0 → (b.lap = 0xFFFFFFFF ∨ b.lap.toNat = s.lap) → exec i s = .next ((s1.act b).takeFreed b)) ∧
    (s.nextBaton b = true → 128 ≤ d → exec i s = .next ((s1.countReg pgSch 0x150 1).takeFreed b)) ∧
    (s.nextBaton b = true → 0 < d → d < 128 → exec i s =
      .next ((s1.onSch fun c => { c with held := c.held ++ [⟨b, s.dev.time, false, false⟩] }).takeFreed b)) ∧
    (s.nextBaton b = true → d = 0 → b.lap ≠ 0xFFFFFFFF → b.lap.toNat = s.lap + 1 → exec i s =
      .next ((s1.onSch fun c => { c with held := c.held ++ [⟨b, s.dev.time, false, false⟩] }).takeFreed b)) ∧
    (s.nextBaton b = true → d = 0 → b.lap ≠ 0xFFFFFFFF → b.lap.toNat < s.lap → b.type ≠ 5 →
      exec i s = .next ((s1.countReg pgSch 0x154 1).takeFreed b)) ∧
    (s.nextBaton b = true → d = 0 → b.lap ≠ 0xFFFFFFFF → s.lap + 1 < b.lap.toNat →
      exec i s = .next ((s1.countReg pgSch 0x158 1).takeFreed b)) ∧
    (s.power.mod = 2 → s.enabled pgSch = true → s.batonRoom b = true →
      seqBehind (s.expected b.src.toNat) b.seq.toNat = true → exec i s = .next (s.countReg pgSch 0x154 1)) ∧
    (s.power.mod = 2 → s.enabled pgSch = true → s.batonRoom b = true → b.seq.toNat ≠ s.expected b.src.toNat →
      seqBehind (s.expected b.src.toNat) b.seq.toNat = false →
      exec i s = .next (s.onSch fun c => { c with held := c.held ++ [⟨b, s.dev.time, true, false⟩] }))

/-- What an accepted baton of each type does (R294, R306, R327-R340): USER counts on its channel, keeps its value there and lets
waits go on; LOSS is kept once for its microbatch; HURDLE_ARRIVE counts its device at the hurdle's root and HURDLE_RELEASE
releases the generation; the five bucket batons, VERDICT and DIGEST act on the bucket that they name; LAP_DONE records a child
once, LAP_GO advances a device that waits for it, and WITHDRAW ends the device's part. BATON_INVALID is counted and does
nothing else, and BATON_GAP sets the error bit and raises the event for the sources whose gap has lasted 100 µs. -/
def Obligations.BatonsTakeEffect : Prop :=
  ∀ (b : Baton) (s : State),
    let d := (b.epoch.toNat + 256 - s.ctxEpoch b.ctx.toNat) % 256
    let s1 := (s.expectNext b).thawPage pgSch
    let h := fld b.arg 5 0
    let x := s.hurdleOf h
    let now := d = 0 ∧ (b.lap = 0xFFFFFFFF ∨ b.lap.toNat = s.lap)
    let bkt := s.lapBaton b = true ∧ s.hvuOn = true ∧ fld b.arg 11 0 < s.bktCount
    (s.nextBaton b = true → now → b.type = 1 → (s.chan (fld b.pay 5 0)).valid = true →
      (s.chan (fld b.pay 5 0)).ctx = b.ctx.toNat → exec (.user b) s = .next (((s1.setChan (fld b.pay 5 0)
        { s.chan (fld b.pay 5 0) with count := ((s.chan (fld b.pay 5 0)).count + 1) % 65536, value := b.arg }).wakeWaits
          (fld b.pay 5 0)).takeFreed b)) ∧
    (s.nextBaton b = true → now → b.type = 2 → s.lapBaton b = true → s.sch.losses.any (fun l => l.1 = fld b.pay 15 0) = false →
      exec (.loss b) s =
        .next ((s1.onSch fun c => { c with losses := c.losses ++ [(fld b.pay 15 0, b.arg)] }).takeFreed b)) ∧
    (s.nextBaton b = true → now → b.type = 3 → x.valid = true → x.ctx = b.ctx.toNat → x.root = s.ownId →
      fld b.arg 31 16 = x.gen → x.devices.contains b.src.toNat = false → exec (.hurdleArrive b) s =
        .next (((s1.setHurdle h { x with devices := x.devices ++ [b.src.toNat] }).rootCheck h).takeFreed b)) ∧
    (s.nextBaton b = true → now → b.type = 4 → x.valid = true → x.ctx = b.ctx.toNat → fld b.arg 31 16 = x.gen →
      exec (.hurdleRelease b) s = .next ((s1.releaseHurdle h).takeFreed b)) ∧
    (s.nextBaton b = true → now → bkt →
      (b.type = 5 → exec (.bktPart b) s = .next ((s1.takePart b).takeFreed b)) ∧
      (b.type = 6 → exec (.bktAck b) s = .next ((s1.takeAck b).takeFreed b)) ∧
      (b.type = 7 → exec (.bktClosed b) s = .next ((s1.takeClosed b).takeFreed b)) ∧
      (b.type = 8 → exec (.bktGather b) s = .next ((s1.takeGather b).takeFreed b)) ∧
      (b.type = 9 → exec (.verdict b) s = .next ((s1.takeVerdict b).takeFreed b)) ∧
      (b.type = 0xA → exec (.digest b) s = .next ((s1.takeDigest b).takeFreed b))) ∧
    (s.nextBaton b = true → now → b.type = 0xB → s.lapBaton b = true → s.sch.children.contains b.src.toNat = false →
      exec (.lapDone b) s =
        .next ((s1.onSch fun c => { c with children := c.children ++ [b.src.toNat] }).takeFreed b)) ∧
    (s.nextBaton b = true → now → b.type = 0xC → s.lapBaton b = true → s.sch.lapwait = true →
      exec (.lapGo b) s = .next ((s1.lapGo (fld b.pay 7 0)).takeFreed b)) ∧
    (s.nextBaton b = true → now → b.type = 0xD → s.lapBaton b = true →
      exec (.withdraw b) s = .next (s1.withdraw.takeFreed b)) ∧
    (s.nextBaton b = true → (b.type = 0 ∨ 0xD < b.type.toNat) →
      exec (.batonInvalid b) s = .next ((s1.countReg pgSch 0x158 1).takeFreed b)) ∧
    (let gap := fun (g : HeldBaton) => g.ahead && !g.gap && g.b.src = b.src && g.since + 100000 ≤ s.dev.time
     s.sch.held.any gap = true → exec (.batonGap b.src) s = .next
      (((s.onSch fun c => { c with held := c.held.map fun g => if gap g then { g with gap := true } else g }).errSet pgSch 1).raise
        pgSch 2))

/-- The lap's commands of the SCH (R318-R321, R335-R340): EN written as 1 on a stopped SCH takes the other fields and begins a
lap; EN written as 0 on a running one clears EN and what the SCH holds; the first slot opens once the lap is ready and
nothing mends or holds it, the next once the open one is done, unless its heat no longer passes the checks, which stops the
schedule; a core that may run is prepared with the slot's record and started; a device whose lap is done tells its parent, and the
root goes on to the next lap, under a new epoch where a device of the job waits for one (R345; what waits elsewhere is a free
value, log 80); a withdrawal drops the cores still
to launch. -/
def Obligations.LapsAdvance : Prop :=
  ∀ (r : Requester) (v : Word) (lc : Fin 128) (l : Launch) (x : SlotRec) (s : State),
    let n := s.siteOf lc.val
    (s.accepts r pgSch 0x100 = true → bit (s.reg pgSch 0x100) 31 = false → bit v 31 = false →
      exec (.schEnable r v) s = .next (s.setReg pgSch 0x100 (v &&& 0xF3007F3F))) ∧
    (s.accepts r pgSch 0x100 = true → bit (s.reg pgSch 0x100) 31 = false → bit v 31 = true →
      exec (.schEnable r v) s = .next (s.setReg pgSch 0x100 (v &&& 0xF3007F3F)).schClear.beginLap) ∧
    (s.accepts r pgSch 0x100 = true → bit (s.reg pgSch 0x100) 31 = true → bit v 31 = false →
      exec (.schEnable r v) s = .next (s.setRegBit pgSch 0x100 31 false).schClear) ∧
    (s.schOn = true → s.sch.faulted = false → s.sch.withdrawn = false → s.sch.ready = true → s.sch.begun = false →
      s.mending = false → s.hvu.toCompare = [] → s.flm.hold = false → s.sch.order[0]? = some x →
      (s.heatBad (s.heatBits x.heat) = true → exec .slotOpen s =
        .next (((s.onSch fun c => { c with faulted := true }).errSet pgSch 0).raise pgSch 1)) ∧
      (s.heatBad (s.heatBits x.heat) = false → exec .slotOpen s = .next (s.onSch fun c =>
        { c with slot := 0, isOpen := true, begun := true, launched := [], heat := s.heatBits x.heat,
                 toLaunch := s.launches (s.heatBits x.heat) x.bwd }))) ∧
    (s.schOn = true → s.sch.faulted = false → s.sch.withdrawn = false → s.sch.ready = true → s.sch.begun = true →
      s.slotDone = true → s.sch.order[s.sch.slot + 1]? = some x → s.heatBad (s.heatBits x.heat) = false →
      exec .slotOpen s = .next (s.onSch fun c =>
        { c with slot := s.sch.slot + 1, isOpen := true, begun := true, launched := [], heat := s.heatBits x.heat,
                 toLaunch := s.launches (s.heatBits x.heat) x.bwd })) ∧
    (s.sch.toLaunch.find? (fun l => l.lcore = lc.val) = some l → s.sch.order[s.sch.slot]? = some x → s.schOn = true →
      s.sch.isOpen = true → s.blockUp (pgCore n) = true → ((s.core n).seq.st = .idle ∨ (s.core n).seq.st = .halted) →
      exec (.coreLaunch lc) s = .next
        ((((s.onSch fun c => { c with toLaunch := c.toLaunch.erase l, launched := c.launched ++ [n] }).onCore n
          fun c => s.prepareCore c x l).thawPage (pgCore n)).startList n)) ∧
    (s.schOn = true → s.sch.faulted = false → s.sch.lapwait = false → s.lapDone = true → s.childrenDone = true →
      s.flm.hold = false → bit (s.reg pgSch 0x13C) 31 = false →
      exec .lapDoneSend s = .next ((s.onSch fun c => { c with lapwait := true }).sendBaton 0xB s.schCtx
        (fld (s.reg pgSch 0x13C) 26 16) 0 0)) ∧
    (s.schOn = true → s.sch.faulted = false → s.sch.lapwait = false → s.lapDone = true → s.childrenDone = true →
      s.flm.hold = false → bit (s.reg pgSch 0x13C) 31 = true →
      let next := fun (u : State) (e : Nat) => (u.lapGo (e % 256)).takeHeld (u.lapGo (e % 256)).sch.held.length
      let e := s.ctxEpoch s.schCtx
      (s.wantsEpoch = true → exec .lapDoneSend s = .next (next s (e + 1))) ∧
      (s.wantsEpoch = false → s.sch.children = [] → exec .lapDoneSend s = .next (next s e)) ∧
      (s.wantsEpoch = false → s.sch.children ≠ [] → ∃ d, d ≤ 1 ∧
        exec .lapDoneSend s = .next (next { s with free := s.free + 1 } (e + d)))) ∧
    (s.accepts r pgSch 0x140 = true → bit v 0 = true → s.schOn = true → s.sch.withdrawn = false → s.hvuOn = false →
      exec (.schCmdWithdraw r v) s = .next (s.onSch fun c => { c with withdrawn := true, toLaunch := [] })) ∧
    (s.accepts r pgSch 0x140 = true → bit v 0 = true → s.schOn = true → s.sch.withdrawn = false → s.hvuOn = true →
      exec (.schCmdWithdraw r v) s = .next ((List.range s.bktCount).foldl State.withdrawBucket
        (s.onSch fun c => { c with withdrawn := true, toLaunch := [] })))

/-- Reduction of a bucket (R331-R334): once a partial's bytes are at their owner its BKT_PART goes out with the member's count;
the deadline closes a bucket that is still open, tells its members, sets the error bit, counts and raises the event, and queues
the bucket for its reduction pass; a pass whose bytes may be read runs, and one that faults puts its bucket into FAULT. A bucket's
local part records the member's count, and, where the reduction is not closed, its own presence; it starts the deadline, sends the
other members their rows, and closes the reduction once every partial is there; one that comes again, or after a withdrawal, is
dropped. -/
def Obligations.BucketsReduce : Prop :=
  ∀ (b : BitVec 12) (o : Fin 64) (cnt : BitVec 16) (t : Nat) (s : State),
    let k := b.toNat
    let d := s.bucket k
    let r := s.red k
    (s.schOn = true → s.hvuOn = true → s.sch.locals.contains (k, cnt.toNat) = true → Rd.isLocal r = true ∨ Rd.wd r = true →
      let u := s.onSch fun c => { c with locals := c.locals.erase (k, cnt.toNat) }
      exec (.bktLocal b cnt) s = .next u) ∧
    (s.schOn = true → s.hvuOn = true → s.sch.locals.contains (k, cnt.toNat) = true → Rd.isLocal r = false → Rd.wd r = false →
      let own := (cnt.toNat + Rd.carried r) % 65536
      let u := (s.onSch fun c => { c with locals := c.locals.erase (k, cnt.toNat) }).putRedFlags k own (Rd.carried r) false
        (Rd.closed r) true
      let rest := fun (u : State) => ((others d).foldl (fun s j => s.sendShard k j)
        (u.onBkt k fun x => { x with start := some s.dev.time })).tryClose k
      (Rd.closed r = true → exec (.bktLocal b cnt) s = .next (rest u)) ∧
      (Rd.closed r = false → exec (.bktLocal b cnt) s = .next (rest ((u.redSetBit k 2 (Bk.rank d)).onBkt k fun x =>
        { x with counts := x.counts ++ [(Bk.rank d, own)] })))) ∧
    (s.schOn = true → s.hvuOn = true → k < s.bktCount → Rd.isLocal r = true → Rd.wd r = false →
      (others d).contains o.val = true → (s.bkt k).partSent.contains o.val = false →
      s.txns.any (fun t => shardOf k o.val t && (!t.done || t.status != 0)) = false →
      exec (.bktPartSend b o) s = .next (((({ s with txns := s.txns.filter fun t => !shardOf k o.val t } : State).onBkt k fun x =>
        { x with partSent := x.partSent ++ [o.val] })).redBaton 5 k o.val (Rd.owncnt r))) ∧
    ((s.bkt k).start = some t → s.schOn = true → s.hvuOn = true → fld (s.reg pgSch 0x134) 23 0 ≠ 0 → Rd.closed r = false →
      t + 1000 * fld (s.reg pgSch 0x134) 23 0 ≤ s.dev.time →
      let u := (others d).foldl (fun s j => s.redBaton (if (Rd.present r).testBit j then 6 else 7) k j 0)
        (s.putRedFlags k (Rd.owncnt r) (Rd.carried r) (Rd.wd r) true (Rd.isLocal r))
      exec (.reduceDeadline b) s = .next
        ((((u.errSet pgSch 2).errCount pgSch 1).raise pgSch 3).onHvu fun h => { h with reduceQ := h.reduceQ ++ [k] })) ∧
    (s.nextPass = some k → s.hvuOn = true → s.hvu.seeding = false →
      (s.reduceReads d k).any (fun x => s.tiers.repairing x.1 x.2) = false →
      let u := s.onHvu fun h => { h with reduceQ := h.reduceQ.filter (· != k) }
      (s.reduceFault k d = none → exec (.reducePassDone b) s = .next (u.sumReduction k d)) ∧
      (∀ f, s.reduceFault k d = some f →
        exec (.reducePassDone b) s = .next ((u.onHvu fun h => { h with reduceQ := h.reduceQ ++ [k] }).bucketFault k f)))

/-- The harvest (R291, R294-R303): EN starts a unit whose buckets are acceptable, sets the error bit where they are not, and ends
it; a bucket that reaches the front exchanges verdicts, has its passes run, is committed with the lap's number in its slot and
its record, is published, and is done; REQUEUE runs the passes of a bucket that was broken off again and queues one that stands in
FAULT, and ABANDON puts one that was broken off into FAULT with `W` rewritten from its master. -/
def Obligations.HarvestSteps : Prop :=
  ∀ (r : Requester) (v : Word) (b : Nat) (rest : List Nat) (j : HvuJob) (s : State),
    let t := s.setReg pHvu 0x100 (v &&& 0x70000000)
    (s.accepts r pHvu 0x100 = true → bit (s.reg pHvu 0x100) 31 = false → bit v 31 = true → t.bucketsRefused = false →
      exec (.hvuEnable r v) s = .next (({ t with hvu := Hvu.reset } : State).setRegBit pHvu 0x100 31 true).seedMirror) ∧
    (s.accepts r pHvu 0x100 = true → bit (s.reg pHvu 0x100) 31 = false → bit v 31 = true → t.bucketsRefused = true →
      exec (.hvuEnable r v) s = .next (t.errSet pHvu 3)) ∧
    (s.accepts r pHvu 0x100 = true → bit (s.reg pHvu 0x100) 31 = true → bit v 31 = false →
      exec (.hvuEnable r v) s = .next { s.setRegBit pHvu 0x100 31 false with hvu := Hvu.reset }) ∧
    (s.hvu.job = none → s.hvu.queue = b :: rest → s.hvuOn = true → s.tablesFault b (s.bucket b) = none →
      Bk.lap (s.bucket b) ≠ s.lap →
      exec .hvuVerdictStart s = .next ((((((s.onHvu fun h => { h with queue := rest }).chargeTables b (s.bucket b)).setJob
        (some ⟨b, 1, 0, false⟩)).stepState b 2 0).sendVerdict b).verdictStep)) ∧
    (s.hvu.job = some j → s.hvuOn = true → j.phase = 3 → j.interrupted = false →
      let d := s.bucket j.bucket
      let outs := s.passOuts d
      s.updateHeld d j.spare = false → s.updateFault j.bucket d j.spare = none →
      (outs.any (·.2.bad) = false → exec .hvuPasses s = .next ((s.writePasses j.bucket d j.spare outs).finishPasses j
        (s.anyHvu j.bucket d) (outs.foldl (fun t x => t.join x.2.shared) (optParams d).2))) ∧
      (outs.any (·.2.bad) = true → exec .hvuPasses s = .next (s.bucketFault j.bucket 8))) ∧
    (s.hvu.job = some j → s.hvuOn = true → j.phase = 4 → j.interrupted = false →
      exec .hvuCommit s = .next ((((s.localWrite (s.slotAddr j.spare) (natLe 8 s.lap)).putBucket j.bucket 0x50 8
        (j.spare * 2 ^ 48 + s.lap)).applyScale j.bucket 0).releaseG j.bucket |>.publish j)) ∧
    (s.hvu.job = some j → s.hvuOn = true → j.phase = 5 → j.interrupted = false → s.mirroring j.bucket = false →
      exec .hvuDone s = .next (((s.mirrorStamp j.bucket j.spare).mirrorRecord j.bucket).setJob
        (some { j with phase := 6 })).settleBuddy) ∧
    (s.hvu.job = some j → s.hvuOn = true → j.phase = 6 → j.interrupted = false → s.mirroring j.bucket = false →
      s.txns.any (fun t => match t.client with | .gather c _ => c = j.bucket | _ => false) = false →
      exec .hvuDone s = .next ((s.stepState j.bucket 5 0).setJob none).snapCheck) ∧
    (s.accepts r pHvu 0x128 = true → s.hvuOn = true → fld v 11 0 < s.bktCount →
      let k := fld v 11 0
      (fld v 31 30 = 1 →
        (s.hvu.job = none → Bk.state (s.bucket k) = 6 → s.hvu.reduceQ.contains k = false →
          exec (.requeue r v) s = .next ((s.stepState k 1 0).onHvu fun h => { h with queue := h.queue ++ [k] })) ∧
        (s.hvu.job = some j → j.bucket = k → j.interrupted = true → j.phase = 3 ∨ j.phase = 4 →
          exec (.requeue r v) s = .next (s.setJob (some { j with phase := 3, interrupted := false })))) ∧
      (fld v 31 30 = 2 →
        (s.hvu.job = none → Bk.state (s.bucket k) = 6 → (s.heldSpare k).isSome = true → s.masterBad k = false →
          exec (.hvuAbandon r v) s = .next (s.rewriteW k)) ∧
        (s.hvu.job = some j → j.bucket = k → j.interrupted = true → j.phase = 3 ∨ j.phase = 4 → s.masterBad k = false →
          exec (.hvuAbandon r v) s = .next ((s.rewriteW k).bucketFault k 0))))

/-- The key-value directory (R350-R369): EN starts a unit whose geometry is acceptable, taking its pages and beginning their
clearing; a cleared span reads 0 and is correctable; the directory is read or written through its window; ADMIT, and
END once every list of the step is HALTED, act on an idle directory and set the error bit on a busy one; the walk is emitted when it is due; maintenance ends in the idle phase and
raises its event; a copy that nothing holds is finished. -/
def Obligations.KeyValueDirectory : Prop :=
  ∀ (r : Requester) (v : Word) (n : Nat) (m : KvdMove) (s : State),
    let t := s.setReg pgKvd 0x100 (v &&& 0x70000000)
    (s.accepts r pgKvd 0x100 = true → bit (s.reg pgKvd 0x100) 31 = false → bit v 31 = true → t.kvdRefused = false →
      exec (.kvdEnable r v) s = .next (((t.setPages t.kvdFirst t.kvdPages ⟨3, t.kvdCtx, 0⟩).setRegBit pgKvd 0x100 31 true).onKvd
        fun k => { Kvd.reset with dir := k.dir, clearing := true, slots := [(0, 1), (1, 1)] })) ∧
    (s.accepts r pgKvd 0x100 = true → bit (s.reg pgKvd 0x100) 31 = false → bit v 31 = true → t.kvdRefused = true →
      exec (.kvdEnable r v) s = .next (t.errSet pgKvd 0)) ∧
    (s.accepts r pgKvd 0x100 = true → bit (s.reg pgKvd 0x100) 31 = true → bit v 31 = false →
      exec (.kvdEnable r v) s = .next (s.setRegBit pgKvd 0x100 31 false)) ∧
    (s.accepts r pgKvd 0x200 = true → (r = .host ∨ bit v 31 = false) →
      exec (.kvdDirSel r v) s = .next ((List.range 8).foldl (fun t j => t.setReg pgKvd (0x210 + 4 * j)
        (BitVec.ofNat 32 (dfld (s.seqEntry (fld v 11 0)) (4 * j) 31 0))) (s.setReg pgKvd 0x200 (BitVec.ofNat 32 (fld v 11 0))))) ∧
    (s.kvdOn = true → s.kvd.clearing = true →
      ∃ u : State, exec .kvdClearDone s = .next u.admitOn ∧ u.kvd.clearing = false ∧ u.cores = s.cores ∧
        u.tiers.outer = s.tiers.outer ∧ ∀ a, Store.get 0 u.tiers.near a =
          if s.kvdFirst * 0x200000 ≤ a ∧ a < (s.kvdFirst + s.kvdPages) * 0x200000 then 0 else Store.get 0 s.tiers.near a) ∧
    (s.accepts (.ctl 4) pgKvd 0x120 = true → s.kvdOn = true → s.kvd.phase = 0 →
      exec .admitSeqs s = .next s.admitBatch ∧ (s.stepHalted = true → exec .stepEnd s = .next s.stepEnd)) ∧
    (s.accepts (.ctl 4) pgKvd 0x120 = true → s.kvdOn = true → s.kvd.phase ≠ 0 →
      exec .admitSeqs s = .next (s.errSet pgKvd 1) ∧ (s.stepHalted = true → exec .stepEnd s = .next (s.errSet pgKvd 1))) ∧
    (s.kvdOn = true → s.kvd.due = true → exec .walkEmit s = .next s.walkEmit) ∧
    (s.kvdOn = true → s.kvd.phase = 3 → exec .kvdMaintenance s = .next s.maintain) ∧
    (s.kvd.moves[n]? = some m → s.kvdOn = true → s.moveHeld m = false → exec (.kvdMoveDone n) s =
      .next ((s.onKvd fun k => { k with moves := k.moves.eraseIdx n }).moveDone m).admitOn)

/-- The media decoder and the sensor aligner (R370-R388): a push takes a record that its context may read, is refused with the
error bit where 32 wait, and with `CONTEXT_VIOLATION` where no context may; a decode starts in a free pipe on the work that is
next, ends in its sample, taken from the frames from `FRAME0` on, or in an attempt rejected for the decoder's refusal, and is rejected once it is late; jobs commit
position by position; an alignment tries its arrays; the staging buffer belongs to one unit, and is free once nothing uses it. -/
def Obligations.InputUnits : Prop :=
  ∀ (r : Requester) (v : Word) (pipe : Fin 16) (pos : Nat) (h : MediaHeader) (px : List Byte) (j : MdeJob) (js : List MdeJob)
      (p : MdePipe) (t : Attempt) (q : SauJob) (qs : List SauJob) (c : Nat) (s : State),
    let am := fld v 12 0 * 2 ^ 32 + (s.reg pgMde 0x110).toNat
    let as' := fld v 12 0 * 2 ^ 32 + (s.reg pgSau 0x110).toNat
    (s.accepts r pgMde 0x114 = true → s.input.jobs.length < 32 → s.jobCtx am 128 = some c →
      exec (.mdeJobPush r v) s = .next (s.mdeTake (bitsOf 1024 (s.tiers.localBytes am 128)) c)) ∧
    (s.accepts r pgMde 0x114 = true → 32 ≤ s.input.jobs.length → exec (.mdeJobPush r v) s = .next (s.errSet pgMde 1)) ∧
    (s.accepts r pgSau 0x114 = true → s.input.sau.length < 32 → s.jobCtx as' 96 = some c →
      exec (.sauJobPush r v) s = .next (s.sauTake (bitsOf 768 (s.tiers.localBytes as' 96)) c)) ∧
    (s.accepts r pgSau 0x114 = true → s.input.sau.length < 32 → s.jobCtx as' 96 = none →
      exec (.sauJobPush r v) s = .next (s.jobFault pgSau 1 s.input.sau.length none (.plain .contextViolation))) ∧
    (s.power.mod = 2 → s.present pgMde = true → s.enabled pgMde = true → Store.get none s.input.pipes pipe.val = none →
      s.pipeWork pipe.val = some (j, pos) → exec (.mdeDecodeStart pipe pos h) s = .next (s.decodeStart pipe.val j pos h)) ∧
    (s.pipeAttempt pipe.val = some (p, j, t) → s.decodeLate j p (Sp.cls (s.attemptSample j t)) = false →
      exec (.mdeDecodeDone pipe false px) s = .next ((s.freePipe pipe.val).rejectAttempt j t 2)) ∧
    (s.pipeAttempt pipe.val = some (p, j, t) → s.decodeLate j p (Sp.cls (s.attemptSample j t)) = false →
      (Sp.frame0 (s.attemptSample j t) + Mr.nfr j.bits) * frameBytes p.head ≤ px.length →
      let u := s.freePipe pipe.val
      let w := ({ u with txns := u.txns.filter (·.client != sampleClient j t.pos) } : State).writeSample j t.pos fun z =>
        outputValue j.bits (Sp.codec (s.attemptSample j t) = 0) p.head px (Sp.frame0 (s.attemptSample j t) + z.1) z.2.1 z.2.2.1
          z.2.2.2
      exec (.mdeDecodeDone pipe true px) s = .next
        (((w.takeMean j.ctx (Sp.cls (s.attemptSample j t)) (s.dev.time - p.since)).wrapReg pgMde 0x1C0 (Mr.nfr j.bits)).onMdeJob
          j.serial fun k => k.putAtt { t with st := 2 })) ∧
    (s.pipeAttempt pipe.val = some (p, j, t) → s.decodeLate j p (Sp.cls (s.attemptSample j t)) = true →
      exec (.mdeDecodeTimeout pipe) s = .next ((s.freePipe pipe.val).rejectAttempt j t 6)) ∧
    (s.input.jobs = j :: js → s.power.mod = 2 → s.enabled pgMde = true → exec .mdeCommit s = .next (s.mdeCommit j)) ∧
    (s.input.sau = q :: qs → s.power.mod = 2 → s.enabled pgSau = true → exec .sauAlign s = .next (s.sauAlign q)) ∧
    (s.accepts r pgSau 0x100 = true → bit v 31 = true → s.input.releasing = false → (s.input.owner = 0 ∨ s.input.owner = 2) →
      exec (.stageEnable r true v) s =
        .next (((s.setRegBit pgSau 0x100 31 true).conflict pgSau false).onInput fun x => { x with owner := 2 })) ∧
    (s.accepts r pgMde 0x100 = true → bit v 31 = true → s.input.owner = 2 →
      exec (.stageEnable r false v) s = .next (s.conflict pgMde true)) ∧
    (s.accepts r pgMde 0x100 = true → bit v 31 = false → s.input.owner = 1 →
      exec (.stageEnable r false v) s =
        .next ((s.setRegBit pgMde 0x100 31 false).onInput fun x => { x with releasing := true })) ∧
    (s.input.releasing = true → s.stageUsed = false →
      exec .stageReleaseDone s = .next (s.onInput fun x => { x with owner := 0, releasing := false }))

/-! The links and the host. -/

/-- A packet that arrives at an ACTIVE port (R397, R398, R401, R410-R412): a header that fails its check is counted, sets the
error bit and is answered with a NACK; a form that is not allowed is counted and its credit returned; any other wakes its port
and credits that it carries are taken; one for another device goes on by its route with one hop more, and its credit is
returned; a request for this device waits in its port while an earlier one waits there or responses to its sender lack credit
(R402); one that need not wait is consumed as its type says, and its credit is returned; then, as after a CREDIT packet, the
requests that waited and need not any longer are served. -/
def Obligations.PacketsArrive : Prop :=
  ∀ (i : Instr) (p : Nat) (k : Packet) (s : State), rowPacket i = some (k.type.toNat, p, k) → s.portActive p = true →
    let t := (s.stir p k).takeCredits p k
    let owe := fun (u : State) => u.owe p (packetLane k) (packetCost k)
    let back := fun (u : State) => (owe u).serveReady
    let held := t.links.stalled.any (·.1 = p) || t.responseHeld k.src.toNat
    let err := fun (u : State) => (u.countReg (pgFl p) 0x11C 1).errSet (pgFl p) 3
    (k.hcrcOk = false → exec i s = .next ((err s).setPort p { (err s).port p with nacking := true })) ∧
    (k.hcrcOk = true → packetAllowed k = false → exec i s = .next (owe (err t))) ∧
    (k.hcrcOk = true → packetAllowed k = true → k.type = 1 → exec i s = .next t.serveReady) ∧
    (k.hcrcOk = true → packetAllowed k = true → k.type ≠ 1 → k.dst.toNat ≠ t.ownId → exec i s = .next (owe (t.forward p k))) ∧
    (k.hcrcOk = true → packetAllowed k = true → k.type ≠ 1 → k.dst.toNat = t.ownId → k.vc = 0 → held = true →
      exec i s = .next { t with links := { t.links with stalled := t.links.stalled ++ [(p, k)] } }) ∧
    (k.hcrcOk = true → packetAllowed k = true → k.dst.toNat = t.ownId → k.vc ≠ 0 ∨ held = false →
      (k.type = 2 → exec i s =
        .next (back (t.serveFar k k.addr.toNat (if k.len = 0 then 4096 else 64 * k.len.toNat) none))) ∧
      (k.type = 5 → exec i s = .next (back (t.takeWriteData k false false))) ∧
      (k.type = 6 → exec i s = .next (back (t.takeWriteData k true false))) ∧
      (k.type = 7 → exec i s = .next (back (t.takeWriteData k false true))) ∧
      (k.type = 8 → exec i s = .next (back (t.takeWriteData k true true))) ∧
      (k.type = 0xB → exec i s = .next (back (t.serveReg k false))) ∧
      (k.type = 0xC → exec i s = .next (back (t.serveReg k true))) ∧
      (∀ x, t.asked k = some x →
        (k.type = 3 → x.write = false → exec i s = .next (back (t.takeBytes x.tag k.addr.toNat k.data))) ∧
        (k.type = 4 → x.write = false → exec i s = .next (back (t.takePacked x k.addr.toNat k.data))) ∧
        (k.type = 9 → x.write = true → exec i s = .next (back (t.takeAckPacket x (fld k.addr 7 0)))) ∧
        (k.type = 0xA → x.write = false → exec i s = .next (back ((t.onTxn x.tag fun u =>
          { u with done := true, status := fld k.addr 7 0 }).ended x.tag))) ∧
        (k.type = 0xD → x.write = false → exec i s = .next (back ((t.onTxn x.tag fun u =>
          { u with parts := [(u.addr, k.data.take 4)], done := true }).ended x.tag)))))

/-- A port's frames, training and failures (R395, R403-R409, R413, R421): a frame at an ACTIVE port is taken, and requests and
batons that waited are served where they can be; enabling a port starts its training, which goes from signal to equalisation to codeword lock with at least
two lanes and the exchange of identities, and ends ACTIVE with credits granted, or with the relay replayed where it was a
retraining; a port without signal in 100 ms is DOWN; a failed lane is dropped and told, and fewer than two lanes take the port
down; a reshaped port replays; a relay that waits 50 µs retrains, and the fault
manager counts that; a request without an answer for 10 ms ends with
`LINK_UNREACHABLE`; the route bank is the one that the register names. -/
def Obligations.PortsTrainAndFail : Prop :=
  ∀ (r : Requester) (p : Fin 16) (f : Frame) (v : Word) (lanes : BitVec 4) (lane : Fin 4) (id : BitVec 11) (port : BitVec 4)
      (pos : BitVec 12) (m : LinkMsg) (tag : Nat) (x : Txn) (s : State),
    let n := p.val
    let y := s.port n
    (s.power.mod = 2 → s.portActive n = true →
      let t := s.takeFrame n f
      let u := t.serveReady
      exec (.frameReceive p f) s = .next (u.admitWaiting u.sch.waiting.length)) ∧
    (s.accepts r (pgFl n) 0x104 = true → s.hostPort n = false → s.locked (pgFl n) = false → bit v 31 = true →
      bit (s.reg (pgFl n) 0x104) 31 = false →
      exec (.flCfgWrite r p v) s = .next ((s.setReg (pgFl n) 0x104 (v &&& 0xF800000F)).train n false)) ∧
    (s.accepts r (pgFl n) 0x104 = true → s.hostPort n = false → s.locked (pgFl n) = false → bit v 31 = false →
      bit (s.reg (pgFl n) 0x104) 31 = true →
      exec (.flCfgWrite r p v) s = .next ((s.setReg (pgFl n) 0x104 (v &&& 0xF800000F)).portDrop n 0)) ∧
    (s.accepts r pgRoute 0x100 = true → exec (.routeBankFlip r v) s = .next (s.setReg pgRoute 0x100 (v &&& 1))) ∧
    (s.flaip n = true →
      (y.st = 2 → y.step = 1 → exec (.trainingSignal p) s = .next (s.setPort n { y with step := 2 })) ∧
      (y.st = 2 → y.step = 1 → y.since + 100000000 ≤ s.dev.time → exec (.trainingNoSignal p) s = .next (s.portDrop n 1)) ∧
      (y.st = 1 → bit (s.reg (pgFl n) 0x104) 31 = true → y.since + 1000000000 ≤ s.dev.time →
        exec (.trainingNoSignal p) s = .next (s.train n false)) ∧
      (y.st = 2 → y.step = 2 → exec (.equalisationDone p) s = .next (s.setPort n { y with step := 3 })) ∧
      (let l := Nat.land (Nat.land lanes.toNat (s.lanesOn n)) (if y.retrain then y.lanes else 15)
       y.st = 2 → y.step = 3 →
        (laneCount l < 2 → exec (.codewordLock p lanes) s = .next (s.portDrop n 1)) ∧
        (2 ≤ laneCount l → exec (.codewordLock p lanes) s = .next
          ((s.setPort n { y with lanes := l, step := 4 }).emit
            (.linkctl n ((s.setPort n { y with lanes := l, step := 4 }).exchangeMsg n))))) ∧
      (∀ (map : BitVec 4) e2, m = .exchange id port map e2 pos → y.st = 2 → y.step = 4 →
        let both := Nat.land y.lanes map.toNat
        (laneCount both < 2 → exec (.linkctl p m) s = .next (s.portDrop n 1)) ∧
        (2 ≤ laneCount both → exec (.linkctl p m) s = .next (s.setPort n
          { y with step := 5, lanes := both, peerId := id.toNat, peerPort := port.toNat, peerAck := pos.toNat }))) ∧
      (exec (.linkctl p (.laneDrop lane)) s = .next (s.dropLane n lane.val false)) ∧
      (y.st = 2 → y.step = 5 → y.retrain = false →
        let t := s.portState n 3
        exec (.linkExchangeDone p) s =
          .next ((t.setPort n { t.port n with step := 0, window := [], winStart := s.dev.time }).grantAll n)) ∧
      (exec (.laneFail p lane) s = .next (s.dropLane n lane.val true)) ∧
      (y.st = 4 → exec (.reshapeDone p) s = .next (((s.portState n 3).replay n).drainPort n)) ∧
      (y.st = 3 → y.relay ≠ [] → y.since + 50000 ≤ s.dev.time → exec (.relayTimeout p) s = .next
        (((((s.countReg (pgFl n) 0x118 1).errSet (pgFl n) 1).raise (pgFl n) 2).train n true).flmEvent 4 n))) ∧
    (s.txn tag = some x → x.done = false → x.dst ≠ 2048 → x.since + 10000000 ≤ s.dev.time →
      exec (.linkReqTimeout tag) s = .next ((s.onTxn tag fun u => { u with done := true, status := 12 }).ended tag))

/-! Events. -/

/-- CLAIM (R435): a read of a target's claim register answers the claimable pending source of highest priority, the lowest number
on a tie, with its priority and bit 31; the source leaves the pending set and goes on top of the target's stack. With none
claimable it answers 0. Nothing else changes. -/
def Obligations.ClaimTakesHighestPriority : Prop :=
  ∀ (r : Requester) (t : Fin 9) (s : State),
    s.reachable (1 + hubOf t.val) (0x400 + 0x10 * t.val) = true → s.hubUp (hubOf t.val) = true → s.isFrozen t.val = false →
    (t.val = 8 → s.dev.anchor = true) → s.evh.pend.Pairwise (· < ·) →
    (∀ n ∈ s.evh.pend, s.claimable t.val n = true →
      (∀ m ∈ s.evh.pend, s.claimable t.val m = true → m ≠ n →
        s.srcPrio m < s.srcPrio n ∨ (s.srcPrio m = s.srcPrio n ∧ n < m)) →
      exec (.claim r t) s = .next ((({ s with evh := { s.evh with
        pend := s.evh.pend.filter (· != n), told := s.evh.told.filter (· != n) } } : State).setStack t.val
          ((n, s.srcPrio n) :: s.stack t.val)).reply r (some (BitVec.ofNat 32 (2 ^ 31 + s.srcPrio n * 2 ^ 16 + n))))) ∧
    ((∀ n ∈ s.evh.pend, s.claimable t.val n = false) → exec (.claim r t) s = .next (s.reply r (some 0)))

/-- The other commands of the event hubs (R434-R442): an enabled source's event becomes pending, or is lost and counted where it is
pending or in service, and a disabled source's is dropped; an EOI of the top of the stack pops it, of another source is a stack
fault; RESET empties the stack and unfreezes the target; a source register takes firmware's fields, and none from the host for a
target that is not the host's; a comparator is written by its owner and refused with the conflict flag to others, and fires at
its time; an idle hub freezes and a thawing one thaws; unmasking a vector sends its held message. -/
def Obligations.EventHubs : Prop :=
  ∀ (r : Requester) (n : Fin 1024) (t : Fin 9) (k : Fin 8) (o : Fin 16) (h : Fin 2) (vec : Fin 64) (v : Word) (e : Nat × Nat)
      (rest : List (Nat × Nat)) (s : State),
    let hub := hubOf (s.srcTarget n.val)
    let s1 : State := { s with raised := s.raised.erase n.val }
    let pg := 1 + hubOf t.val
    let p := tmrPage k.val
    let off := tmrOff k.val
    (s.power.mod = 2 → s.raised.contains n.val = true → bit (s.src n.val) 31 = false →
      exec (.eventDeliver n) s = .next s1) ∧
    (s.power.mod = 2 → s.raised.contains n.val = true → bit (s.src n.val) 31 = true → Store.get false s.evh.frost hub = false →
      s.evh.pend.contains n.val = false → s.inService n.val = false →
      exec (.eventDeliver n) s = .next (s1.makePending n.val).notifyHost) ∧
    (s.power.mod = 2 → s.raised.contains n.val = true → bit (s.src n.val) 31 = true → Store.get false s.evh.frost hub = false →
      (s.evh.pend.contains n.val = true ∨ s.inService n.val = true) →
      exec (.eventDeliver n) s = .next (s1.loseEvent n.val)) ∧
    (s.accepts r pg (0x404 + 0x10 * t.val) = true → s.isFrozen t.val = false → s.stack t.val = e :: rest →
      (e.1 = fld v 9 0 → exec (.eoi r t v) s = .next (s.setStack t.val rest).notifyHost) ∧
      (e.1 ≠ fld v 9 0 → exec (.eoi r t v) s = .next (s.stackFault t.val))) ∧
    (s.accepts r pg (0x40C + 0x10 * t.val) = true → bit v 0 = true →
      let u := s.setStack t.val []
      exec (.evhReset r t v) s = .next
        ({ u with evh := { u.evh with frozen := Store.set false u.evh.frozen t.val false } } : State).notifyHost) ∧
    (s.accepts r 1 (evSrc n.val) = true → r ≠ .host → fld v 30 27 < 8 → bit v 31 = true → bit v 14 = true →
      exec (.evhSrcWrite r n v) s =
        .next (s.setReg 1 (evSrc n.val) (setFld (setFld (setFld 0 31 17 (fld v 31 17)) 14 14 0) 7 0 0)).notifyHost) ∧
    (s.accepts .host 1 (evSrc n.val) = true → fld (s.src n.val) 30 27 ≠ 8 → exec (.evhSrcWrite .host n v) s = .next s) ∧
    (s.accepts r p off = true → s.tmrForeign k.val (writeOwner r o.val) = true →
      exec (.evhTmrCtrlWrite r k o v) s = .next (s.conflict p true)) ∧
    (s.accepts r p off = true → s.tmrForeign k.val (writeOwner r o.val) = false → bit v 30 = false → bit v 31 = true →
      bit (s.reg p off) 31 = false → bit (s.reg p off) 25 = false → exec (.evhTmrCtrlWrite r k o v) s =
        .next (((s.setReg p off (setFld (setFld (setFld 0 31 30 (fld v 31 30)) 29 26 (writeOwner r o.val)) 25 25
          (fld (s.reg p off) 25 25))).conflict p false).setTmrHit k.val false)) ∧
    (s.power.mod = 2 → s.tmrDue k.val = true → bit (s.reg p off) 30 = false →
      exec (.timerFire k) s = .next ((s.raise p (k.val % 4)).setTmrHit k.val true)) ∧
    (s.power.mod = 2 → bit (s.reg (1 + h.val) 8) 4 = true → Store.get false s.evh.frost h.val = false →
      exec (.hubFrost h) s = .next { s with evh := { s.evh with frost := Store.set false s.evh.frost h.val true } }) ∧
    (Store.get false s.evh.frost h.val = true → Store.get false s.evh.thaw h.val = true →
      exec (.hubThaw h) s = .next (s.hubThaw h.val)) ∧
    (s.accepts .host 0x31 (msixOff vec.val 3) = true →
      let u := s.setRegBit 0x31 (msixOff vec.val 3) 0 false
      (u.msixPending vec.val = false → exec (.msixVectorUnmask vec) s = .next u) ∧
      (u.msixPending vec.val = true →
        exec (.msixVectorUnmask vec) s = .next ((u.setMsixPending vec.val false).emit (.msix vec.val))))

/-! Runs. -/

/-- The submission lists (R425, R426, R428, R430, R443): `DEV_SUBQk_CFG` takes its fields while the list is off, needs an entry count
of the table and a span in the outer tier to turn it on, and turns it off; the header watch of a list fires once. A RUN entry
whose header is malformed or of no kind is refused MALFORMED; one that the check refuses takes that status; one whose units are
off powers them up and stays; one that passes, without a GROUP item on the anchor, is accepted: its claims are set up, its
status is ACCEPTED and the lists of its LAUNCH items start. -/
def Obligations.RunEntriesAreCheckedAndSetUp : Prop :=
  ∀ (r : Requester) (k : Fin 8) (v : Word) (h : Header) (s : State),
    let n := fld v 12 0
    let fits : Bool := [16, 32, 64, 128, 256, 512, 1024, 2048, 4096].contains n &&
      decide (s.subqBase k.val + 512 * n ≤ outerSize s.dev.variant)
    let addr := s.entryAddr k.val (s.nextEntry k.val)
    let xs := s.items addr h
    let check := (s.consume k.val).checkRun none k.val addr h xs
    (s.accepts r 0 (subqOff k.val 2) = true → (r ≠ .host ∨ s.dev.anchor = true) →
      (s.subqOn k.val = true → bit v 31 = false →
        exec (.devSubqCfgWrite r k v) s = .next
          { s.setRegBit 0 (subqOff k.val 2) 31 false with ctl := { s.ctl with watch := s.ctl.watch.filter (· != k.val) } }) ∧
      (s.subqOn k.val = true → bit v 31 = true → exec (.devSubqCfgWrite r k v) s = .next s) ∧
      (s.subqOn k.val = false → bit v 31 = false →
        exec (.devSubqCfgWrite r k v) s = .next (s.setReg 0 (subqOff k.val 2) (v &&& 0x1FFF))) ∧
      (s.subqOn k.val = false → bit v 31 = true → fits = true →
        exec (.devSubqCfgWrite r k v) s =
          .next ((s.setReg 0 (subqOff k.val 2) (v &&& 0x80001FFF)).setReg 0 (subqOff k.val 3) 0)) ∧
      (s.subqOn k.val = false → bit v 31 = true → fits = false →
        exec (.devSubqCfgWrite r k v) s = .next ((s.errSet 0 0).errCount 0 1))) ∧
    (s.ctl.watch.contains k.val = true → exec (.lineWatchFire k) s =
      .next (({ s with ctl := { s.ctl with watch := s.ctl.watch.filter (· != k.val) } } : State).raise
        (pgCtl ((s.servingCore k.val).getD (4 * (k.val / 4)))) 0)) ∧
    (s.header k.val = none → exec (.run k) s = .next s) ∧
    (s.header k.val = some h → 4 < Hd.kind h ∨ (Hd.kind h = 1 ∧ s.headerBad h = true) →
      exec (.run k) s = .next ((s.consume k.val).refuse addr stMalformed none)) ∧
    (s.header k.val = some h → Hd.kind h = 1 → s.headerBad h = false → s.dev.anchor = true →
      (xs.any fun x => x.type = 0x0F) = false →
      (∀ st item u, check = .refuse st item u → exec (.run k) s = .next (u.refuse addr st item)) ∧
      (∀ u, check = .power u →
        exec (.run k) s = .next (u.setReg 0 (subqOff k.val 3) (s.reg 0 (subqOff k.val 3)))) ∧
      (∀ ctx u, check = .ok ctx u → u.dev.anchor = true →
        exec (.run k) s = .next (u.acceptRun ctx (s.launchesOf xs))))

/-- Steps and ends (R430, R431, R275, R365, R532): a STEP entry of a run in progress is accepted, writes `STEPNO` and its register
pairs and starts its lists, and stays open until they have halted, when its status becomes COMPLETE; where the run owns the KVD its
lists get their bases and ADMIT is issued in place of their starts, once the step before it is over; the Pacer of a run without the
SCH begins again with it. An END entry lets the run end and an ABORT entry abandons every list; a STEP or END entry that names no
run is refused MALFORMED; 100 ms without an answer of a part count as CONFLICT; a run that ends and waits for nothing more lets its
grants lapse, and, once no admitted read and no held page is left, releases its claims and takes its final status. -/
def Obligations.StepsAndEndsOfRuns : Prop :=
  ∀ (k : Fin 8) (c : Fin 8) (dev : BitVec 11) (h : Header) (ctx : Nat) (r : Run) (s : State),
    let addr := s.entryAddr k.val (s.nextEntry k.val)
    let t := s.consume k.val
    let open1 := fun (kind : Nat) (sites : List Nat) =>
      ((t.putStatus addr stAccepted 0 ctx 0 0 0 0).openAdd ⟨addr, kind, ctx, sites, none⟩)
    let all : State → State := fun u => (r.parts.filter RunPart.runs).foldl (fun s q => s.endPart ctx 3 r.list q) u
    (s.power.mod = 2 → s.ctl.released = true → let u := s.closeSteps
      (u.header k.val = none → exec (.step k) s = .next u) ∧
      (u.header k.val = some h → Hd.kind h = 2 → u.headerBad h = false →
        let addr := u.entryAddr k.val (u.nextEntry k.val)
        let ls := u.launchesOf (u.items addr h)
        (u.namedRun h = none → exec (.step k) s = .next ((u.consume k.val).refuse addr stMalformed none)) ∧
        (u.namedRun h = some (ctx, r) →
          firstItem (fun b x => (x.type != 0x0C && x.type != 0x0D) || u.itemBad r.claims b x) (u.items addr h) = none →
          r.ending ≠ 2 →
          let kv := r.claims.holdsKvd && u.kvdOn
          let v := ((((u.consume k.val).putStatus addr stAccepted 0 ctx 0 0 0 0).onRun ctx fun r => { r with stepno := Hd.stepno h
            }).openAdd ⟨addr, 2, ctx, ls.map fun l => u.siteOf l.lcore, if kv then some (u.reg pgKvd 0x11C).toNat else none⟩)
          let w := (if r.claims.pacer && !r.claims.sch && u.pacerCtx = ctx then v.pacerHome else v).writePairs ctx r.claims
            (u.allPairs (u.items addr h)) none
          (kv = false → exec (.step k) s = .next (ls.foldl State.startLaunch w)) ∧
          (kv = true → u.kvdStepping ctx = false → exec (.step k) s = .next (((ls.foldl (fun s l =>
            s.idleWrite (s.siteOf l.lcore) fun c => { c with seq := { c.seq with base := l.base, baseSpd := l.spd } }) w).onKvd fun x =>
              { x with starts := ls.map fun l => u.siteOf l.lcore }).kvdCmdWrite 1)) ∧
          (kv = true → u.kvdStepping ctx = true → exec (.step k) s = .next u)))) ∧
    (s.header k.val = some h → Hd.kind h = 3 → s.headerBad h = false → s.items addr h = [] →
      (s.namedRun h = none → exec (.endRun k) s = .next (t.refuse addr stMalformed none)) ∧
      (s.namedRun h = some (ctx, r) → r.ending = 0 →
        exec (.endRun k) s = .next (all ((open1 3 []).onRun ctx fun r => { r with ending := 1 }))) ∧
      (s.namedRun h = some (ctx, r) → r.ending ≠ 0 → exec (.endRun k) s = .next (open1 3 []))) ∧
    (s.header k.val = some h → Hd.kind h = 4 → s.headerBad h = false → s.items addr h = [] →
      s.namedRun h = some (ctx, r) →
      exec (.abort k) s = .next ((open1 4 []).endRunWith ctx stAborted 0 s.ownId 0 0)) ∧
    (s.run c.val = some r → s.regsUp = true → r.accepted = false → r.since + 100000000 ≤ s.dev.time →
      (r.parts.any fun p => p.device = dev.toNat && p.answer.isNone) = true →
      exec (.groupPartTimeout c dev) s =
        .next (s.partAnswer c.val dev.toNat (stConflict * 2 ^ 56 + 0xFF * 2 ^ 48))) ∧
    (s.run c.val = some r → s.regsUp = true → r.ending ≠ 0 → s.runQuiet r = true → s.streamsLeft r = false →
      r.claims.pacer = false →
      let u := s.lapseGrants c.val
      let held := u.grantsBusy c.val || u.kvdHeld c.val || u.pagesHeld c.val 1
      (held = false → exec (.runEnd c) s = .next (u.finishRun c.val r)) ∧
      (held = true → exec (.runEnd c) s = .next u))

/-- Firmware's answer to a fault (R432, R483): a stopped list whose stream may not be disarmed is continued once no shadow is left; a
poisoned or unreadable operand of a run with an SCH gives the lap up, and so does an unreachable device, whose port is counted,
while one that is lost already is left to the restore; any other fault, and each of these in a run without an SCH, ends the run with ENDED_FAULT, the code, the device, the core and the entry. A list
not stopped is left, and units' reports and repairs without a source are answered after it. -/
def Obligations.FaultsAreAnswered : Prop :=
  ∀ (n : Fin 136) (s : State),
    let c := s.core n.val
    let f := c.seq.frec
    let step := fun (t : State) => exec (.faultResponse n) s = .next t.answerUnits.answerRepairs
    s.regsUp = true → s.ctl.released = true →
      (c.seq.st ≠ .stoppedFault → step s) ∧
      (c.seq.st = .stoppedFault → c.ctxValid = true → s.runLive c.ctx = true →
        (f.code = 6 → (s.stu n.val (scx f.desc)).shadow = none → (s.stu n.val (scx f.desc)).shadowFetch = none →
          step (s.listCtrl n.val 4)) ∧
        (f.code = 5 ∨ f.code = 10 → (s.claims c.ctx).sch = true → step (s.giveUpLap c.ctx)) ∧
        (f.code = 12 → (s.claims c.ctx).sch = true → s.isLost (gDev f.addr) = true → step s) ∧
        (f.code = 12 → (s.claims c.ctx).sch = true → s.isLost (gDev f.addr) = false →
          (∀ p, s.listedPort (gDev f.addr) = some p → step ((s.flmEvent 4 p).giveUpLap c.ctx)) ∧
          (s.listedPort (gDev f.addr) = none → step (s.giveUpLap c.ctx))) ∧
        (f.code ≠ 6 → (f.code ≠ 5 ∧ f.code ≠ 10 ∧ f.code ≠ 12) ∨ (s.claims c.ctx).sch = false →
          step (s.endRunWith c.ctx stEndedFault f.code s.ownId ((s.lcoreOf n.val).getD 0) f.index)))

/-! Start-up and the host's bridge. -/

/-- Start-up (R497, R518, R521, R522): the standby rails take an OFF module with `MOD_RESET_N` high to STANDBY; the end of reset latches
the straps and enters STANDBY; with `MOD_PWR_GOOD` the ROM boots a valid image, or none, applies the retirements and makes the
module ACTIVE; control cores released on a rightly strapped device reach stage 4, count the boot and enable the listed ports; at the end of
training discovery reaches stage 6, makes routes and `GROUP_READY` on the anchor; a later device of the group is admitted. -/
def Obligations.StartUpSteps : Prop :=
  ∀ (mv : Nat) (g : BitVec 5) (slot : BitVec 6) (anchor : Bool) (failed : List (Fin 4 × Fin 9)) (ports : BitVec 16)
      (reports : List DeviceReport) (d : DeviceReport) (s : State),
    (s.power.mod = 0 → s.power.standby = false → 58000 < mv → s.power.resetLow = false →
      exec (.v72Rise mv) s =
        .next ({ s with power := { s.power with vin := mv, standby := true, mod := 1 } } : State).mgcBoot) ∧
    (s.power.resetLow = true → s.power.standby = true →
      exec (.modResetRelease g slot anchor) s = .next (s.leaveReset g slot anchor).mgcBoot) ∧
    (s.power.mod = 1 → s.power.good = true → s.power.resetLow = false → s.power.stopping = false → s.trb.booted = false →
      s.trb.noImage = false →
      let v := s.riseActive failed
      64 ≤ (v.goodSites 0).length → 64 ≤ (v.goodSites 1).length →
      exec (.trbBoot failed) s = .next (if v.trb.noImage then v.stage 7 1 else v).moduleEvent) ∧
    (s.power.mod = 2 → s.trb.booted = true → s.ctl.released = false → s.outOfService = false →
      (s.dev.anchor = false ∨ s.dev.strapSlot = 0) →
      exec (.controlRelease ports) s = .next ((List.range 16).foldl (fun t p =>
        if ports.getLsbD p && !t.hostPort p && !t.flm.portsOff.contains p
        then t.flCfgWrite p (t.reg (pgFl p) 0x104 ||| 0x80000000) else t)
        (({ s with ctl := { s.ctl with released := true },
                   trb := { s.trb with bootCount := satAdd32 s.trb.bootCount 1 } } : State).stage 4 0))) ∧
    (s.regsUp = true → s.ctl.released = true → fld (s.reg 0 0x180) 31 28 = 4 → s.portsSettled = true →
      (s.dev.anchor = false → exec (.groupDiscovery reports) s = .next ((s.stage 5 0).stage 6 0)) ∧
      (s.dev.anchor = true →
        let here := reports.filter fun d => d.reachedBy && !(d.interGroup && d.id.toNat / 64 != s.dev.group.toNat)
        let ids := (here.filter fun d => (s.leftOut here d).isNone).map (·.id.toNat)
        (here.filterMap fun d => (s.leftOut here d).map fun c => (d.id.toNat, c)) = [] →
        exec (.groupDiscovery reports) s =
          .next ((((s.stage 5 0).drawRoutes false ids).stage 6 0).groupReady (min 64 (1 + ids.length))))) ∧
    (s.regsUp = true → s.dev.anchor = true → bit (s.reg 0 0x180) 21 = true → s.runActive = false → d.reachedBy = true →
      d.id.toNat / 64 = s.dev.group.toNat → d.id.toNat ≠ s.ownId → bit (s.routeEntry false (d.id.toNat % 64)) 31 = false →
      exec (.lateAdmit d) s =
        .next ((s.drawRoutes true [d.id.toNat]).groupReady (min 64 (fld (s.reg 0 0x180) 6 0 + 1))))

/-- The host's bridge (R418, R420, R423, R515, R522): BAR0 reaches the registers of the selected slot, the own ones directly
and a reachable device's over the fabric, and completes with Unsupported Request where no slot is selected or the device cannot
be reached; an access of another form is refused by the register bus; BAR2 reaches the outer tier through its sub-window, its own
or that of a reachable device, and nothing else of a device; PERST holds the bridge in reset; configuration requests are retried
until start-up completes; a link change is recorded. -/
def Obligations.HostReachesThroughTheBridge : Prop :=
  ∀ (off : BitVec 26) (w : Nat) (data : Option Word) (b : BitVec 36) (len : Nat) (bytes : List Byte) (g a dst : Nat)
      (low : Bool) (wd : BitVec 5) (s : State),
    let sel := s.reg pgHbr 0x100
    let slot := s.dev.group.toNat * 64 + fld sel 5 0
    let u := s.awaken
    (s.bridgeUp = true →
      (bit sel 31 = false → exec (.hostBar0Window off w data) s = .next (u.hostRefuse data.isSome)) ∧
      (bit sel 31 = true → ¬(w = 4 ∧ off.toNat % 4 = 0) →
        exec (.hostBar0Window off w data) s = .next (u.badAccess .host data.isNone)) ∧
      (bit sel 31 = true → w = 4 → off.toNat % 4 = 0 →
        (slot = s.ownId → exec (.hostBar0Window off w data) s = .next (match data with
          | some v => s.writeReg .host (off.toNat / 65536) (off.toNat % 65536) v
          | none => s.answerRead .host (off.toNat / 65536) (off.toNat % 65536))) ∧
        (slot ≠ s.ownId → s.reaches slot = true →
          exec (.hostBar0Window off w data) s = .next (u.regRequest .host slot off.toNat data)) ∧
        (slot ≠ s.ownId → s.reaches slot = false →
          exec (.hostBar0Window off w data) s = .next (u.hostRefuse data.isSome)))) ∧
    (s.bridgeUp = true → u.barTarget b.toNat len false = none →
      exec (.hostBar2Read b len) s = .next (u.hostRefuse false)) ∧
    (s.bridgeUp = true → u.barTarget b.toNat len false = some g → u.target g len = .outer a →
      exec (.hostBar2Read b len) s = .next (u.access ⟨.host, false, .remote, a, len, []⟩ SectorFault.none)) ∧
    (s.bridgeUp = true → u.barTarget b.toNat bytes.length true = some g → u.target g bytes.length = .outer a →
      exec (.hostBar2Write b bytes) s =
        .next (u.access ⟨.host, true, .remote, a, bytes.length, bytes⟩ SectorFault.none)) ∧
    (s.bridgeUp = true → u.barTarget b.toNat bytes.length true = some g → u.target g bytes.length = .far dst a →
      (a + bytes.length ≤ nearBase → u.reaches dst = true → exec (.hostBar2Write b bytes) s =
        .next (u.request .host 0 dst a bytes.length (some bytes)).settle) ∧
      (nearBase < a + bytes.length ∨ u.reaches dst = false →
        exec (.hostBar2Write b bytes) s = .next (u.hostRefuse true))) ∧
    (s.dev.anchor = true → s.regsUp = true → exec (.hostPerst low) s =
      .next (if low then ({ s with power := { s.power with perst := true } } : State).blockReset 0x31
        else { s with power := { s.power with perst := false } })) ∧
    (s.dev.anchor = true → s.power.perst = false → s.power.resetLow = false → s.power.good = true →
      (s.regsUp = false → exec .hostConfigurationRequest s = .next (s.emit (.hostReply 3 []))) ∧
      (s.regsUp = true →
        exec .hostConfigurationRequest s = .next ((s.freeBytes 4).2.emit (.hostReply 0 (s.freeBytes 4).1)))) ∧
    (s.bridgeUp = true →
      exec (.hbrLinkStateChange true 8 3 false) s = .next ((s.setReg pgHbr 0x104 (BitVec.ofNat 32 (8 * 2 ^ 16 + 2 ^ 4 + 3))).raise pgHbr 0) ∧
      exec (.hbrLinkStateChange false wd 0 false) s =
        .next ((if fld (s.reg pgHbr 0x104) 1 0 ≠ 0 then (s.setReg pgHbr 0x104 0).errSet pgHbr 1 else s.setReg pgHbr 0x104 0).raise
          pgHbr 0))

/-! Power and the module. -/

/-- The cap and the thermal loop (R446, R451, R455-R459, R464, R465): a valid cap is taken and an invalid one sets the error flag;
the 10 µs step runs on the 100 µs average, and one above the cap, while a site is above point 0, cuts every budget in proportion; 2,200 W in a 1 µs average puts
every site at point 0 for 20 µs; a valid maximum frequency rebalances the groups; low input is marked until 60 V, with its error flag and event when it begins; all 180
sensors are read together. -/
def Obligations.CapAndThermalLoops : Prop :=
  ∀ (r : Requester) (h : Fin 2) (v : Word) (mv watts : Nat) (rs : List SensorReading) (s : State),
    let c := fld v 11 0
    let low : State := { s with power := { s.power with vin := mv, lowv := true } }
    (s.accepts r 4 0x100 = true → c < 600 ∨ 1800 < c → exec (.pwcCapWrite r v) s = .next (s.errSet 4 0)) ∧
    (s.accepts r 4 0x100 = true → 600 ≤ c → c ≤ 1800 →
      (r ≠ .mgc → exec (.pwcCapWrite r v) s = .next (s.setReg 4 0x100 (BitVec.ofNat 32 c))) ∧
      (r = .mgc → exec (.pwcCapWrite r v) s = .next ((s.setReg 4 0x100 (BitVec.ofNat 32 c)).raise 9 1))) ∧
    (s.accepts r (5 + h.val) 0x100 = true → 850 ≤ c → c ≤ 1900 → (s.power.calDefault = true → c ≤ 1500) →
      exec (.pwcFreqMaxWrite r h v) s = .next (s.setReg (5 + h.val) 0x100 (BitVec.ofNat 32 c)).rebalanceAll) ∧
    (s.accepts r (5 + h.val) 0x100 = true → c < 850 ∨ 1900 < c → exec (.pwcFreqMaxWrite r h v) s = .next s) ∧
    (s.regsUp = true → exec (.capStep watts) s = .next (s.capStep watts)) ∧
    (s.regsUp = true → (s.sawPower watts).effCap < watts → (s.sawPower watts).atFloor = false →
      let u := s.sawPower watts
      let t := (List.range 34).foldl (fun t j => t.setBudget j (t.budget j * u.effCap / watts)) u
      let short : Bool := (List.range 34).any fun j => t.budget j < Config.fullBudget u.effCap j
      s.power.capActive = true → short = true →
      exec (.capStep watts) s = .next ({ t with power := { t.power with capActive := true } } : State).rebalanceAll) ∧
    (s.regsUp = true → 2200 ≤ watts →
      let u := ((s.sawPower watts).allSlow.countReg 4 0x118 1).raise 4 1
      exec (.fastThrottle watts) s =
        .next { u with power := { u.power with fast := true, fastUntil := u.dev.time + 20000 } }) ∧
    (s.power.fast = true → s.power.fastUntil ≤ s.dev.time →
      exec .fastThrottleEnd s = .next ({ s with power := { s.power with fast := false } } : State).rebalanceAll) ∧
    (s.regsUp = true → 56000 ≤ mv → mv < 60000 →
      (s.power.lowv = false → exec (.lowInputLimit mv) s = .next ((low.errSet 4 2).raise 4 0)) ∧
      (s.power.lowv = true → exec (.lowInputLimit mv) s = .next low)) ∧
    (s.regsUp = true → 60000 ≤ mv → mv ≤ 84000 →
      exec (.lowInputLimit mv) s = .next { s with power := { s.power with vin := mv, lowv := false } }) ∧
    (s.regsUp = true → rs.length = 180 → exec (.sensorRead rs) s = .next (s.readSensors rs))

/-- Regulators (R447, R452-R454): a shed phase leaves its stage, the phase register and the counter say so and the FLM logs it; a
droop is counted on its half and the 1,001st of a period raises the rate event; ageing adds 5 mV for each 1% of slowing, at
most 30 mV, and never takes any back; a retrim takes a free value; the estimate's weights follow the measured current. -/
def Obligations.RegulatorsKeepTheirTrim : Prop :=
  ∀ (stage phase island slow est meas : Nat) (s : State),
    let half := halfOf island
    let old := Store.get 0 s.power.margins island
    let n := Store.get 0 s.power.droops half + 1
    let w : Power := { s.power with shed := s.power.shed ++ [(stage, phase)] }
    s.regsUp = true →
      (stage < 4 → phase < (if stage = 0 then 6 else if stage = 3 then 12 else 16) →
        s.power.shed.contains (stage, phase) = false →
        exec (.phaseShed stage phase) s = .next ((((({ s with power := w } : State).setReg 4 0x11C (BitVec.ofNat 32
          (w.phases 0 * 2 ^ 28 + w.phases 2 * 2 ^ 16 + w.phases 1 * 2 ^ 8 + w.phases 3))).errSet 4 1).errCount 4 1).raise 4 3
            |>.flmLog 0x10 3 (16 * stage + phase) 0)) ∧
      (s.present island = true →
        let t := ({ s with power := { s.power with droops := Store.set 0 s.power.droops half n } } : State).countReg (5 + half) 0x108 1
        exec (.droop island) s = .next (if n = 1001 then t.raise (5 + half) 3 else t)) ∧
      (s.present island = true → exec (.regulatorRetrim island) s = .next { s.draw.2 with
        power := { s.draw.2.power with trims := Store.set 0 s.draw.2.power.trims island s.draw.1 } }) ∧
      (s.present island = true → max old (5 * slow) < 30 →
        ∃ u : State, exec (.ageingMeasure island slow) s = .next u ∧ Store.get 0 u.power.margins island = max old (5 * slow) ∧
          (u.reg (5 + half) 0x10C).toNat = max (s.reg (5 + half) 0x10C).toNat (max old (5 * slow))) ∧
      (0 < est → exec (.estimateCorrect est meas) s =
        .next { s with power := { s.power with weight := s.power.weight * meas / est } })

/-- The module's supply, reset and thermal trip (R445, R463, R465, R521): input below 56 V or from 84 V on removes every rail and
latches the cause; a thermal trip removes every rail but standby and latches its sensor; `MOD_PWR_EN` high in STANDBY gives
`MOD_PWR_GOOD`, low begins an orderly shut-down, whose end is STANDBY; `MOD_RESET_N` low holds the module in reset, where only the
phases shed stay shown (log 74); `FROST` sets the conflict flag while a run is active and else takes the module to FROST; a wake
source ends frost. -/
def Obligations.ModuleStatesFollowSupplyAndReset : Prop :=
  ∀ (mv sensor : Nat) (r : Requester) (v : Word) (s : State),
    let off := fun (cause : Nat) => ∃ u : State, u.power.mod = 0 ∧ u.power.standby = false ∧
      u.power.trip = BitVec.ofNat 32 (2 ^ 31 + cause) ∧ u.trb.fuseF = s.trb.fuseF ∧ u.flm.log = s.flm.log ∧
      (mv < 56000 → exec (.undervoltageLockout mv) s = .next u) ∧ (84000 ≤ mv → exec (.overvoltageShutdown mv) s = .next u)
    (s.power.standby = true → s.power.mod ≠ 0 → mv < 56000 → off 3) ∧
    (s.power.standby = true → s.power.mod ≠ 0 → 84000 ≤ mv → off 2) ∧
    (s.regsUp = true → sensor < 180 → ∃ u : State, exec (.thermalTrip sensor) s = .next u ∧ u.power.mod = 1 ∧
      u.power.trip = BitVec.ofNat 32 (2 ^ 31 + sensor * 65536 + 1) ∧ u.runs = [] ∧ u.cores = State.reset.cores) ∧
    (s.power.mod = 1 → s.power.stopping = false →
      exec .modPwrEnRise s = .next { s with power := { s.power with pwrEn := true, good := true } }) ∧
    (s.regsUp = true → exec .modPwrEnFall s = .next { s with power := { s.power with pwrEn := false, stopping := true } }) ∧
    (s.power.stopping = true → ∃ u : State, exec .shutdownDone s = .next u ∧ u.power.mod = 1 ∧ u.power.stopping = false ∧
      u.power.good = s.power.pwrEn ∧ u.runs = [] ∧ u.flm.log = s.flm.log) ∧
    (∃ u : State, exec .modResetAssert s = .next u ∧ u.power.resetLow = true ∧ u.power.mod = 0 ∧
      (s.power.shed = [] → u.regs = []) ∧ (s.power.shed ≠ [] → u.reg 4 0x11C = s.power.phaseWord) ∧
      u.flm.log = s.flm.log ∧ u.trb.fuseF = s.trb.fuseF ∧ u.pending = s.pending) ∧
    (s.accepts r 4 0x110 = true → bit v 0 = true →
      (s.runActive = true → exec (.frost r v) s = .next (s.conflict 4 true)) ∧
      (s.runActive = false → ∃ u : State, exec (.frost r v) s = .next u ∧ u.power.mod = 3 ∧ u.power.wake = false ∧
        u.tiers = s.tiers ∧ u.cores = s.cores ∧ u.regs = (s.conflict 4 false).regs)) ∧
    (s.power.mod = 3 → s.power.wake = true → ∃ u : State, exec .frostWake s = .next u ∧ u.power.mod = 2 ∧ u.tiers = s.tiers)

/-- The GPX pins (R519, R520): a free pin takes a function with its writer as owner, a pin of another owner and a unit held by
another pin are refused with the conflict flag; a rising edge on a TIME_CAPTURE pin latches `DEV_TIME` and counts; a leak pin low
sets `LEAK` and raises the event once; the cap-limit pin's level is shown, also the one it has when it takes the function. A pin without the function shows its level alone. -/
def Obligations.GpxPinsServeTheirFunction : Prop :=
  ∀ (r : Requester) (k : Fin 8) (v : Word) (low : Bool) (s : State),
    let c := s.reg 0 (gpxOff k.val)
    let w := if r = .host then 9 else 8
    let f := fld v 30 28
    let up := s.setPin k.val true
    (s.accepts r 0 (gpxOff k.val) = true →
      (bit c 31 = false → bit v 31 = true → f < 6 → s.gpxUnitHeld k.val f = false →
        let t := s.setReg 0 (gpxOff k.val) (setFld (setFld (setFld (0 : Word) 31 28 (8 + f)) 27 24 w) 0 0 (fld v 0 0))
        exec (.devGpxCfgWrite r k v) s =
          .next ((if f = 4 then t.setRegBit 0 0x1EC 2 (!Store.get false s.pins.gpx k.val) else t).conflict 0 false)) ∧
      (bit c 31 = true → fld c 27 24 ≠ w → exec (.devGpxCfgWrite r k v) s = .next (s.conflict 0 true)) ∧
      (bit c 31 = false → bit v 31 = true → 6 ≤ f ∨ s.gpxUnitHeld k.val f = true →
        exec (.devGpxCfgWrite r k v) s = .next (s.conflict 0 true))) ∧
    (s.regsUp = true →
      (s.gpxHas k.val 2 = true → exec (.timeCapture k) s =
        .next (({ up with dev := { up.dev with tcap := up.dev.time } } : State).setReg 0 0x1EC
          (setFld (up.reg 0 0x1EC) 31 16 (fld (up.reg 0 0x1EC) 31 16 + 1)))) ∧
      (s.gpxHas k.val 3 = true →
        let t := (s.setPin k.val false).setRegBit 0 0x1EC 1 true
        (bit (s.reg 0 0x1EC) 1 = false → exec (.leakN k) s = .next (t.raise 0 3)) ∧
        (bit (s.reg 0 0x1EC) 1 = true → exec (.leakN k) s = .next t)) ∧
      (s.gpxHas k.val 4 = true →
        exec (.capLimitN k low) s = .next ((s.setPin k.val (!low)).setRegBit 0 0x1EC 2 low)) ∧
      (s.gpxHas k.val 2 = false → exec (.timeCapture k) s = .next up) ∧
      (s.gpxHas k.val 3 = false → exec (.leakN k) s = .next (s.setPin k.val false)) ∧
      (s.gpxHas k.val 4 = false → exec (.capLimitN k low) s = .next (s.setPin k.val (!low))))

/-! The fault manager. -/

/-- Counted events (R119, R152, R472, R473, R478): an event of a resource is counted, and is a lasting fault at once where its
threshold's `N` is 0; a lasting fault is declared and its kind's action follows: a site is retired, a port is disabled at once
outside a lap and waits for the boundary within one. An error of a site shows in its core page, and an uncorrectable one marks a
word of it, which one is free. A phase shed, a lane drop and a lost package are only logged. A core moves to a usable spare of its half: at once outside
laps and at a boundary under a new epoch, else it waits for one (log 80); a running list is asked to stop first. A control core
without a heartbeat is reported to its watcher and taken over. The telemetry block of 4 KiB is gathered. -/
def Obligations.FaultManagerCountsAndActs : Prop :=
  ∀ (kind : Fin 32) (res : Nat) (l : Fin 128) (site : Fin 136) (k : Fin 8) (s : State),
    let a := s.siteOf l.val
    let corr := (s.errSet (pgCore res) 2).errCount (pgCore res) 1
    let word := s.draw.1.toNat % 0x632000
    let bad := (if word < 0x32000 then s.draw.2.errSet (pgCore res) 3 else s.draw.2).spoilWord res word
    let t := s.onFlm fun f => { f with toMigrate := f.toMigrate.filter (·.1 != l.val) ++ [(l.val, site.val)] }
    (s.regsUp = true → let go := fun u : State => exec (.flmReport kind res) s = .next u
      (kind.val ∈ [0x10, 0x11, 0x12] → go (s.flmLog kind.val 3 res 0)) ∧
      (kind.val ≤ 7 → fld (s.reg pgFlm (0x200 + 8 * kind.val)) 31 20 = 0 → (s.flmCount kind.val res).1 = true) ∧
      (kind.val = 1 → s.flmResource 1 res = true → let x := corr.flmCount 1 res
        (x.1 = false → go x.2) ∧ (x.1 = true → go ((x.2.flmDeclare 1 res).retireSite res))) ∧
      (kind.val = 2 → s.flmResource 2 res = true → let x := bad.flmCount 2 res
        (x.1 = false → go x.2) ∧ (x.1 = true → go ((x.2.flmDeclare 2 res).retireSite res))) ∧
      (kind.val ∈ [0, 3, 4, 5, 6, 7] → s.flmResource kind.val res = true → let x := s.flmCount kind.val res
        (x.1 = false → go x.2) ∧
        (x.1 = true → let u := x.2.flmDeclare kind.val res
          (kind.val = 4 → (u.schOn = false ∨ u.atBoundary = true → go (u.portOff res)) ∧
            (u.schOn = true → u.atBoundary = false → go (u.onFlm fun f => { f with toDisable := f.toDisable ++ [res] }))) ∧
          (kind.val = 6 → go (u.takeOver res)) ∧ (kind.val = 7 → go (u.declareLoss res))))) ∧
    (s.regsUp = true → site.val / 68 = l.val / 64 → site.val ∈ s.freeSites (site.val / 68) →
      (s.heldBySch a = true → s.atBoundary = false → exec (.coreMigrate l site) s = .next t) ∧
      (s.heldBySch a = false ∨ s.atBoundary = true →
        ((s.core a).seq.st = .running → exec (.coreMigrate l site) s = .next (t.listCtrl a 2)) ∧
        ((s.core a).seq.st ≠ .running → s.siteSpoiled l.val = false → a ∉ s.flm.toRetire →
          exec (.coreMigrate l site) s = .next (((t.migrate l.val site.val).newPlacement site.val).unplan l.val a)))) ∧
    (s.regsUp = true → s.ctl.released = true → k.val ∉ s.ctl.failed → ∀ w rest, s.watchers k.val = w :: rest →
      let u := (s.raise (pgCtl w) 1).flmEvent 6 k.val
      (k.val ∈ u.ctl.failed → exec (.siblingWatchdog k) s = .next u) ∧
      (k.val ∉ u.ctl.failed → exec (.siblingWatchdog k) s = .next (u.takeOver k.val))) ∧
    (s.power.mod = 2 → exec .telemetryGather s =
      .next ((s.freeBytes 4096).2.onFlm fun f => { f with telemetry := (s.freeBytes 4096).1 }))

/-- Lost devices (R88, R335, R337, R416, R482, R484, R485, R490): a child whose `LAP_DONE` is missing is declared lost; without a
spare, or without the HVU, the loss of another device ends the run with LINK_UNREACHABLE; with recovery mode 2 another's loss closes
its buckets for it and withdraws its replica (which devices that takes in, log 68); otherwise the lists are abandoned and a restore
begins, which goes on with every further report; the one spare of a run takes the ID of the lost device under the next epoch.
`RELEASE` lets held devices go on. -/
def Obligations.LostDevicesAreAnswered : Prop :=
  ∀ (r : Requester) (d : BitVec 11) (v : Word) (q : Restore) (ctx : Nat) (run : Run) (s : State),
    let k := d.toNat
    let w := s.reg pgFlm 0x104
    (s.schOn = true → s.lapDone = true → s.childrenDone = false → k ∉ s.sch.children →
      exec (.lapTimeout d) s = .next (s.declareLoss k)) ∧
    (s.regsUp = true → fld w 31 30 = 0 → exec (.deviceLoss d) s = .next s) ∧
    (s.regsUp = true → fld w 31 30 ≠ 0 → s.flm.restore = some q →
      (q.device = k → exec (.deviceLoss d) s = .next (s.restoreOn q)) ∧
      (q.device ≠ k → exec (.deviceLoss d) s = .next s)) ∧
    (s.regsUp = true → fld w 31 30 ≠ 0 → s.flm.restore = none → s.lossRun = some (ctx, run) → s.dev.anchor = true →
      s.isLost k = true → k ≠ s.ownId →
      (run.spare = false →
        (fld w 5 0 = 0 ∨ run.claims.hvu = false →
          exec (.deviceLoss d) s = .next ((s.endRunWith ctx stEndedFault 12 k 0 0).flmPhase 0)) ∧
        (fld w 5 0 ≠ 0 → run.claims.hvu = true → fld w 31 30 = 2 →
          let u := if Config.sameReplica k s.ownId then (s.closeFor k).withdraw else s.closeFor k
          exec (.deviceLoss d) s = .next (((u.withdrawReplica ctx k).flmLog 0x13 3 k 0).flmPhase 0)) ∧
        (fld w 5 0 ≠ 0 → run.claims.hvu = true → fld w 31 30 ≠ 2 → s.hvu.job = none →
          exec (.deviceLoss d) s = .next (((s.abandonAll ctx).onHvu fun h => { h with queue := [], reduceQ := [], job := none
            }).onFlm fun f => { f with restore := some ⟨k, ctx, (s.reg (pgHvu 0) 0x130).toNat, none⟩ }))) ∧
      (run.spare = true → fld w 5 0 ≤ 1 →
        let t := s.setReg pgFlm 0x118 (BitVec.ofNat 32 (2 ^ 31 + k))
        let u : State := { t with dev := { t.dev with group := BitVec.ofNat 5 (k / 64), slot := BitVec.ofNat 6 (k % 64) } }
        exec (.deviceLoss d) s =
          .next (((u.adoptEpoch ctx ((u.ctxEpoch ctx + 1) % 256)).flmLog 0x13 4 k 0).flmPhase 0))) ∧
    (s.accepts r pgFlm 0x10C = true →
      (bit v 0 = true → s.flm.hold = true → exec (.release r v) s =
        .next (({ s with flm := { s.flm with hold := false } } : State).flmPhase (if s.flm.replay = none then 0 else 4))) ∧
      (s.flm.hold = false → exec (.release r v) s = .next s))

/-! Management. -/

/-- MCTP control and PLDM monitoring (R504, R505, R511): a request that the MGC serves thaws a module in frost and is counted. An
endpoint ID of 8 to 0xFE is taken; versions, message types and the vendor ID are told; sensors and state sensors are read,
those on the module's rails only outside STANDBY and a temperature only while it is valid; the cap is read, and written from 600 W
to 1,800 W; an event receiver gets the events that waited. The byte layouts of the answers, and the completion codes
that R504 and R505 do not give, are the model's (log 33, log 50). -/
def Obligations.MctpAndMonitoringAnswer : Prop :=
  ∀ (op : BitVec 2) (b e : Byte) (id : BitVec 16) (value record : Nat) (s : State),
    let t := s.awaken.countReg 9 0x108 1
    let w := t.reg 7 (0x400 + 4 * (id.toNat - 0x100))
    s.mgcUp = true →
      (op.toNat ≤ 1 → 8 ≤ b.toNat → b ≠ 0xFF → exec (.setEndpointId op b) s =
        .next (({ t with mgc := { t.mgc with eid := b, eidValid := true } } : State).mgmtOk [0, b, 0])) ∧
      (1 < op.toNat ∨ b.toNat < 8 ∨ b = 0xFF → exec (.setEndpointId op b) s = .next (t.mgmtErr codeInvalidData)) ∧
      exec .getEndpointId s = .next (t.mgmtOk [if t.mgc.eidValid then t.mgc.eid else 0, 0, 0]) ∧
      (b ∈ [0xFF, 0, 1, 0x7E] → exec (.getMctpVersionSupport b) s = .next (t.mgmtOk (makerBytes 1 b.toNat))) ∧
      exec .getMessageTypeSupport s = .next (t.mgmtOk [2, 0x01, 0x7E]) ∧
      exec .getVendorDefinedMessageSupport s = .next (t.mgmtOk [0xFF, 0, 0x1F, 0xA9]) ∧
      (b ≠ 2 → b ≠ 5 → exec (.pldmInvalidType b) s = .next (t.mgmtErr 0x20)) ∧
      exec .getPdrRepositoryInfo s = .next (t.mgmtOk (makerBytes 2 0)) ∧
      (Config.makerLen 3 record ≠ 0 → exec (.getPdr record) s = .next (t.mgmtOk (makerBytes 3 record))) ∧
      (Config.makerLen 3 record = 0 → exec (.getPdr record) s = .next (t.mgmtErr codeBadRecord)) ∧
      exec (.getSensorReading 1) s = .next (t.mgmtOk (0 :: natLe 4 (fld (t.reg 4 0x104) 31 16))) ∧
      exec (.getSensorReading 2) s = .next (t.mgmtOk (0 :: natLe 4 (fld (t.reg 4 0x104) 15 0))) ∧
      exec (.getSensorReading 3) s = .next (t.mgmtOk (0 :: natLe 8 (t.dev.energy / 1000000))) ∧
      (0x100 ≤ id.toNat → id.toNat < 0x1B4 → t.inStandby = false →
        (bit w 31 = true → exec (.getSensorReading id) s = .next (t.mgmtOk (0 :: natLe 2 (fld w 15 0)))) ∧
        (bit w 31 = false → exec (.getSensorReading id) s = .next (t.mgmtErr codeBadSensor))) ∧
      exec (.getStateSensorReadings 0x200) s = .next (t.mgmtOk [0, BitVec.ofNat 8 t.power.mod]) ∧
      (t.inStandby = false → exec (.getStateSensorReadings 0x201) s =
        .next (t.mgmtOk (0 :: natLe 4 (t.reg pgFlm 0x11C).toNat))) ∧
      exec (.getNumericEffecterValue 1) s = .next (t.mgmtOk (natLe 4 (t.reg 4 0x100).toNat)) ∧
      (600 ≤ value → value ≤ 1800 → exec (.setNumericEffecterValue 1 value) s =
        .next ((t.capWrite .mgc (BitVec.ofNat 32 value)).mgmtOk [])) ∧
      (value < 600 ∨ 1800 < value → exec (.setNumericEffecterValue 1 value) s = .next (t.mgmtErr codeInvalidData)) ∧
      exec (.setEventReceiver 0 e) s =
        .next (({ t with mgc := { t.mgc with receiver := none } } : State).mgmtOk []) ∧
      (b ≠ 0 → exec (.setEventReceiver b e) s = .next (t.mgc.events.foldl (fun u x => u.emit (.platformEvent x.1 x.2))
        (({ t with mgc := { t.mgc with receiver := some e, events := [] } } : State).mgmtOk [])))

/-- The firmware update of R505 and R506: it goes from idle over the list of components, download, verification and copying to
activation, each step only from the state before it; image data goes to staging; a good image is copied into the slot that does not
run, a bad one ends the update with an error; activation selects the copied slots and returns to idle. -/
def Obligations.FirmwareUpdateSteps : Prop :=
  ∀ (x y size off : Nat) (comp : BitVec 16) (data : List Byte) (s : State),
    let t := s.awaken.countReg 9 0x108 1
    let a := s.awaken
    let n := s.mgc.update
    s.mgcUp = true →
      exec .queryDeviceIdentifiers s = .next (t.mgmtOk (makerBytes 4 0)) ∧
      exec .getFirmwareParameters s = .next (t.mgmtOk (t.flash (slotBase 1 (t.runningSlot 1) + 0x20) 32 ++
        t.flash (slotBase 2 (t.runningSlot 2) + 0x20) 32)) ∧
      (n = 0 → exec (.requestUpdate x y) s =
        .next ((({ t with mgc := { t.mgc with listed := [], applied := [], update := 1 } } : State).raise 9 0).mgmtOk [])) ∧
      (n ≠ 0 → exec (.requestUpdate x y) s = .next (t.mgmtErr codeInUpdate)) ∧
      (n = 1 → 1 ≤ comp.toNat → comp.toNat ≤ 3 → exec (.passComponentTable comp) s =
        .next (({ t with mgc := { t.mgc with listed := comp.toNat :: t.mgc.listed } } : State).mgmtOk [0])) ∧
      (n = 1 ∨ n = 5 → comp.toNat ∈ s.mgc.listed → 0 < size → size ≤ stagingSize → exec (.updateComponent comp size) s =
        .next ((({ t with mgc := { t.mgc with comp := comp.toNat, size := size, drawn := 0, verified := false, update := 2 }
          } : State).raise 9 0).mgmtOk [0])) ∧
      (n = 2 → off + data.length ≤ s.mgc.size → ∃ u : State, exec (.requestFirmwareData off data) s = .next u ∧
        u.trb.flash = (a.flashWrite (stagingBase + off) data).trb.flash ∧ u.regs = a.regs ∧
        u.mgc.drawn = if off ≤ s.mgc.drawn then max s.mgc.drawn (off + data.length) else s.mgc.drawn) ∧
      (n = 2 → s.mgc.size ≤ s.mgc.drawn → exec .transferComplete s = .next ((a.setUpdate 3).mgmtOk [0])) ∧
      (n = 3 → a.stagedOk = true → exec .verifyComplete s =
        .next ((({ a with mgc := { a.mgc with verified := true } } : State).setUpdate 4).mgmtOk [0])) ∧
      (n = 3 → a.stagedOk = false → exec .verifyComplete s =
        .next ((((a.errSet 9 2).raise 9 2).setUpdate 0).mgmtOk [1])) ∧
      (n = 4 → s.mgc.verified = true → let u := a.applyStaged
        exec .applyComplete s = .next ((({ u with mgc := { u.mgc with
          applied := u.mgc.comp :: u.mgc.applied, verified := false } } : State).setUpdate 5).mgmtOk [0])) ∧
      (n = 5 → exec (.activateFirmware false) s = .next ((((t.pickApplied 1).pickApplied 2).setUpdate 0).mgmtOk [0, 0])) ∧
      exec .getStatus s = .next (t.mgmtOk [BitVec.ofNat 8 n]) ∧
      (n = 2 ∨ n = 3 ∨ n = 4 → exec .cancelUpdateComponent s = .next ((t.setUpdate 1).mgmtOk [])) ∧
      (n ≠ 0 → exec .cancelUpdate s = .next ((t.setUpdate 0).mgmtOk [])) ∧
      (n = 0 → exec .cancelUpdate s = .next (t.mgmtErr codeNotInUpdate))

/-- The vendor messages (R499-R503, R509, R511): the report, the certificates, a fresh challenge, a debug token, which opens its scope where it is good and
is counted and flagged where it is not, a register, telemetry, a log entry, the calibration store and the latched trip; those
that need the rails are refused with STATE in STANDBY. A stuck bus is flagged. -/
def Obligations.VendorMessagesAnswer : Prop :=
  ∀ (nonce : BitVec 256) (off len n : Nat) (token : List Byte) (a : BitVec 26) (row : RegRow) (e : List Byte) (s : State),
    let t := s.awaken.countReg 9 0x108 1
    let p := a.toNat / 65536
    let o := a.toNat % 65536
    s.mgcUp = true →
      (t.inStandby = true → exec (.report nonce) s = .next (t.mgmtErr 3)) ∧
      (t.inStandby = false → exec (.report nonce) s = .next (t.mgmtOk (t.report nonce))) ∧
      (t.inStandby = true → exec (.certs off) s =
        .next (t.mgmtOk (((t.flash 0x50000 (Config.makerLen 6 0) ++ []).drop off).take 1024))) ∧
      (t.inStandby = false → exec .debugChallenge s = .next
        (({ (t.freeBytes 32).2 with trb := { (t.freeBytes 32).2.trb with challenge := some (t.freeBytes 32).1 } } : State).mgmtOk
          (t.freeBytes 32).1)) ∧
      (t.inStandby = false → token.length = 256 → t.tokenOk token = true →
        let u := t.extendMeas 4 (Config.shake256 token 64)
        exec (.debugUnlock token) s = .next ((({ u with trb := { u.trb with
          challenge := none, debug := true, scope := u.trb.scope ||| leNat ((token.drop 6).take 2) % 8 } } : State).raise pgTrb 1).mgmtOk [])) ∧
      (t.inStandby = false → token.length = 256 → t.tokenOk token = false →
        exec (.debugUnlock token) s = .next (((((({ t with trb := { t.trb with challenge := none } } : State).errSet pgTrb
          1).errCount pgTrb 1).raise pgTrb 2)).mgmtErr 4)) ∧
      (t.inStandby = false → a.toNat % 4 = 0 → pageAssigned p = true → t.present p = true → regRow p o = some row →
        row.acc = .ro → exec (.regRead a) s = .next ((t.readReg .mgc p o).2.mgmtOk (natLe 4 (t.readReg .mgc p o).1.toNat))) ∧
      (t.inStandby = false → a.toNat % 4 = 0 → regRow p o = none → exec (.regRead a) s = .next (t.mgmtErr 5)) ∧
      (t.inStandby = false → len ≤ 1024 → off + len ≤ 4096 → t.flm.telemetry ≠ [] →
        exec (.telemetry off len) s = .next (t.mgmtOk ((t.flm.telemetry.drop off).take len))) ∧
      (t.flm.log.find? (fun e => leNat ((e.drop 8).take 4) = n % 2 ^ 32) = some e →
        exec (.faultLog n) s = .next (t.mgmtOk e)) ∧
      (t.flm.log.find? (fun e => leNat ((e.drop 8).take 4) = n % 2 ^ 32) = none →
        exec (.faultLog n) s = .next (t.mgmtErr 1)) ∧
      exec (.calRead off) s = .next (t.mgmtOk (t.flash (calBase + off) (min 1024 (calSize - off)))) ∧
      exec .trip s = .next (t.mgmtOk (natLe 4 t.power.trip.toNat)) ∧
      exec .smbusBusTimeout s = .next (s.errSet 9 1)

/-- BOUNDARY_SCAN (R502): while debug is locked the scan completes and something shifts out; a debug path of an unlocked device is
the one thing that the model refuses, for its effect is not stated. The bits that shift out are free values. -/
def Obligations.BoundaryScanIsAlwaysOffered : Prop :=
  ∀ (ir dr : Nat) (s : State), s.power.standby = true →
    (s.trb.debug = false → ∃ v, exec (.boundaryScan ir dr) s = .next (s.draw.2.emit (.tdo v))) ∧
    (∀ f, exec (.boundaryScan ir dr) s ≠ .fault f) ∧
    (∀ f, exec (.boundaryScan ir dr) s = .refused f → f = .debugPathUnspecified ∧ s.trb.debug = true)
end

