-- ==== Sys2Proof/Laws/Bus.lean ====
section
/-!
SUPPORT. A register access that nothing stands in the way of is its own effect and nothing else.
-/
namespace Sys2Proof.Machine

theorem State.awaken_active (s : State) (h : s.power.mod = 2) : s.awaken = s := by
  unfold State.awaken
  rw [if_neg (by omega)]

theorem State.regsUp_active (s : State) (h : s.power.mod = 2) : s.regsUp = true := by
  unfold State.regsUp
  simp [h]

theorem State.present_assigned (s : State) (p : Nat) (h : s.present p = true) : pageAssigned p = true := by
  unfold State.present at h
  simp only [Bool.and_eq_true] at h
  exact h.1

/-- What `reachable` says, part by part. -/
theorem State.reachable_parts {s : State} {p off : Nat} (h : s.reachable p off = true) :
    s.power.mod = 2 ∧ s.present p = true ∧ s.island p = 0 ∧
      ((decide (p = 1) || decide (p = 2)) && Store.get false s.evh.frost (p - 1)) = false ∧ ∃ row, regRow p off = some row := by
  unfold State.reachable at h
  simp only [Bool.and_eq_true, decide_eq_true_eq, Bool.not_eq_true', Option.isSome_iff_exists] at h
  exact ⟨h.1.1.1.1, h.1.1.1.2, h.1.1.2, h.1.2, h.2⟩

theorem State.thawPage_reachable {s : State} {p off : Nat} (h : s.reachable p off = true) : s.thawPage p = s := by
  obtain ⟨-, -, hi, hf, -⟩ := State.reachable_parts h
  unfold State.thawPage
  dsimp only
  rw [if_neg (by omega : ¬ s.island p = 4), hf]
  simp

/-- A write that is accepted is its handler's effect. -/
theorem State.onWrite_accepts {s : State} {r : Requester} {p off : Nat} (f : State → State) (h : s.accepts r p off = true) :
    s.onWrite r p off f = f s := by
  unfold State.accepts at h
  simp only [Bool.and_eq_true] at h
  obtain ⟨hm, hp, hi, -, row, hr⟩ := State.reachable_parts h.1
  unfold State.onWrite
  simp only [State.regsUp_active s hm, State.present_assigned s p hp, hp, State.awaken_active s hm,
    State.thawPage_reachable h.1, hr]
  have h2 := h.2
  rw [hr] at h2
  simp only [h2]
  simp [State.blockUp, hi]

/-- A read that reaches its register is its handler's answer. -/
theorem State.onRead_reachable {s : State} {r : Requester} {p off : Nat} (f : State → Word × State)
    (h : s.reachable p off = true) : s.onRead r p off f = (f s).2.reply r (some (f s).1) := by
  obtain ⟨hm, hp, hi, -, row, hr⟩ := State.reachable_parts h
  unfold State.onRead
  simp only [State.regsUp_active s hm, State.present_assigned s p hp, hp, State.awaken_active s hm,
    State.thawPage_reachable h, hr]
  simp [State.blockUp, hi]

end Sys2Proof.Machine
end

