-- ==== Sys2Proof/Laws/Vault.lean ====
section
/-!
SUPPORT. The vault: the queue, the variant, the anti-rollback fuses and the security version that runs (R498). Almost no operation
touches it, so one lemma for each says so.
-/
namespace Sys2Proof.Machine

/-- The queue, the variant, F, the revoked key slots, and the running image's `SVN`, `KSLOT`,
`REVOKE` and whether it booted by fallback. -/
def State.vault (s : State) : List Instr × Variant × Nat × List Nat × Nat × Bool × Nat × Nat :=
  (s.pending, s.dev.variant, s.trb.fuseF, s.trb.revoked, s.trb.svn, s.trb.fallback, s.trb.kslot, s.trb.revoke)

theorem vault_fold (s : State) :
    (s.pending, s.dev.variant, s.trb.fuseF, s.trb.revoked, s.trb.svn, s.trb.fallback, s.trb.kslot, s.trb.revoke) = s.vault := rfl

@[simp] theorem vault_mk (pending : List Instr) (free : Nat) (sent : List Sent) (dev : Dev) (regs : Store Word)
    (raised : List Nat) (signals : List Signal) (txns : List Txn) (nextTag : Nat) (sites : Store Nat) (cores : Store Core)
    (tiers : Tiers) (xlat : Xlat) (links : Links) (hvu : Hvu) (sch : Sch) (kvd : Kvd) (input : Input)
    (runs : Store (Option Run)) (islands busyAt : Store Nat) (power : Power) (evh : Evh) (ctl : Ctl) (flm : Flm) (trb : Trb)
    (mgc : Mgc) (pins : Pins) :
    State.vault ⟨pending, free, sent, dev, regs, raised, signals, txns, nextTag, sites, cores, tiers, xlat, links, hvu, sch,
      kvd, input, runs, islands, busyAt, power, evh, ctl, flm, trb, mgc, pins⟩ =
    (pending, dev.variant, trb.fuseF, trb.revoked, trb.svn, trb.fallback, trb.kslot, trb.revoke) := rfl

@[simp] theorem vault_foldl {α : Type} (f : State → α → State) (h : ∀ s a, (f s a).vault = s.vault) (l : List α) (s : State) :
    (l.foldl f s).vault = s.vault := by
  induction l generalizing s with
  | nil => rfl
  | cons a l ih => rw [List.foldl_cons, ih, h]

@[simp] theorem vault_ite (c : Prop) [Decidable c] (a b : State) :
    (if c then a else b).vault = if c then a.vault else b.vault := apply_ite _ _ _ _

@[simp] theorem vault_ite_fst {α : Type} (c : Prop) [Decidable c] (a b : State × α) :
    (if c then a else b).1.vault = if c then a.1.vault else b.1.vault := by split <;> rfl

@[simp] theorem vault_ite_snd {α : Type} (c : Prop) [Decidable c] (a b : α × State) :
    (if c then a else b).2.vault = if c then a.2.vault else b.2.vault := by split <;> rfl

@[simp] theorem vault_foldl_fst {α β : Type} (f : State × β → α → State × β) (h : ∀ p a, (f p a).1.vault = p.1.vault)
    (l : List α) (p : State × β) : (l.foldl f p).1.vault = p.1.vault := by
  induction l generalizing p with
  | nil => rfl
  | cons a l ih => rw [List.foldl_cons, ih, h]

@[simp] theorem vault_foldl_snd {α β : Type} (f : β × State → α → β × State) (h : ∀ p a, (f p a).2.vault = p.2.vault)
    (l : List α) (p : β × State) : (l.foldl f p).2.vault = p.2.vault := by
  induction l generalizing p with
  | nil => rfl
  | cons a l ih => rw [List.foldl_cons, ih, h]

end Sys2Proof.Machine
end

