-- ==== Sys2Proof/Laws/KeepOps.lean ====
section
/-!
SUPPORT. What each operation of Machine/Ops.lean leaves alone: the vault.
-/
namespace Sys2Proof.Machine


@[simp] theorem State.setReg_vault (s : State) (p : Nat) (off : Nat) (v : Word) :
    (State.setReg s p off v).vault = s.vault := by
  unfold State.setReg
  simp [vault_fold]

@[simp] theorem State.countReg_vault (s : State) (p : Nat) (off : Nat) (n : Nat) :
    (State.countReg s p off n).vault = s.vault := by
  unfold State.countReg
  simp

@[simp] theorem State.wrapReg_vault (s : State) (p : Nat) (off : Nat) (n : Nat) :
    (State.wrapReg s p off n).vault = s.vault := by
  unfold State.wrapReg
  simp

@[simp] theorem State.setRegBit_vault (s : State) (p : Nat) (off : Nat) (i : Nat) (b : Bool) :
    (State.setRegBit s p off i b).vault = s.vault := by
  unfold State.setRegBit
  simp

@[simp] theorem State.errSet_vault (s : State) (p : Nat) (i : Nat) :
    (State.errSet s p i).vault = s.vault := by
  unfold State.errSet
  simp

@[simp] theorem State.errCount_vault (s : State) (p : Nat) (n : Nat) :
    (State.errCount s p n).vault = s.vault := by
  unfold State.errCount
  simp

@[simp] theorem State.raise_vault (s : State) (p : Nat) (i : Nat) :
    (State.raise s p i).vault = s.vault := by
  unfold State.raise
  simp [vault_fold]

@[simp] theorem State.flmLog_vault (s : State) (kind : Nat) (action : Nat) (res : Nat) (detail : Nat) :
    (State.flmLog s kind action res detail).vault = s.vault := by
  unfold State.flmLog
  simp [vault_fold]

@[simp] theorem State.platformEvent_vault (s : State) (sensor : Nat) (value : Nat) :
    (State.platformEvent s sensor value).vault = s.vault := by
  unfold State.platformEvent
  simp [vault_fold]

@[simp] theorem State.service_vault (s : State) (i : Nat) :
    (State.service s i).vault = s.vault := by
  unfold State.service
  simp

@[simp] theorem State.setCore_vault (s : State) (n : Nat) (c : Core) :
    (State.setCore s n c).vault = s.vault := by
  unfold State.setCore
  simp [vault_fold]

@[simp] theorem State.onCore_vault (s : State) (n : Nat) (f : Core → Core) :
    (State.onCore s n f).vault = s.vault := by
  unfold State.onCore
  simp

@[simp] theorem State.mapCores_vault (s : State) (f : Core → Core) :
    (State.mapCores s f).vault = s.vault := by
  unfold State.mapCores
  simp [vault_fold]

@[simp] theorem State.draw_vault_2 (s : State) :
    (State.draw s).2.vault = s.vault := by
  unfold State.draw
  simp [vault_fold]

@[simp] theorem State.freeBytes_vault_2 (s : State) (n : Nat) :
    (State.freeBytes s n).2.vault = s.vault := by
  unfold State.freeBytes
  simp [vault_fold]

@[simp] theorem State.charge_vault (s : State) (cls : TierClass) (b : Nat) (n : Nat) :
    (State.charge s cls b n).vault = s.vault := by
  unfold State.charge
  simp

@[simp] theorem State.chargeRead_vault (s : State) (cls : TierClass) (a : Nat) (n : Nat) :
    (State.chargeRead s cls a n).vault = s.vault := by
  unfold State.chargeRead
  simp

@[simp] theorem State.watchWrite_vault (s : State) (a : Nat) (n : Nat) :
    (State.watchWrite s a n).vault = s.vault := by
  unfold State.watchWrite
  simp [vault_fold]

@[simp] theorem State.writeBlock_vault_1 (s : State) (cls : TierClass) (b : Nat) (a : Nat) (bs : List Byte) :
    (State.writeBlock s cls b a bs).1.vault = s.vault := by
  unfold State.writeBlock
  simp [vault_fold]

@[simp] theorem State.writeOuter_vault_1 (s : State) (cls : TierClass) (a : Nat) (bs : List Byte) :
    (State.writeOuter s cls a bs).1.vault = s.vault := by
  unfold State.writeOuter
  simp

@[simp] theorem State.readOuter_vault_2_2 (s : State) (cls : TierClass) (a : Nat) (n : Nat) :
    (State.readOuter s cls a n).2.2.vault = s.vault := by
  unfold State.readOuter
  simp

@[simp] theorem State.localWrite_vault (s : State) (a : Nat) (bs : List Byte) :
    (State.localWrite s a bs).vault = s.vault := by
  unfold State.localWrite
  simp [vault_fold]

@[simp] theorem State.emit_vault (s : State) (x : Sent) :
    (State.emit s x).vault = s.vault := by
  unfold State.emit
  simp [vault_fold]

end Sys2Proof.Machine
end

