-- ==== Sys2Proof/Laws/KeepRegs.lean ====
section
/-!
SUPPORT. What each operation of Machine/Regs.lean leaves alone: the vault.
-/
namespace Sys2Proof.Machine


@[simp] theorem State.setIsland_vault (s : State) (p : Nat) (st : Nat) :
    (State.setIsland s p st).vault = s.vault := by
  unfold State.setIsland
  simp [vault_fold]

@[simp] theorem State.reply_vault (s : State) (r : Requester) (v : Option Word) :
    (State.reply s r v).vault = s.vault := by
  unfold State.reply
  repeat' split
  all_goals simp

@[simp] theorem State.badAccess_vault (s : State) (r : Requester) (isRead : Bool) :
    (State.badAccess s r isRead).vault = s.vault := by
  unfold State.badAccess
  repeat' split
  all_goals simp

@[simp] theorem State.stray_vault (s : State) :
    (State.stray s).vault = s.vault := by
  unfold State.stray
  simp

@[simp] theorem State.thawPage_vault (s : State) (p : Nat) :
    (State.thawPage s p).vault = s.vault := by
  unfold State.thawPage
  simp [vault_fold]

@[simp] theorem State.awaken_vault (s : State) :
    (State.awaken s).vault = s.vault := by
  unfold State.awaken
  simp [vault_fold]

@[simp] theorem State.onWrite_vault (s : State) (r : Requester) (p : Nat) (off : Nat) (f : State → State) (h_f : ∀ a0, (f a0).vault = a0.vault) :
    (State.onWrite s r p off f).vault = s.vault := by
  unfold State.onWrite
  repeat' split
  all_goals simp [h_f]

@[simp] theorem State.onRead_vault (s : State) (r : Requester) (p : Nat) (off : Nat) (f : State → Word × State) (h_f_2 : ∀ a0, (f a0).2.vault = a0.vault) :
    (State.onRead s r p off f).vault = s.vault := by
  unfold State.onRead
  repeat' split
  all_goals simp [h_f_2]

@[simp] theorem State.conflict_vault (s : State) (p : Nat) (b : Bool) :
    (State.conflict s p b).vault = s.vault := by
  unfold State.conflict
  simp

end Sys2Proof.Machine
end

