-- ==== Sys2Proof/Laws/KeepEvents.lean ====
section
/-!
SUPPORT. What each operation of Machine/Events.lean leaves alone: the vault.
-/
namespace Sys2Proof.Machine


@[simp] theorem State.setStack_vault (s : State) (t : Nat) (l : List (Nat × Nat)) :
    (State.setStack s t l).vault = s.vault := by
  unfold State.setStack
  simp [vault_fold]

@[simp] theorem State.loseEvent_vault (s : State) (n : Nat) :
    (State.loseEvent s n).vault = s.vault := by
  unfold State.loseEvent
  simp [vault_fold]

@[simp] theorem State.setMsixPending_vault (s : State) (vec : Nat) (b : Bool) :
    (State.setMsixPending s vec b).vault = s.vault := by
  unfold State.setMsixPending
  simp

@[simp] theorem State.sendMsix_vault (s : State) (vec : Nat) :
    (State.sendMsix s vec).vault = s.vault := by
  unfold State.sendMsix
  simp

@[simp] theorem State.unmaskVector_vault (s : State) (vec : Nat) :
    (State.unmaskVector s vec).vault = s.vault := by
  unfold State.unmaskVector
  simp

@[simp] theorem State.notifyHost_vault (s : State) :
    (State.notifyHost s).vault = s.vault := by
  unfold State.notifyHost
  simp [vault_fold]

@[simp] theorem State.makePending_vault (s : State) (n : Nat) :
    (State.makePending s n).vault = s.vault := by
  unfold State.makePending
  simp [vault_fold]

@[simp] theorem State.takeEvent_vault (s : State) (n : Nat) :
    (State.takeEvent s n).vault = s.vault := by
  unfold State.takeEvent
  simp [vault_fold]

@[simp] theorem State.claimRead_vault_2 (s : State) (p : Nat) (t : Nat) :
    (State.claimRead s p t).2.vault = s.vault := by
  unfold State.claimRead
  repeat' split
  all_goals simp [vault_fold]

@[simp] theorem State.stackFault_vault (s : State) (t : Nat) :
    (State.stackFault s t).vault = s.vault := by
  unfold State.stackFault
  simp [vault_fold]

@[simp] theorem State.eoiWrite_vault (s : State) (p : Nat) (t : Nat) (v : Word) :
    (State.eoiWrite s p t v).vault = s.vault := by
  unfold State.eoiWrite
  repeat' split
  all_goals simp

@[simp] theorem State.stackReset_vault (s : State) (p : Nat) (t : Nat) (v : Word) :
    (State.stackReset s p t v).vault = s.vault := by
  unfold State.stackReset
  simp [vault_fold]

@[simp] theorem State.srcWrite_vault (s : State) (r : Requester) (p : Nat) (n : Nat) (v : Word) :
    (State.srcWrite s r p n v).vault = s.vault := by
  unfold State.srcWrite
  simp [vault_fold]

@[simp] theorem State.setTmrHit_vault (s : State) (k : Nat) (b : Bool) :
    (State.setTmrHit s k b).vault = s.vault := by
  unfold State.setTmrHit
  simp [vault_fold]

@[simp] theorem State.tmrCtrlWrite_vault (s : State) (r : Requester) (k : Nat) (owner : Nat) (v : Word) :
    (State.tmrCtrlWrite s r k owner v).vault = s.vault := by
  unfold State.tmrCtrlWrite
  simp

@[simp] theorem State.tmrValueWrite_vault (s : State) (r : Requester) (k : Nat) (i : Nat) (v : Word) :
    (State.tmrValueWrite s r k i v).vault = s.vault := by
  unfold State.tmrValueWrite
  simp

@[simp] theorem State.tmrFire_vault (s : State) (k : Nat) :
    (State.tmrFire s k).vault = s.vault := by
  unfold State.tmrFire
  simp

@[simp] theorem State.tmrReserve_vault (s : State) (k : Nat) (ctx : Nat) :
    (State.tmrReserve s k ctx).vault = s.vault := by
  unfold State.tmrReserve
  simp

@[simp] theorem State.tmrRelease_vault (s : State) (k : Nat) :
    (State.tmrRelease s k).vault = s.vault := by
  unfold State.tmrRelease
  simp

@[simp] theorem State.hubSoftReset_vault (s : State) (h : Nat) :
    (State.hubSoftReset s h).vault = s.vault := by
  unfold State.hubSoftReset
  simp [vault_fold]

@[simp] theorem State.hubFrost_vault (s : State) (h : Nat) :
    (State.hubFrost s h).vault = s.vault := by
  unfold State.hubFrost
  simp [vault_fold]

@[simp] theorem State.hubThaw_vault (s : State) (h : Nat) :
    (State.hubThaw s h).vault = s.vault := by
  unfold State.hubThaw
  simp [vault_fold]

end Sys2Proof.Machine
end

