-- ==== Sys2Proof/Laws/KeepPower.lean ====
section
/-!
SUPPORT. What each operation of Machine/Power.lean leaves alone: the vault.
-/
namespace Sys2Proof.Machine


@[simp] theorem State.setBudget_vault (s : State) (j : Nat) (b : Nat) :
    (State.setBudget s j b).vault = s.vault := by
  unfold State.setBudget
  simp

@[simp] theorem State.setPoint_vault (s : State) (site : Nat) (pt : Nat) :
    (State.setPoint s site pt).vault = s.vault := by
  unfold State.setPoint
  simp [vault_fold]

@[simp] theorem State.rebalance_vault (s : State) (j : Nat) :
    (State.rebalance s j).vault = s.vault := by
  unfold State.rebalance
  simp [vault_fold]

@[simp] theorem State.rebalanceAll_vault (s : State) :
    (State.rebalanceAll s).vault = s.vault := by
  unfold State.rebalanceAll
  simp

@[simp] theorem State.allSlow_vault (s : State) :
    (State.allSlow s).vault = s.vault := by
  unfold State.allSlow
  simp [vault_fold]

@[simp] theorem State.sawPower_vault (s : State) (watts : Nat) :
    (State.sawPower s watts).vault = s.vault := by
  unfold State.sawPower
  simp

@[simp] theorem State.capStep_vault (s : State) (watts : Nat) :
    (State.capStep s watts).vault = s.vault := by
  unfold State.capStep
  simp [vault_fold]

@[simp] theorem State.fastThrottle_vault (s : State) (watts : Nat) :
    (State.fastThrottle s watts).vault = s.vault := by
  unfold State.fastThrottle
  simp [vault_fold]

@[simp] theorem State.capWrite_vault (s : State) (r : Requester) (v : Word) :
    (State.capWrite s r v).vault = s.vault := by
  unfold State.capWrite
  simp

@[simp] theorem State.freqMaxWrite_vault (s : State) (h : Nat) (v : Word) :
    (State.freqMaxWrite s h v).vault = s.vault := by
  unfold State.freqMaxWrite
  simp

@[simp] theorem State.readSensor_vault (s : State) (i : Nat) (x : SensorReading) :
    (State.readSensor s i x).vault = s.vault := by
  unfold State.readSensor
  simp [vault_fold]

@[simp] theorem State.readSensors_vault (s : State) (rs : List SensorReading) :
    (State.readSensors s rs).vault = s.vault := by
  unfold State.readSensors
  extract_lets target now above was nw nc s1 hottest s2 s3 s4 s5 therm emerg src s6
  have h1 : s1.vault = s.vault := by simp [s1]
  have h2 : s2.vault = s.vault := by
    simp only [s2]
    clear_value hottest
    split <;> simp [h1]
  have h3 : s3.vault = s.vault := by simp [s3, h2]
  have h4 : s4.vault = s.vault := by simp only [s4]; split <;> simp [h3]
  have h5 : s5.vault = s.vault := by simp only [s5]; split <;> simp [h4]
  have h6 : s6.vault = s.vault := h5
  split <;> simp [h6]

end Sys2Proof.Machine
end

