-- ==== Sys2Proof/Laws/KeepIslands.lean ====
section
/-!
SUPPORT. What each operation of Machine/Islands.lean leaves alone: the vault.
-/
namespace Sys2Proof.Machine


@[simp] theorem State.dropRegs_vault (s : State) (p : Nat) :
    (State.dropRegs s p).vault = s.vault := by
  unfold State.dropRegs
  simp [vault_fold]

@[simp] theorem State.blockReset_vault (s : State) (p : Nat) :
    (State.blockReset s p).vault = s.vault := by
  unfold State.blockReset
  simp [vault_fold]

@[simp] theorem State.softReset_vault (s : State) (p : Nat) :
    (State.softReset s p).vault = s.vault := by
  unfold State.softReset
  simp

@[simp] theorem State.loseBlock_vault (s : State) (p : Nat) :
    (State.loseBlock s p).vault = s.vault := by
  unfold State.loseBlock
  simp

@[simp] theorem State.enableWrite_vault (s : State) (p : Nat) (en : Bool) :
    (State.enableWrite s p en).vault = s.vault := by
  unfold State.enableWrite
  repeat' split
  all_goals simp

@[simp] theorem State.pageCtrlWrite_vault (s : State) (p : Nat) (v : Word) :
    (State.pageCtrlWrite s p v).vault = s.vault := by
  unfold State.pageCtrlWrite
  simp

@[simp] theorem State.pageLockWrite_vault (s : State) (p : Nat) (v : Word) :
    (State.pageLockWrite s p v).vault = s.vault := by
  unfold State.pageLockWrite
  simp

end Sys2Proof.Machine
end

