-- ==== Sys2Proof/Laws/KeepSend.lean ====
section
/-!
SUPPORT. What each operation of Machine/Send.lean leaves alone: the vault.
-/
namespace Sys2Proof.Machine


@[simp] theorem State.setPort_vault (s : State) (p : Nat) (x : Port) :
    (State.setPort s p x).vault = s.vault := by
  unfold State.setPort
  simp [vault_fold]

@[simp] theorem State.drainPort_vault (s : State) (p : Nat) :
    (State.drainPort s p).vault = s.vault := by
  unfold State.drainPort
  simp [vault_fold]

@[simp] theorem State.toPort_vault (s : State) (p : Nat) (k : Packet) :
    (State.toPort s p k).vault = s.vault := by
  unfold State.toPort
  simp

@[simp] theorem State.sendOwn_vault (s : State) (k : Packet) :
    (State.sendOwn s k).vault = s.vault := by
  unfold State.sendOwn
  repeat' split
  all_goals simp

@[simp] theorem State.sendAll_vault (s : State) (ks : List Packet) :
    (State.sendAll s ks).vault = s.vault := by
  unfold State.sendAll
  simp

@[simp] theorem State.xlatEntry_vault_2 (s : State) (i : Nat) :
    (State.xlatEntry s i).2.vault = s.vault := by
  unfold State.xlatEntry
  repeat' split
  all_goals simp [vault_fold]

@[simp] theorem State.translate_vault_2 (s : State) (off : Nat) (n : Nat) (write : Bool) :
    (State.translate s off n write).2.vault = s.vault := by
  unfold State.translate
  simp

@[simp] theorem State.onTxn_vault (s : State) (tag : Nat) (f : Txn → Txn) :
    (State.onTxn s tag f).vault = s.vault := by
  unfold State.onTxn
  simp [vault_fold]

@[simp] theorem State.dropTxn_vault (s : State) (tag : Nat) :
    (State.dropTxn s tag).vault = s.vault := by
  unfold State.dropTxn
  simp [vault_fold]

@[simp] theorem State.hostPost_vault (s : State) (a : Nat) (bs : List Byte) :
    (State.hostPost s a bs).vault = s.vault := by
  unfold State.hostPost
  simp

@[simp] theorem State.request_vault (s : State) (cl : Client) (ctx : Nat) (dst : Nat) (addr : Nat) (len : Nat) (write : Option (List Byte)) :
    (State.request s cl ctx dst addr len write).vault = s.vault := by
  unfold State.request
  dsimp only
  repeat' split
  all_goals simp [vault_fold]

@[simp] theorem State.requestAt_vault (s : State) (cl : Client) (ctx : Nat) (t : Target) (len : Nat) (write : Option (List Byte)) :
    (State.requestAt s cl ctx t len write).vault = s.vault := by
  unfold State.requestAt
  repeat' split
  all_goals simp

@[simp] theorem State.respond_vault (s : State) (write : Bool) (dst : Nat) (ctx : Nat) (tag : Nat) (status : Nat) :
    (State.respond s write dst ctx tag status).vault = s.vault := by
  unfold State.respond
  simp

@[simp] theorem State.aer_vault (s : State) :
    (State.aer s).vault = s.vault := by
  unfold State.aer
  simp

@[simp] theorem State.hostUr_vault (s : State) :
    (State.hostUr s).vault = s.vault := by
  unfold State.hostUr
  simp

@[simp] theorem State.hostEnd_vault (s : State) (write : Bool) (data : List Byte) (fault : Nat) :
    (State.hostEnd s write data fault).vault = s.vault := by
  unfold State.hostEnd
  simp

@[simp] theorem State.answer_vault (s : State) (h : HeldAccess) (data : List Byte) (fault : Nat) :
    (State.answer s h data fault).vault = s.vault := by
  unfold State.answer
  repeat' split
  all_goals simp

@[simp] theorem State.settleOne_vault (s : State) (t : Txn) :
    (State.settleOne s t).vault = s.vault := by
  unfold State.settleOne
  repeat' split
  all_goals simp

@[simp] theorem State.settle_vault (s : State) :
    (State.settle s).vault = s.vault := by
  unfold State.settle
  simp [vault_fold]

end Sys2Proof.Machine
end

