-- ==== Sys2Proof/Laws/KeepTiers.lean ====
section
/-!
SUPPORT. What each operation of Machine/Tiers.lean leaves alone: the vault.
-/
namespace Sys2Proof.Machine


@[simp] theorem State.onFlm_vault (s : State) (f : Flm → Flm) :
    (State.onFlm s f).vault = s.vault := by
  unfold State.onFlm
  simp [vault_fold]

@[simp] theorem State.flmCount_vault_2 (s : State) (kind : Nat) (res : Nat) :
    (State.flmCount s kind res).2.vault = s.vault := by
  unfold State.flmCount
  simp

@[simp] theorem State.flmDeclare_vault (s : State) (kind : Nat) (res : Nat) :
    (State.flmDeclare s kind res).vault = s.vault := by
  unfold State.flmDeclare
  simp

@[simp] theorem State.planReplace_vault (s : State) :
    (State.planReplace s).vault = s.vault := by
  unfold State.planReplace
  simp

@[simp] theorem State.losePackage_vault (s : State) (g : Nat) (p : Nat) :
    (State.losePackage s g p).vault = s.vault := by
  unfold State.losePackage
  simp [vault_fold]

@[simp] theorem State.packageWorn_vault (s : State) (res : Nat) :
    (State.packageWorn s res).vault = s.vault := by
  unfold State.packageWorn
  simp

@[simp] theorem State.packageEvent_vault (s : State) (g : Nat) (p : Nat) :
    (State.packageEvent s g p).vault = s.vault := by
  unfold State.packageEvent
  simp

@[simp] theorem State.countSyms_vault (s : State) (g : Nat) (es : List SymErr) :
    (State.countSyms s g es).vault = s.vault := by
  unfold State.countSyms
  simp

@[simp] theorem State.probe_vault_2 (s : State) (g : Nat) (x : SectorFault) :
    (State.probe s g x).2.vault = s.vault := by
  unfold State.probe
  repeat' split
  all_goals simp

@[simp] theorem State.decodeSector_vault_2 (s : State) (g : Nat) (x : SectorFault) :
    (State.decodeSector s g x).2.vault = s.vault := by
  unfold State.decodeSector
  simp

@[simp] theorem State.setSlot_vault (s : State) (g : Nat) (n : Nat) (r : RepairSlot) :
    (State.setSlot s g n r).vault = s.vault := by
  unfold State.setSlot
  simp [vault_fold]

@[simp] theorem State.poisonBlock_vault (s : State) (b : Nat) :
    (State.poisonBlock s b).vault = s.vault := by
  unfold State.poisonBlock
  simp [vault_fold]

@[simp] theorem State.giveUpBlock_vault (s : State) (b : Nat) :
    (State.giveUpBlock s b).vault = s.vault := by
  unfold State.giveUpBlock
  simp

@[simp] theorem State.openRepair_vault (s : State) (b : Nat) :
    (State.openRepair s b).vault = s.vault := by
  unfold State.openRepair
  dsimp only
  repeat' split
  all_goals simp [vault_fold]

@[simp] theorem State.beginRepair_vault (s : State) (b : Nat) :
    (State.beginRepair s b).vault = s.vault := by
  unfold State.beginRepair
  simp

@[simp] theorem State.openBlock_vault_2 (s : State) (b : Nat) (x : SectorFault) :
    (State.openBlock s b x).2.vault = s.vault := by
  unfold State.openBlock
  simp

@[simp] theorem State.hold_vault (s : State) (b : Nat) (h : HeldAccess) :
    (State.hold s b h).vault = s.vault := by
  unfold State.hold
  repeat' split
  all_goals simp

@[simp] theorem State.thawBlocks_vault (s : State) (a : Nat) (n : Nat) :
    (State.thawBlocks s a n).vault = s.vault := by
  unfold State.thawBlocks
  simp

@[simp] theorem State.serve_vault (s : State) (h : HeldAccess) (opened : Bool) :
    (State.serve s h opened).vault = s.vault := by
  unfold State.serve
  simp

@[simp] theorem State.access_vault (s : State) (h : HeldAccess) (x : SectorFault) :
    (State.access s h x).vault = s.vault := by
  unfold State.access
  dsimp only
  repeat' split
  all_goals simp [vault_fold]

@[simp] theorem State.serveHeld_vault (s : State) (hs : List HeldAccess) :
    (State.serveHeld s hs).vault = s.vault := by
  unfold State.serveHeld
  simp

@[simp] theorem State.dropRepairTxn_vault (s : State) (g : Nat) (n : Nat) :
    (State.dropRepairTxn s g n).vault = s.vault := by
  unfold State.dropRepairTxn
  simp [vault_fold]

@[simp] theorem State.repairPoison_vault (s : State) (g : Nat) (n : Nat) :
    (State.repairPoison s g n).vault = s.vault := by
  unfold State.repairPoison
  simp

@[simp] theorem State.repairWrite_vault (s : State) (b : Nat) (bs : List Byte) :
    (State.repairWrite s b bs).vault = s.vault := by
  unfold State.repairWrite
  simp [vault_fold]

@[simp] theorem State.repairDone_vault (s : State) (g : Nat) (n : Nat) :
    (State.repairDone s g n).vault = s.vault := by
  unfold State.repairDone
  simp [vault_fold]

@[simp] theorem State.pkgWrite_vault (s : State) (g : Nat) (v : Word) :
    (State.pkgWrite s g v).vault = s.vault := by
  unfold State.pkgWrite
  simp

@[simp] theorem State.splitWrite_vault (s : State) (g : Nat) (v : Word) :
    (State.splitWrite s g v).vault = s.vault := by
  unfold State.splitWrite
  simp

@[simp] theorem State.repairFetch_vault (s : State) (g : Nat) (n : Nat) :
    (State.repairFetch s g n).vault = s.vault := by
  unfold State.repairFetch
  simp

@[simp] theorem State.repairGoWrite_vault (s : State) (g : Nat) (n : Nat) (v : Word) :
    (State.repairGoWrite s g n v).vault = s.vault := by
  unfold State.repairGoWrite
  simp

@[simp] theorem State.nosrcWrite_vault (s : State) (g : Nat) (n : Nat) (v : Word) :
    (State.nosrcWrite s g n v).vault = s.vault := by
  unfold State.nosrcWrite
  simp

@[simp] theorem State.chargeSource_vault (s : State) (x : Target) :
    (State.chargeSource s x).vault = s.vault := by
  unfold State.chargeSource
  repeat' split
  all_goals simp

end Sys2Proof.Machine
end

