-- ==== Sys2Proof/Laws/KeepPacer.lean ====
section
/-!
SUPPORT. What each operation of Machine/Pacer.lean leaves alone: the vault.
-/
namespace Sys2Proof.Machine


@[simp] theorem State.onPacer_vault (s : State) (f : Pacer → Pacer) :
    (State.onPacer s f).vault = s.vault := by
  unfold State.onPacer
  simp [vault_fold]

@[simp] theorem State.pacerFault_vault (s : State) :
    (State.pacerFault s).vault = s.vault := by
  unfold State.pacerFault
  simp

@[simp] theorem State.setPages_vault (s : State) (k : Nat) (n : Nat) (x : PoolPage) :
    (State.setPages s k n x).vault = s.vault := by
  unfold State.setPages
  simp [vault_fold]

@[simp] theorem State.freeHeldFor_vault (s : State) (ctx : Nat) (st : Nat) :
    (State.freeHeldFor s ctx st).vault = s.vault := by
  unfold State.freeHeldFor
  simp [vault_fold]

@[simp] theorem State.writeBinding_vault (s : State) (e : PEntry) (j : Nat) (a : Nat) :
    (State.writeBinding s e j a).vault = s.vault := by
  unfold State.writeBinding
  simp [vault_fold]

@[simp] theorem State.bindHome_vault (s : State) (e : PEntry) :
    (State.bindHome s e).vault = s.vault := by
  unfold State.bindHome
  simp

@[simp] theorem State.pacerSignal_vault (s : State) (e : PEntry) :
    (State.pacerSignal s e).vault = s.vault := by
  unfold State.pacerSignal
  simp [vault_fold]

@[simp] theorem State.fetchHome_vault (s : State) (i : Nat) (e : PEntry) :
    (State.fetchHome s i e).vault = s.vault := by
  unfold State.fetchHome
  simp

@[simp] theorem State.startPromotion_vault (s : State) (i : Nat) (e : PEntry) (k : Nat) :
    (State.startPromotion s i e k).vault = s.vault := by
  unfold State.startPromotion
  simp

@[simp] theorem State.makeRoom_vault (s : State) :
    (State.makeRoom s).vault = s.vault := by
  unfold State.makeRoom
  repeat' split
  all_goals simp

@[simp] theorem State.walkEntry_vault (s : State) (p : Pacer) (i : Nat) (e : PEntry) :
    (State.walkEntry s p i e).vault = s.vault := by
  unfold State.walkEntry
  repeat' split
  all_goals simp

@[simp] theorem State.walkAt_vault (s : State) (p : Pacer) (i : Nat) :
    (State.walkAt s p i).vault = s.vault := by
  unfold State.walkAt
  split
  · rfl
  · generalize List.find? _ _ = z
    cases z
    · generalize s.pacerEntry i = y
      cases y <;> simp
    · dsimp only
      split <;> simp

@[simp] theorem State.pacerWalk_vault (s : State) :
    (State.pacerWalk s).vault = s.vault := by
  unfold State.pacerWalk
  simp

@[simp] theorem State.writeCopies_vault (s : State) (e : PacerEntry) (xs : List ((Nat × Nat × Nat) × List Byte × Nat)) :
    (State.writeCopies s e xs).vault = s.vault := by
  unfold State.writeCopies
  simp [vault_fold]

@[simp] theorem State.chargeHome_vault (s : State) (e : PEntry) :
    (State.chargeHome s e).vault = s.vault := by
  unfold State.chargeHome
  refine vault_foldl _ (fun s p => ?_) _ _
  split
  · exact State.chargeRead_vault _ _ _ _
  · rfl

@[simp] theorem State.dropPacerTxns_vault (s : State) (i : Nat) :
    (State.dropPacerTxns s i).vault = s.vault := by
  unfold State.dropPacerTxns
  simp [vault_fold]

@[simp] theorem State.promoted_vault (s : State) (e : PacerEntry) (xs : List ((Nat × Nat × Nat) × List Byte × Nat)) :
    (State.promoted s e xs).vault = s.vault := by
  unfold State.promoted
  simp

@[simp] theorem State.writeAway_vault (s : State) (cl : Client) (off : Nat) (x : Target) (bs : List Byte) :
    (State.writeAway s cl off x bs).vault = s.vault := by
  unfold State.writeAway
  simp

@[simp] theorem State.writeHome_vault (s : State) (e : PacerEntry) (p : Nat × Nat × Nat) :
    (State.writeHome s e p).vault = s.vault := by
  unfold State.writeHome
  repeat' split
  all_goals simp

@[simp] theorem State.pacerFinish_vault (s : State) :
    (State.pacerFinish s).vault = s.vault := by
  unfold State.pacerFinish
  simp [vault_fold]

@[simp] theorem State.demoted_vault (s : State) (e : PacerEntry) :
    (State.demoted s e).vault = s.vault := by
  unfold State.demoted
  simp

@[simp] theorem State.demote_vault (s : State) (e : PacerEntry) :
    (State.demote s e).vault = s.vault := by
  unfold State.demote
  simp

@[simp] theorem State.pacerAdvance_vault (s : State) (h : Nat) :
    (State.pacerAdvance s h).vault = s.vault := by
  unfold State.pacerAdvance
  simp

@[simp] theorem State.pacerHome_vault (s : State) :
    (State.pacerHome s).vault = s.vault := by
  unfold State.pacerHome
  simp

@[simp] theorem State.pacerEnd_vault (s : State) :
    (State.pacerEnd s).vault = s.vault := by
  unfold State.pacerEnd
  simp

@[simp] theorem State.xlatInvWrite_vault (s : State) (v : Word) :
    (State.xlatInvWrite s v).vault = s.vault := by
  unfold State.xlatInvWrite
  simp [vault_fold]

end Sys2Proof.Machine
end

