-- ==== Sys2Proof/Laws/KeepSeq.lean ====
section
/-!
SUPPORT. What each operation of Machine/Seq.lean leaves alone: the vault.
-/
namespace Sys2Proof.Machine


@[simp] theorem State.moveOn_vault (s : State) (n : Nat) (push : Option LoopLevel) :
    (State.moveOn s n push).vault = s.vault := by
  unfold State.moveOn
  simp

/-- What a kind of descriptor does leaves the vault alone. -/
def Kind.keeps (k : Kind) : Prop := ∀ s n i d, (k.act s n i d).1.vault = s.vault

@[simp] theorem State.issue_vault (s : State) (n : Nat) (k : Kind) (push : Desc → Nat → Option LoopLevel) (hk : k.keeps) :
    (State.issue s n k push).vault = s.vault := by
  unfold State.issue
  unfold Kind.keeps at hk
  repeat' split
  all_goals simp [hk]

@[simp] theorem haltKind_keeps : haltKind.keeps := fun _ _ _ _ => by simp [haltKind, ctlKind]

@[simp] theorem State.issueHalt_vault (s : State) (n : Nat) :
    (State.issueHalt s n).vault = s.vault := by
  unfold State.issueHalt
  repeat' split
  all_goals simp

@[simp] theorem State.sendSignals_vault (s : State) (gs : List Signal) :
    (State.sendSignals s gs).vault = s.vault := by
  unfold State.sendSignals
  refine vault_foldl _ (fun t g => ?_) _ _
  exact vault_fold t

@[simp] theorem State.deliver_vault (s : State) (g : Signal) :
    (State.deliver s g).vault = s.vault := by
  unfold State.deliver
  simp

@[simp] theorem State.setHurdle_vault (s : State) (h : Nat) (x : Hurdle) :
    (State.setHurdle s h x).vault = s.vault := by
  unfold State.setHurdle
  simp [vault_fold]

@[simp] theorem State.arrive_vault_1 (s : State) (h : Nat) (l : Nat) :
    (State.arrive s h l).1.vault = s.vault := by
  unfold State.arrive
  simp

@[simp] theorem State.spoilImage_vault (s : State) (n : Nat) (d : Desc) :
    (State.spoilImage s n d).vault = s.vault := by
  unfold State.spoilImage
  dsimp only
  repeat' split
  all_goals simp [vault_fold]

@[simp] theorem histStoreAct_vault_1 (s : State) (n : Nat) (serial : Nat) (d : Desc) :
    (histStoreAct s n serial d).1.vault = s.vault := by
  unfold histStoreAct
  dsimp only
  repeat' split
  all_goals simp [vault_fold]

@[simp] theorem nopKind_keeps : nopKind.keeps := fun _ _ _ _ => by simp [nopKind, ctlKind, vault_fold]

@[simp] theorem loopKind_keeps : loopKind.keeps := fun _ _ _ _ => by simp [loopKind, ctlKind, vault_fold]

@[simp] theorem waitKind_keeps : waitKind.keeps := fun _ _ _ _ => by simp [waitKind, ctlKind, vault_fold]

@[simp] theorem signalKind_keeps : signalKind.keeps := fun _ _ _ _ => by simp [signalKind, ctlKind, vault_fold]

@[simp] theorem hurdleKind_keeps : hurdleKind.keeps := fun _ _ _ _ => by simp [hurdleKind, ctlKind, vault_fold]

@[simp] theorem eventKind_keeps : eventKind.keeps := fun _ _ _ _ => by simp [eventKind, ctlKind, vault_fold]

@[simp] theorem histCfgKind_keeps : histCfgKind.keeps := fun _ _ _ _ => by simp [histCfgKind, ctlKind, vault_fold]

@[simp] theorem histStoreKind_keeps : histStoreKind.keeps := fun _ _ _ _ => by simp [histStoreKind, ctlKind, vault_fold]

end Sys2Proof.Machine
end

