-- ==== Sys2Proof/Laws/KeepBucket.lean ====
section
/-!
SUPPORT. What each operation of Machine/Bucket.lean leaves alone: the vault.
-/
namespace Sys2Proof.Machine


@[simp] theorem State.putBucket_vault (s : State) (b : Nat) (off : Nat) (n : Nat) (v : Nat) :
    (State.putBucket s b off n v).vault = s.vault := by
  unfold State.putBucket
  simp

@[simp] theorem State.putRlap_vault (s : State) (b : Nat) :
    (State.putRlap s b).vault = s.vault := by
  unfold State.putRlap
  simp

@[simp] theorem State.stepState_vault (s : State) (b : Nat) (st : Nat) (fcode : Nat) :
    (State.stepState s b st fcode).vault = s.vault := by
  unfold State.stepState
  simp

@[simp] theorem State.zeroSpans_vault (s : State) (xs : List (Nat × Nat)) :
    (State.zeroSpans s xs).vault = s.vault := by
  unfold State.zeroSpans
  simp

@[simp] theorem State.putRed_vault (s : State) (b : Nat) (i : Nat) (v : Nat) :
    (State.putRed s b i v).vault = s.vault := by
  unfold State.putRed
  simp

@[simp] theorem State.putRedFlags_vault (s : State) (b : Nat) (owncnt : Nat) (carried : Nat) (wd : Bool) (closed : Bool) (isLocal : Bool) :
    (State.putRedFlags s b owncnt carried wd closed isLocal).vault = s.vault := by
  unfold State.putRedFlags
  simp

@[simp] theorem State.chargeLocal_vault (s : State) (a : Nat) (n : Nat) :
    (State.chargeLocal s a n).vault = s.vault := by
  unfold State.chargeLocal
  simp

@[simp] theorem State.chargeTables_vault (s : State) (b : Nat) (d : Bucket) :
    (State.chargeTables s b d).vault = s.vault := by
  unfold State.chargeTables
  simp

@[simp] theorem State.patchOne_vault (s : State) (d : Bucket) (i : Nat) :
    (State.patchOne s d i).vault = s.vault := by
  unfold State.patchOne
  simp

@[simp] theorem State.writePatches_vault (s : State) :
    (State.writePatches s).vault = s.vault := by
  unfold State.writePatches
  simp

@[simp] theorem State.launchBaton_vault (s : State) (b : Baton) :
    (State.launchBaton s b).vault = s.vault := by
  unfold State.launchBaton
  simp [vault_fold]

@[simp] theorem State.sendBaton_vault (s : State) (type : Nat) (ctx : Nat) (dst : Nat) (arg : Nat) (pay : Nat) :
    (State.sendBaton s type ctx dst arg pay).vault = s.vault := by
  unfold State.sendBaton
  simp

end Sys2Proof.Machine
end

