-- ==== Sys2Proof/Laws/KeepHarvest.lean ====
section
/-!
SUPPORT. What each operation of Machine/Harvest.lean leaves alone: the vault.
-/
namespace Sys2Proof.Machine


@[simp] theorem State.onHvu_vault (s : State) (f : Hvu → Hvu) :
    (State.onHvu s f).vault = s.vault := by
  unfold State.onHvu
  simp [vault_fold]

@[simp] theorem State.setJob_vault (s : State) (j : Option HvuJob) :
    (State.setJob s j).vault = s.vault := by
  unfold State.setJob
  simp

@[simp] theorem State.bucketFault_vault (s : State) (b : Nat) (code : Nat) :
    (State.bucketFault s b code).vault = s.vault := by
  unfold State.bucketFault
  simp

@[simp] theorem State.unlessFault_vault (s : State) (b : Nat) (f : Option Nat) (next : State) (hn : next.vault = s.vault) :
    (State.unlessFault s b f next).vault = s.vault := by
  cases f
  · exact hn
  · exact State.bucketFault_vault _ _ _

@[simp] theorem State.mirror_vault (s : State) (b : Nat) (src : Nat) (dst : Nat) (n : Nat) :
    (State.mirror s b src dst n).vault = s.vault := by
  unfold State.mirror
  simp

@[simp] theorem State.mirrorRecord_vault (s : State) (b : Nat) :
    (State.mirrorRecord s b).vault = s.vault := by
  unfold State.mirrorRecord
  simp

@[simp] theorem State.mirrorSpare_vault (s : State) (b : Nat) (spare : Nat) :
    (State.mirrorSpare s b spare).vault = s.vault := by
  unfold State.mirrorSpare
  simp

@[simp] theorem State.mirrorStamp_vault (s : State) (b : Nat) (slot : Nat) :
    (State.mirrorStamp s b slot).vault = s.vault := by
  unfold State.mirrorStamp
  simp

@[simp] theorem State.snapCheck_vault (s : State) :
    (State.snapCheck s).vault = s.vault := by
  unfold State.snapCheck
  simp

@[simp] theorem State.buddyHolds_vault (s : State) (b : Nat) (t : Txn) :
    (State.buddyHolds s b t).vault = s.vault := by
  unfold State.buddyHolds
  simp

@[simp] theorem State.settleBuddy_vault (s : State) :
    (State.settleBuddy s).vault = s.vault := by
  unfold State.settleBuddy
  simp [vault_fold]

@[simp] theorem State.seedMirror_vault (s : State) :
    (State.seedMirror s).vault = s.vault := by
  unfold State.seedMirror
  simp

@[simp] theorem State.writeImage_vault (s : State) (c : Core) (xs : List (Nat × Nat)) :
    (State.writeImage s c xs).vault = s.vault := by
  unfold State.writeImage
  simp

@[simp] theorem State.hvuTally_vault (s : State) (g : Nat) (t : Tally) :
    (State.hvuTally s g t).vault = s.vault := by
  unfold State.hvuTally
  simp

@[simp] theorem State.writeW_vault (s : State) (d : Bucket) (idx : Nat) (m : Matrix) (cells : List (Nat × Nat × Val)) :
    (State.writeW s d idx m cells).vault = s.vault := by
  unfold State.writeW
  simp

@[simp] theorem State.writePass_vault (s : State) (d : Bucket) (spare : Nat) (x : SlotPart) (o : PassOut) :
    (State.writePass s d spare x o).vault = s.vault := by
  unfold State.writePass
  simp

@[simp] theorem State.chargePasses_vault (s : State) (b : Nat) (d : Bucket) :
    (State.chargePasses s b d).vault = s.vault := by
  unfold State.chargePasses
  simp

@[simp] theorem State.writePasses_vault (s : State) (b : Nat) (d : Bucket) (spare : Nat) (outs : List (SlotPart × PassOut)) :
    (State.writePasses s b d spare outs).vault = s.vault := by
  unfold State.writePasses
  rw [vault_foldl _ (fun _ _ => State.writePass_vault _ _ _ _ _), State.chargePasses_vault]

@[simp] theorem State.finishPasses_vault (s : State) (j : HvuJob) (hvu : Nat) (tally : Tally) :
    (State.finishPasses s j hvu tally).vault = s.vault := by
  unfold State.finishPasses
  simp

@[simp] theorem State.passesOf_vault (s : State) (j : HvuJob) (d : Bucket) :
    (State.passesOf s j d).vault = s.vault := by
  unfold State.passesOf
  simp

@[simp] theorem State.runPasses_vault (s : State) (j : HvuJob) :
    (State.runPasses s j).vault = s.vault := by
  unfold State.runPasses
  simp

@[simp] theorem State.putScale_vault (s : State) (b : Nat) (sc : Nat) (clean : Nat) :
    (State.putScale s b sc clean).vault = s.vault := by
  unfold State.putScale
  extract_lets d t x
  have h : t.vault = s.vault := by simp [t]
  split
  · exact h
  · rw [vault_mk, vault_fold, h]

@[simp] theorem State.applyScale_vault (s : State) (b : Nat) (v : Nat) :
    (State.applyScale s b v).vault = s.vault := by
  unfold State.applyScale
  simp

@[simp] theorem State.releaseG_vault (s : State) (b : Nat) :
    (State.releaseG s b).vault = s.vault := by
  unfold State.releaseG
  simp

@[simp] theorem State.writeHeader_vault (s : State) (i : Nat) (b : Nat) (stamp : Nat) :
    (State.writeHeader s i b stamp).vault = s.vault := by
  unfold State.writeHeader
  exact State.localWrite_vault _ _ _

@[simp] theorem State.verdictStep_vault (s : State) :
    (State.verdictStep s).vault = s.vault := by
  unfold State.verdictStep
  repeat' split
  all_goals simp

@[simp] theorem State.sendVerdict_vault (s : State) (b : Nat) :
    (State.sendVerdict s b).vault = s.vault := by
  unfold State.sendVerdict
  simp

@[simp] theorem State.gatherDone_vault (s : State) (b : Nat) (k : Nat) :
    (State.gatherDone s b k).vault = s.vault := by
  unfold State.gatherDone
  simp [vault_fold]

@[simp] theorem State.allGather_vault (s : State) (b : Nat) :
    (State.allGather s b).vault = s.vault := by
  unfold State.allGather
  simp

@[simp] theorem State.stampBuddy_vault (s : State) (j : HvuJob) :
    (State.stampBuddy s j).vault = s.vault := by
  unfold State.stampBuddy
  simp

@[simp] theorem State.publish_vault (s : State) (j : HvuJob) :
    (State.publish s j).vault = s.vault := by
  unfold State.publish
  simp

@[simp] theorem State.commitBucket_vault (s : State) (j : HvuJob) :
    (State.commitBucket s j).vault = s.vault := by
  unfold State.commitBucket
  simp

@[simp] theorem State.finishBucket_vault (s : State) (j : HvuJob) :
    (State.finishBucket s j).vault = s.vault := by
  unfold State.finishBucket
  simp

@[simp] theorem State.rewriteW_vault (s : State) (b : Nat) :
    (State.rewriteW s b).vault = s.vault := by
  unfold State.rewriteW
  simp

@[simp] theorem State.resumePublish_vault (s : State) (j : HvuJob) :
    (State.resumePublish s j).vault = s.vault := by
  unfold State.resumePublish
  simp [vault_fold]

@[simp] theorem State.requeueFault_vault (s : State) (b : Nat) :
    (State.requeueFault s b).vault = s.vault := by
  unfold State.requeueFault
  simp

@[simp] theorem State.requeue_vault (s : State) (b : Nat) :
    (State.requeue s b).vault = s.vault := by
  unfold State.requeue
  repeat' split
  all_goals simp [vault_fold]

@[simp] theorem State.abandonFault_vault (s : State) (b : Nat) :
    (State.abandonFault s b).vault = s.vault := by
  unfold State.abandonFault
  simp

@[simp] theorem State.abandonBucket_vault (s : State) (b : Nat) :
    (State.abandonBucket s b).vault = s.vault := by
  unfold State.abandonBucket
  repeat' split
  all_goals simp

@[simp] theorem State.histAddTo_vault (s : State) (addr : Nat) (es : List (Val × Enc)) :
    (State.histAddTo s addr es).vault = s.vault := by
  unfold State.histAddTo
  simp

@[simp] theorem State.sumReduction_vault (s : State) (b : Nat) (d : Bucket) :
    (State.sumReduction s b d).vault = s.vault := by
  unfold State.sumReduction
  simp

@[simp] theorem State.reducePass_vault (s : State) (b : Nat) :
    (State.reducePass s b).vault = s.vault := by
  unfold State.reducePass
  simp

@[simp] theorem State.hvuCtrlWrite_vault (s : State) (v : Word) :
    (State.hvuCtrlWrite s v).vault = s.vault := by
  unfold State.hvuCtrlWrite
  simp [vault_fold]

@[simp] theorem State.startBucket_vault (s : State) (b : Nat) :
    (State.startBucket s b).vault = s.vault := by
  unfold State.startBucket
  simp

@[simp] theorem State.takeVerdict_vault (s : State) (b : Baton) :
    (State.takeVerdict s b).vault = s.vault := by
  unfold State.takeVerdict
  simp

@[simp] theorem State.hvuCmdWrite_vault (s : State) (v : Word) :
    (State.hvuCmdWrite s v).vault = s.vault := by
  unfold State.hvuCmdWrite
  simp

end Sys2Proof.Machine
end

