-- ==== Sys2Proof/Laws/KeepEngines.lean ====
section
/-!
SUPPORT. What each operation of Machine/Engines.lean leaves alone: the vault.
-/
namespace Sys2Proof.Machine


@[simp] theorem engineAct_vault_1 (run : Core → Env → Desc → RunRes) (bank : Desc → Option (Nat × Nat)) (s : State) (n : Nat) (x4 : Nat) (d : Desc) :
    (engineAct run bank s n x4 d).1.vault = s.vault := by
  unfold engineAct
  simp [vault_fold]

@[simp] theorem engineKind_keeps (code unit : Nat) (bank : Desc → Option (Nat × Nat))
    (faults : Core → Env → Desc → List FaultAt) (run : Core → Env → Desc → RunRes) :
    (engineKind code unit bank faults run).keeps := fun _ _ _ _ => by simp [engineKind]

@[simp] theorem timed_keeps (k : Kind) (slot : Core → Env → Desc → Slot) (bytes : Core → Env → Desc → List Nat)
    (h : k.keeps) : (k.timed slot bytes).keeps := h

@[simp] theorem mmKind_keeps (code : Nat) (dw : Bool) : (mmKind code dw).keeps := by simp [mmKind]

@[simp] theorem drainKind_keeps : (drainKind).keeps := by simp [drainKind]

@[simp] theorem spillKind_keeps : (spillKind).keeps := by simp [spillKind]

@[simp] theorem resumeKind_keeps : (resumeKind).keeps := by simp [resumeKind]

@[simp] theorem clearKind_keeps : (clearKind).keeps := by simp [clearKind]

@[simp] theorem vecKind_keeps (o : VOp) : (vecKind o).keeps := by simp [vecKind]

@[simp] theorem rowKind_keeps (o : ROp) : (rowKind o).keeps := by simp [rowKind]

end Sys2Proof.Machine
end

