-- ==== Sys2Proof/Laws/KeepStu.lean ====
section
/-!
SUPPORT. What each operation of Machine/Stu.lean leaves alone: the vault.
-/
namespace Sys2Proof.Machine


@[simp] theorem State.setStuCtx_vault (s : State) (n : Nat) (k : Nat) (x : StuCtx) :
    (State.setStuCtx s n k x).vault = s.vault := by
  unfold State.setStuCtx
  simp

@[simp] theorem State.onStu_vault (s : State) (n : Nat) (k : Nat) (f : StuCtx → StuCtx) :
    (State.onStu s n k f).vault = s.vault := by
  unfold State.onStu
  simp

@[simp] theorem State.moveTile_vault (s : State) (n : Nat) (k : Nat) (t : Tile) :
    (State.moveTile s n k t).vault = s.vault := by
  unfold State.moveTile
  dsimp only
  repeat' split
  all_goals simp [vault_fold]

@[simp] theorem State.handTiles_vault (s : State) (n : Nat) (k : Nat) :
    (State.handTiles s n k).vault = s.vault := by
  unfold State.handTiles
  simp

@[simp] theorem State.askTile_vault (s : State) (n : Nat) (k : Nat) (t : Tile) :
    (State.askTile s n k t).vault = s.vault := by
  unfold State.askTile
  simp

@[simp] theorem State.startTile_vault (s : State) (n : Nat) (k : Nat) (x : StuCtx) (d : StreamDesc) :
    (State.startTile s n k x d).vault = s.vault := by
  unfold State.startTile
  simp

@[simp] theorem State.startRing_vault (s : State) (n : Nat) (k : Nat) (x3 : Nat) :
    (State.startRing s n k x3).vault = s.vault := by
  induction x3 generalizing s with
  | zero => rfl
  | succ n ih =>
    unfold State.startRing
    split
    · rfl
    · split
      · rfl
      · rw [ih, State.startTile_vault]

@[simp] theorem State.startLoad_vault (s : State) (n : Nat) (k : Nat) (serial : Nat) (x4 : Nat) :
    (State.startLoad s n k serial x4).vault = s.vault := by
  induction x4 generalizing s with
  | zero => rfl
  | succ n ih =>
    unfold State.startLoad
    dsimp only
    split
    · rfl
    · split
      · rfl
      · simp [ih]

@[simp] theorem State.startTiles_vault (s : State) (n : Nat) (k : Nat) :
    (State.startTiles s n k).vault = s.vault := by
  unfold State.startTiles
  dsimp only
  repeat' split
  all_goals simp [vault_fold]

@[simp] theorem State.endLoad_vault (s : State) (n : Nat) (k : Nat) (serial : Nat) :
    (State.endLoad s n k serial).vault = s.vault := by
  unfold State.endLoad
  simp

@[simp] theorem State.stuSettle_vault (s : State) (n : Nat) (k : Nat) (owner : Option Nat) :
    (State.stuSettle s n k owner).vault = s.vault := by
  unfold State.stuSettle
  repeat' split
  all_goals simp

@[simp] theorem State.onTile_vault (s : State) (n : Nat) (k : Nat) (p : Nat) (f : Tile → Tile) :
    (State.onTile s n k p f).vault = s.vault := by
  unfold State.onTile
  simp

@[simp] theorem State.spoilTile_vault (s : State) (n : Nat) (t : Tile) :
    (State.spoilTile s n t).vault = s.vault := by
  unfold State.spoilTile
  dsimp only
  repeat' split
  all_goals simp [vault_fold]

@[simp] theorem State.failTile_vault (s : State) (n : Nat) (k : Nat) (p : Nat) (t : Tile) (c : FaultCode) :
    (State.failTile s n k p t c).vault = s.vault := by
  unfold State.failTile
  dsimp only
  repeat' split
  all_goals simp [vault_fold]

@[simp] theorem State.fetchTouch_vault (s : State) (l : StreamLoc) :
    (State.fetchTouch s l).vault = s.vault := by
  unfold State.fetchTouch
  simp [vault_fold]

@[simp] theorem State.placeStream_vault (s : State) (n : Nat) (k : Nat) (d : StreamDesc) :
    (State.placeStream s n k d).vault = s.vault := by
  unfold State.placeStream
  simp

@[simp] theorem armAct_vault_1 (s : State) (n : Nat) (serial : Nat) (d : Desc) :
    (armAct s n serial d).1.vault = s.vault := by
  unfold armAct
  simp

@[simp] theorem loadAct_vault_1 (s : State) (n : Nat) (serial : Nat) (d : Desc) :
    (loadAct s n serial d).1.vault = s.vault := by
  unfold loadAct
  dsimp only
  repeat' split
  all_goals simp [vault_fold]

@[simp] theorem acquireAct_vault_1 (s : State) (n : Nat) (x2 : Nat) (d : Desc) :
    (acquireAct s n x2 d).1.vault = s.vault := by
  unfold acquireAct
  simp

@[simp] theorem disarmAct_vault_1 (s : State) (n : Nat) (serial : Nat) (d : Desc) :
    (disarmAct s n serial d).1.vault = s.vault := by
  unfold disarmAct
  simp

@[simp] theorem State.issueStream_vault (s : State) (n : Nat) (k : Kind) (hk : k.keeps) :
    (State.issueStream s n k).vault = s.vault := by
  unfold State.issueStream
  split
  · rfl
  · dsimp only
    split <;> simp [hk]

@[simp] theorem State.armFetched_vault (s : State) (n : Nat) (k : Nat) (serial : Nat) (l : StreamLoc) (shadow : Bool) :
    (State.armFetched s n k serial l shadow).vault = s.vault := by
  unfold State.armFetched
  dsimp only
  repeat' split
  all_goals simp [vault_fold]

@[simp] theorem State.chainFetched_vault (s : State) (n : Nat) (k : Nat) (l : StreamLoc) :
    (State.chainFetched s n k l).vault = s.vault := by
  unfold State.chainFetched
  dsimp only
  repeat' split
  all_goals simp [vault_fold]

@[simp] theorem armKind_keeps : (armKind).keeps := fun _ _ _ _ => by simp [armKind, stuKind]

@[simp] theorem loadKind_keeps (code dir : Nat) : (loadKind code dir).keeps := fun _ _ _ _ => by simp [loadKind, stuKind]

@[simp] theorem acquireKind_keeps : (acquireKind).keeps := fun _ _ _ _ => by simp [acquireKind, stuKind]

@[simp] theorem releaseKind_keeps : (releaseKind).keeps := fun _ _ _ _ => by simp [releaseKind, stuKind]

@[simp] theorem disarmKind_keeps : (disarmKind).keeps := fun _ _ _ _ => by simp [disarmKind, stuKind]

end Sys2Proof.Machine
end

