-- ==== Sys2Proof/Laws/KeepLists.lean ====
section
/-!
SUPPORT. What each operation of Machine/Lists.lean leaves alone: the vault.
-/
namespace Sys2Proof.Machine


@[simp] theorem State.disarmWhenReady_vault (s : State) (n : Nat) (k : Nat) :
    (State.disarmWhenReady s n k).vault = s.vault := by
  unfold State.disarmWhenReady
  simp

@[simp] theorem State.afterLoad_vault (s : State) (n : Nat) (serial : Nat) :
    (State.afterLoad s n serial).vault = s.vault := by
  unfold State.afterLoad
  simp

@[simp] theorem State.complete_vault (s : State) (n : Nat) (e : InFlight) :
    (State.complete s n e).vault = s.vault := by
  unfold State.complete
  simp

@[simp] theorem State.histGoesOn_vault (s : State) (n : Nat) (e : InFlight) :
    (State.histGoesOn s n e).vault = s.vault := by
  unfold State.histGoesOn
  dsimp only
  repeat' split
  all_goals simp [vault_fold]

@[simp] theorem State.cancelBehind_vault (s : State) (n : Nat) (e : InFlight) :
    (State.cancelBehind s n e).vault = s.vault := by
  unfold State.cancelBehind
  simp

@[simp] theorem State.spoilBegun_vault (s : State) (n : Nat) (e : InFlight) :
    (State.spoilBegun s n e).vault = s.vault := by
  unfold State.spoilBegun
  simp [vault_fold]

@[simp] theorem State.raiseFault_vault (s : State) (n : Nat) (e : InFlight) :
    (State.raiseFault s n e).vault = s.vault := by
  unfold State.raiseFault
  simp

@[simp] theorem State.stopList_vault (s : State) (n : Nat) :
    (State.stopList s n).vault = s.vault := by
  unfold State.stopList
  dsimp only
  repeat' split
  all_goals simp [vault_fold]

@[simp] theorem State.streamResume_vault (s : State) (n : Nat) (d : Desc) :
    (State.streamResume s n d).vault = s.vault := by
  unfold State.streamResume
  dsimp only
  repeat' split
  all_goals simp [vault_fold]

@[simp] theorem State.streamSkip_vault (s : State) (n : Nat) (d : Desc) :
    (State.streamSkip s n d).vault = s.vault := by
  unfold State.streamSkip
  dsimp only
  repeat' split
  all_goals simp [vault_fold]

@[simp] theorem State.forgetLate_vault (s : State) (n : Nat) :
    (State.forgetLate s n).vault = s.vault := by
  unfold State.forgetLate
  repeat' split
  all_goals simp [vault_fold]

@[simp] theorem State.abandonStreams_vault (s : State) (n : Nat) :
    (State.abandonStreams s n).vault = s.vault := by
  unfold State.abandonStreams
  simp

@[simp] theorem State.endList_vault (s : State) (n : Nat) :
    (State.endList s n).vault = s.vault := by
  unfold State.endList
  simp [vault_fold]

@[simp] theorem State.abandon_vault (s : State) (n : Nat) :
    (State.abandon s n).vault = s.vault := by
  unfold State.abandon
  simp

@[simp] theorem State.startList_vault (s : State) (n : Nat) :
    (State.startList s n).vault = s.vault := by
  unfold State.startList
  simp

@[simp] theorem State.resumeList_vault (s : State) (n : Nat) :
    (State.resumeList s n).vault = s.vault := by
  unfold State.resumeList
  simp

@[simp] theorem State.skipList_vault (s : State) (n : Nat) :
    (State.skipList s n).vault = s.vault := by
  unfold State.skipList
  simp [vault_fold]

@[simp] theorem State.listCtrl_vault (s : State) (n : Nat) (v : Word) :
    (State.listCtrl s n v).vault = s.vault := by
  unfold State.listCtrl
  simp

@[simp] theorem State.listCommand_vault (s : State) (r : Requester) (n : Nat) (v : Word) :
    (State.listCommand s r n v).vault = s.vault := by
  unfold State.listCommand
  simp

@[simp] theorem State.idleWrite_vault (s : State) (n : Nat) (f : Core → Core) :
    (State.idleWrite s n f).vault = s.vault := by
  unfold State.idleWrite
  simp

@[simp] theorem State.loopStackWrite_vault (s : State) (n : Nat) (i : Nat) (v : Word) :
    (State.loopStackWrite s n i v).vault = s.vault := by
  unfold State.loopStackWrite
  repeat' split
  all_goals simp

@[simp] theorem State.renameSite_vault (s : State) (a : Nat) (b : Nat) :
    (State.renameSite s a b).vault = s.vault := by
  unfold State.renameSite
  simp [vault_fold]

@[simp] theorem State.restartTiles_vault (s : State) (n : Nat) :
    (State.restartTiles s n).vault = s.vault := by
  unfold State.restartTiles
  simp

@[simp] theorem State.migrate_vault (s : State) (l : Nat) (b : Nat) :
    (State.migrate s l b).vault = s.vault := by
  unfold State.migrate
  simp [vault_fold]

end Sys2Proof.Machine
end

