-- ==== Sys2Proof/Laws/KeepKvd.lean ====
section
/-!
SUPPORT. What each operation of Machine/Kvd.lean leaves alone: the vault.
-/
namespace Sys2Proof.Machine


@[simp] theorem State.onKvd_vault (s : State) (f : Kvd → Kvd) :
    (State.onKvd s f).vault = s.vault := by
  unfold State.onKvd
  simp [vault_fold]

@[simp] theorem State.setSeq_vault (s : State) (q : Nat) (d : BitVec 256) :
    (State.setSeq s q d).vault = s.vault := by
  unfold State.setSeq
  simp

@[simp] theorem State.setLen_vault (s : State) (q : Nat) (n : Nat) :
    (State.setLen s q n).vault = s.vault := by
  unfold State.setLen
  simp

@[simp] theorem State.setNres_vault (s : State) (q : Nat) (n : Nat) :
    (State.setNres s q n).vault = s.vault := by
  unfold State.setNres
  simp

@[simp] theorem State.putHead_vault (s : State) (q : Nat) (p : Nat) (loc : Nat) (moving : Bool) (backed : Bool) (fill : Nat) (score : Nat) :
    (State.putHead s q p loc moving backed fill score).vault = s.vault := by
  unfold State.putHead
  simp

@[simp] theorem State.putSlots_vault (s : State) (q : Nat) (p : Nat) (as : List Nat) :
    (State.putSlots s q p as).vault = s.vault := by
  unfold State.putSlots
  simp

@[simp] theorem State.setKvSlot_vault (s : State) (n : Nat) (st : Nat) :
    (State.setKvSlot s n st).vault = s.vault := by
  unfold State.setKvSlot
  simp

@[simp] theorem State.releaseSlots_vault (s : State) (q : Nat) (ns : List Nat) :
    (State.releaseSlots s q ns).vault = s.vault := by
  unfold State.releaseSlots
  simp

@[simp] theorem State.takeSlot_vault_2 (s : State) :
    (State.takeSlot s).2.vault = s.vault := by
  unfold State.takeSlot
  simp

@[simp] theorem State.takeSlots_vault_2 (s : State) (n : Nat) :
    (State.takeSlots s n).2.vault = s.vault := by
  unfold State.takeSlots
  simp

@[simp] theorem State.leaveNear_vault (s : State) (q : Nat) (p : Nat) (loc : Nat) :
    (State.leaveNear s q p loc).vault = s.vault := by
  unfold State.leaveNear
  simp

@[simp] theorem State.setMoving_vault (s : State) (q : Nat) (p : Nat) (b : Bool) :
    (State.setMoving s q p b).vault = s.vault := by
  unfold State.setMoving
  simp

@[simp] theorem State.evict_vault (s : State) (q : Nat) (p : Nat) :
    (State.evict s q p).vault = s.vault := by
  unfold State.evict
  simp

@[simp] theorem State.evictWhile_vault (qs : List Nat) (more : State → Bool) (x2 : Nat) (x3 : State) :
    (State.evictWhile qs more x2 x3).vault = x3.vault := by
  induction x2 generalizing x3 with
  | zero => rfl
  | succ n ih =>
    unfold State.evictWhile
    repeat' split
    all_goals simp [ih]

@[simp] theorem State.kvdCtrlWrite_vault (s : State) (v : Word) :
    (State.kvdCtrlWrite s v).vault = s.vault := by
  unfold State.kvdCtrlWrite
  simp

@[simp] theorem State.dirSelWrite_vault (s : State) (r : Requester) (v : Word) :
    (State.dirSelWrite s r v).vault = s.vault := by
  unfold State.dirSelWrite
  simp

@[simp] theorem State.emptySeq_vault (s : State) (q : Nat) :
    (State.emptySeq s q).vault = s.vault := by
  unfold State.emptySeq
  simp

@[simp] theorem State.appendTokens_vault (s : State) (q : Nat) (n : Nat) :
    (State.appendTokens s q n).vault = s.vault := by
  unfold State.appendTokens
  simp

@[simp] theorem State.putResult_vault (s : State) (i : Nat) (e : Nat) (status : Nat) :
    (State.putResult s i e status).vault = s.vault := by
  unfold State.putResult
  simp

@[simp] theorem State.stepRoom_vault (s : State) (q n need : Nat) : (s.stepRoom q n need).state.vault = s.vault := by
  unfold State.stepRoom State.stepFull
  repeat' split
  all_goals simp [Admitted.state]

@[simp] theorem State.stepSeq_vault (s : State) (q n : Nat) : (s.stepSeq q n).state.vault = s.vault := by
  unfold State.stepSeq
  extract_lets d w groups need
  split
  · simp [State.stepFull, Admitted.state]
  · rw [State.stepRoom_vault, State.evictWhile_vault]

theorem Admitted.done_state (s : State) (n : Nat) : (Admitted.done s n).state = s := rfl
theorem Admitted.wait_state (s : State) : (Admitted.wait s).state = s := rfl

@[simp] theorem State.admitEntry_vault (s : State) (e : Nat) : (s.admitEntry e).state.vault = s.vault := by
  unfold State.admitEntry
  extract_lets q op new
  repeat' split
  all_goals simp [Admitted.done_state, Admitted.wait_state]

@[simp] theorem State.entryDone_vault_2 (s : State) (x1 : Admitted) (h : x1.state.vault = s.vault) :
    (State.entryDone s x1).2.vault = s.vault := by
  cases x1
  · exact (State.putResult_vault _ _ _ _).trans h
  · exact h

@[simp] theorem State.admitNext_vault_2 (s : State) :
    (State.admitNext s).2.vault = s.vault := by
  unfold State.admitNext
  split
  · simp
  · exact State.entryDone_vault_2 _ _ (State.admitEntry_vault _ _)

@[simp] theorem State.admitLoop_vault (x0 : Nat) (x1 : State) :
    (State.admitLoop x0 x1).vault = x1.vault := by
  induction x0 generalizing x1 with
  | zero => rfl
  | succ n ih =>
    unfold State.admitLoop
    split
    · rw [ih, State.admitNext_vault_2]
    · rw [State.admitNext_vault_2]

@[simp] theorem State.admitOn_vault (s : State) :
    (State.admitOn s).vault = s.vault := by
  unfold State.admitOn
  split <;> simp

@[simp] theorem State.admitBatch_vault (s : State) :
    (State.admitBatch s).vault = s.vault := by
  unfold State.admitBatch
  simp

@[simp] theorem State.foldSeq_vault (s : State) (q : Nat) :
    (State.foldSeq s q).vault = s.vault := by
  unfold State.foldSeq
  simp

@[simp] theorem State.stepEnd_vault (s : State) :
    (State.stepEnd s).vault = s.vault := by
  unfold State.stepEnd
  simp

@[simp] theorem State.kvdCmdWrite_vault (s : State) (v : Word) :
    (State.kvdCmdWrite s v).vault = s.vault := by
  unfold State.kvdCmdWrite
  simp

@[simp] theorem State.fetchBack_vault (low : Nat) (x1 : Nat) (x2 : State) :
    (State.fetchBack low x1 x2).vault = x2.vault := by
  induction x1 generalizing x2 with
  | zero => rfl
  | succ n ih =>
    unfold State.fetchBack
    repeat' split
    all_goals simp [ih]

@[simp] theorem State.maintain_vault (s : State) :
    (State.maintain s).vault = s.vault := by
  unfold State.maintain
  extract_lets low s1 s2 s3
  have h1 : s1.vault = s.vault := by simp [s1]
  have h2 : s2.vault = s.vault := by simp [s2, h1]
  simp [s3, h2]

@[simp] theorem State.movePoisoned_vault (s : State) (m : KvdMove) :
    (State.movePoisoned s m).vault = s.vault := by
  unfold State.movePoisoned
  simp

@[simp] theorem State.moveDone_vault (s : State) (m : KvdMove) :
    (State.moveDone s m).vault = s.vault := by
  unfold State.moveDone
  simp

@[simp] theorem State.putChain_vault (s : State) (dir : Nat) (ring : Nat) (head : Nat) (mems : List Nat) :
    (State.putChain s dir ring head mems).vault = s.vault := by
  unfold State.putChain
  simp

@[simp] theorem State.emitLayer_vault (s : State) (d : BitVec 768) (m : Nat) (base : Nat) (lcore : Nat) (w : CoreWalk) (l : Nat) :
    (State.emitLayer s d m base lcore w l).vault = s.vault := by
  unfold State.emitLayer
  simp [vault_fold]

@[simp] theorem State.walkPatch_vault (s : State) (cores : List (Nat × CoreWalk)) (e : Nat × Nat × Nat) :
    (State.walkPatch s cores e).vault = s.vault := by
  unfold State.walkPatch
  repeat' split
  all_goals simp

@[simp] theorem State.walkEmit_vault (s : State) :
    (State.walkEmit s).vault = s.vault := by
  unfold State.walkEmit
  simp

@[simp] theorem State.kvdEnd_vault (s : State) (ctx : Nat) :
    (State.kvdEnd s ctx).vault = s.vault := by
  unfold State.kvdEnd
  simp [vault_fold]

end Sys2Proof.Machine
end

