-- ==== Sys2Proof/Laws/KeepRecord.lean ====
section
/-!
SUPPORT. What each operation of Machine/Record.lean leaves alone: the vault.
-/
namespace Sys2Proof.Machine


@[simp] theorem State.flmPhase_vault (s : State) (ph : Nat) :
    (State.flmPhase s ph).vault = s.vault := by
  unfold State.flmPhase
  simp

@[simp] theorem State.recordBody_vault_2 (s : State) (lap : Nat) (ts : List Nat) :
    (State.recordBody s lap ts).2.vault = s.vault := by
  unfold State.recordBody
  simp

@[simp] theorem State.captureRecord_vault (s : State) (t : Nat) :
    (State.captureRecord s t).vault = s.vault := by
  unfold State.captureRecord
  dsimp only
  split
  · simp
  · split
    · simp
    · split
      · rw [State.request_vault, vault_mk]
        exact (State.localWrite_vault _ _ _).trans (by simp)
      · rw [vault_mk]
        exact (State.localWrite_vault _ _ _).trans (by simp)

@[simp] theorem State.checkReplay_vault (s : State) (t : Nat) :
    (State.checkReplay s t).vault = s.vault := by
  unfold State.checkReplay
  repeat' split
  all_goals simp [vault_fold]

end Sys2Proof.Machine
end

