-- ==== Sys2Proof/Laws/KeepFlm.lean ====
section
/-!
SUPPORT. What each operation of Machine/Flm.lean leaves alone: the vault.
-/
namespace Sys2Proof.Machine


@[simp] theorem State.portState_vault (s : State) (p : Nat) (st : Nat) :
    (State.portState s p st).vault = s.vault := by
  unfold State.portState
  simp

@[simp] theorem State.portDrop_vault (s : State) (p : Nat) (st : Nat) :
    (State.portDrop s p st).vault = s.vault := by
  unfold State.portDrop
  simp [vault_fold]

@[simp] theorem State.declareLoss_vault (s : State) (d : Nat) :
    (State.declareLoss s d).vault = s.vault := by
  unfold State.declareLoss
  simp

@[simp] theorem State.siteGone_vault (s : State) (n : Nat) :
    (State.siteGone s n).vault = s.vault := by
  unfold State.siteGone
  simp [vault_fold]

@[simp] theorem State.adoptEpoch_vault (s : State) (ctx : Nat) (e : Nat) :
    (State.adoptEpoch s ctx e).vault = s.vault := by
  unfold State.adoptEpoch
  simp

@[simp] theorem State.unplan_vault (s : State) (l : Nat) (n : Nat) :
    (State.unplan s l n).vault = s.vault := by
  unfold State.unplan
  simp

@[simp] theorem State.newPlacement_vault (s : State) (n : Nat) :
    (State.newPlacement s n).vault = s.vault := by
  unfold State.newPlacement
  simp

@[simp] theorem State.moveCore_vault (s : State) (l : Nat) (b : Nat) :
    (State.moveCore s l b).vault = s.vault := by
  unfold State.moveCore
  simp

@[simp] theorem State.vacate_vault (s : State) (n : Nat) :
    (State.vacate s n).vault = s.vault := by
  unfold State.vacate
  repeat' split
  all_goals simp

@[simp] theorem State.plannedMove_vault (s : State) (x : Nat × Nat) :
    (State.plannedMove s x).vault = s.vault := by
  unfold State.plannedMove
  simp

@[simp] theorem State.retireSite_vault (s : State) (n : Nat) :
    (State.retireSite s n).vault = s.vault := by
  unfold State.retireSite
  simp [vault_fold]

@[simp] theorem State.portOff_vault (s : State) (p : Nat) :
    (State.portOff s p).vault = s.vault := by
  unfold State.portOff
  simp

@[simp] theorem State.retarget_vault (s : State) (k : Nat) (w : Nat) :
    (State.retarget s k w).vault = s.vault := by
  unfold State.retarget
  simp

@[simp] theorem State.resumeUpdate_vault (s : State) :
    (State.resumeUpdate s).vault = s.vault := by
  unfold State.resumeUpdate
  repeat' split
  all_goals simp

@[simp] theorem State.takeOver_vault (s : State) (k : Nat) :
    (State.takeOver s k).vault = s.vault := by
  unfold State.takeOver
  dsimp only
  split
  · simp [vault_fold]
  · rw [State.resumeUpdate_vault, State.flmLog_vault, State.onFlm_vault]
    rw [vault_mk]
    exact (State.retarget_vault _ _ _).trans rfl

@[simp] theorem State.siteLasting_vault (s : State) (kind : Nat) (n : Nat) :
    (State.siteLasting s kind n).vault = s.vault := by
  unfold State.siteLasting
  simp

@[simp] theorem State.rowLasting_vault (s : State) (res : Nat) :
    (State.rowLasting s res).vault = s.vault := by
  unfold State.rowLasting
  simp [vault_fold]

@[simp] theorem State.flmAction_vault (s : State) (kind : Nat) (res : Nat) :
    (State.flmAction s kind res).vault = s.vault := by
  unfold State.flmAction
  repeat' split
  all_goals simp

@[simp] theorem State.flmEvent_vault (s : State) (kind : Nat) (res : Nat) :
    (State.flmEvent s kind res).vault = s.vault := by
  unfold State.flmEvent
  simp

@[simp] theorem State.replaceNow_vault (s : State) :
    (State.replaceNow s).vault = s.vault := by
  unfold State.replaceNow
  simp

@[simp] theorem State.flmBoundary_vault (s : State) :
    (State.flmBoundary s).vault = s.vault := by
  unfold State.flmBoundary
  simp

@[simp] theorem State.flmRelease_vault (s : State) :
    (State.flmRelease s).vault = s.vault := by
  unfold State.flmRelease
  simp

@[simp] theorem State.spoilWord_vault (s : State) (n : Nat) (w : Nat) :
    (State.spoilWord s n w).vault = s.vault := by
  unfold State.spoilWord
  repeat' split
  all_goals simp [vault_fold]

@[simp] theorem State.loseWord_vault (s : State) (n : Nat) :
    (State.loseWord s n).vault = s.vault := by
  unfold State.loseWord
  simp

@[simp] theorem State.siteError_vault (s : State) (kind : Nat) (n : Nat) :
    (State.siteError s kind n).vault = s.vault := by
  unfold State.siteError
  simp

@[simp] theorem State.scrubEnd_vault (s : State) (k : Nat) (period : Nat) :
    (State.scrubEnd s k period).vault = s.vault := by
  unfold State.scrubEnd
  simp

@[simp] theorem State.scrubLost_vault (s : State) (word : Nat) :
    (State.scrubLost s word).vault = s.vault := by
  unfold State.scrubLost
  simp [vault_fold]

end Sys2Proof.Machine
end

