-- ==== Sys2Proof/Laws/KeepDigest.lean ====
section
/-!
SUPPORT. What each operation of Machine/Digest.lean leaves alone: the vault.
-/
namespace Sys2Proof.Machine


@[simp] theorem State.countMismatch_vault (s : State) (b : Nat) (ds : List Nat) :
    (State.countMismatch s b ds).vault = s.vault := by
  unfold State.countMismatch
  simp

@[simp] theorem State.sendWinner_vault (s : State) (b : Nat) (losers : List Nat) :
    (State.sendWinner s b losers).vault = s.vault := by
  unfold State.sendWinner
  simp

@[simp] theorem State.fetchShard_vault (s : State) (b : Nat) (holder : Nat) :
    (State.fetchShard s b holder).vault = s.vault := by
  unfold State.fetchShard
  simp

@[simp] theorem State.compareDigests_vault (s : State) (b : Nat) :
    (State.compareDigests s b).vault = s.vault := by
  unfold State.compareDigests
  simp

@[simp] theorem State.mendShard_vault (s : State) (m : Mend) :
    (State.mendShard s m).vault = s.vault := by
  unfold State.mendShard
  simp

@[simp] theorem State.settleMend_vault (s : State) :
    (State.settleMend s).vault = s.vault := by
  unfold State.settleMend
  extract_lets mine t
  have ht : t.vault = s.vault := by
    refine (vault_foldl _ (fun t x => ?_) _ _).trans (vault_fold s)
    repeat' split
    all_goals simp
  exact (vault_foldl _ State.mendShard_vault _ _).trans ht

@[simp] theorem State.hvuAck_vault (s : State) (t : Txn) :
    (State.hvuAck s t).vault = s.vault := by
  unfold State.hvuAck
  repeat' split
  all_goals simp

@[simp] theorem State.takeDigest_vault (s : State) (b : Baton) :
    (State.takeDigest s b).vault = s.vault := by
  unfold State.takeDigest
  simp

end Sys2Proof.Machine
end

