-- ==== Sys2Proof/Laws/KeepLaps.lean ====
section
/-!
SUPPORT. What each operation of Machine/Laps.lean leaves alone: the vault.
-/
namespace Sys2Proof.Machine


@[simp] theorem State.onSch_vault (s : State) (f : Sch → Sch) :
    (State.onSch s f).vault = s.vault := by
  unfold State.onSch
  simp [vault_fold]

@[simp] theorem State.countCuts_vault (s : State) :
    (State.countCuts s).vault = s.vault := by
  unfold State.countCuts
  simp

@[simp] theorem State.tableStop_vault (s : State) :
    (State.tableStop s).vault = s.vault := by
  unfold State.tableStop
  simp

@[simp] theorem State.beginLap_vault (s : State) :
    (State.beginLap s).vault = s.vault := by
  unfold State.beginLap
  simp

@[simp] theorem State.openSlot_vault (s : State) (i : Nat) :
    (State.openSlot s i).vault = s.vault := by
  unfold State.openSlot
  repeat' split
  all_goals simp

@[simp] theorem State.onBkt_vault (s : State) (b : Nat) (f : BktRun → BktRun) :
    (State.onBkt s b f).vault = s.vault := by
  unfold State.onBkt
  simp

@[simp] theorem State.redSetBit_vault (s : State) (b : Nat) (word : Nat) (k : Nat) :
    (State.redSetBit s b word k).vault = s.vault := by
  unfold State.redSetBit
  simp

@[simp] theorem State.redBaton_vault (s : State) (type : Nat) (b : Nat) (k : Nat) (pay : Nat) :
    (State.redBaton s type b k pay).vault = s.vault := by
  unfold State.redBaton
  simp

@[simp] theorem State.closeBucket_vault (s : State) (b : Nat) (deadline : Bool) :
    (State.closeBucket s b deadline).vault = s.vault := by
  unfold State.closeBucket
  simp

@[simp] theorem State.tryClose_vault (s : State) (b : Nat) :
    (State.tryClose s b).vault = s.vault := by
  unfold State.tryClose
  simp

@[simp] theorem State.sendSpan_vault (s : State) (client : Client) (ctx : Nat) (dest : Nat) (base : Nat) (x : Nat × Nat × Nat) :
    (State.sendSpan s client ctx dest base x).vault = s.vault := by
  unfold State.sendSpan
  simp

@[simp] theorem State.sendShard_vault (s : State) (b : Nat) (k : Nat) :
    (State.sendShard s b k).vault = s.vault := by
  unfold State.sendShard
  extract_lets d
  exact vault_foldl _ (fun _ _ => State.sendSpan_vault _ _ _ _ _ _) _ _

@[simp] theorem State.latePart_vault (s : State) (b : Nat) (r : Nat) :
    (State.latePart s b r).vault = s.vault := by
  unfold State.latePart
  simp

@[simp] theorem State.takePart_vault (s : State) (b : Baton) :
    (State.takePart s b).vault = s.vault := by
  unfold State.takePart
  simp

@[simp] theorem State.zeroShard_vault (s : State) (b : Nat) (k : Nat) :
    (State.zeroShard s b k).vault = s.vault := by
  unfold State.zeroShard
  simp

@[simp] theorem State.takeAck_vault (s : State) (b : Baton) :
    (State.takeAck s b).vault = s.vault := by
  unfold State.takeAck
  simp

@[simp] theorem State.takeClosed_vault (s : State) (b : Baton) :
    (State.takeClosed s b).vault = s.vault := by
  unfold State.takeClosed
  simp

@[simp] theorem State.takeGather_vault (s : State) (b : Baton) :
    (State.takeGather s b).vault = s.vault := by
  unfold State.takeGather
  simp

@[simp] theorem State.withdrawBucket_vault (s : State) (b : Nat) :
    (State.withdrawBucket s b).vault = s.vault := by
  unfold State.withdrawBucket
  extract_lets d r me s1 s2 left s3 s4 s5
  have h2 : s2.vault = s.vault := by simp [s2, s1]
  have h3 : s3.vault = s.vault := by simp [s3, h2]
  have h4 : s4.vault = s.vault := by
    simp only [s4]
    rw [vault_mk, vault_fold, h3]
  have h5 : s5.vault = s.vault := by rw [State.onBkt_vault, h4]
  clear_value s5
  split
  · exact h2
  · split
    · exact h5
    · rw [State.tryClose_vault, State.redSetBit_vault, h5]

@[simp] theorem State.withdraw_vault (s : State) :
    (State.withdraw s).vault = s.vault := by
  unfold State.withdraw
  simp

@[simp] theorem State.schCmdWrite_vault (s : State) (v : Word) :
    (State.schCmdWrite s v).vault = s.vault := by
  unfold State.schCmdWrite
  simp

@[simp] theorem State.logLoss_vault (s : State) :
    (State.logLoss s).vault = s.vault := by
  unfold State.logLoss
  simp

@[simp] theorem State.renewBucket_vault (s : State) (t : Nat) (b : Nat) :
    (State.renewBucket s t b).vault = s.vault := by
  unfold State.renewBucket
  extract_lets d r x s1 carry s2 s3 s4
  have h1 : s1.vault = s.vault := by simp only [s1]; repeat' split
                                     all_goals simp
  have h2 : s2.vault = s.vault := by simp [s2, h1]
  have h3 : s3.vault = s.vault := by simp only [s3]; split <;> simp [h2]
  have h4 : s4.vault = s.vault :=
    (State.unlessFault_vault _ _ _ _ (State.localWrite_vault _ _ _)).trans h3
  split <;> simp [h4]

@[simp] theorem State.sendDigests_vault (s : State) :
    (State.sendDigests s).vault = s.vault := by
  unfold State.sendDigests
  simp

@[simp] theorem State.lapAdvance_vault (s : State) (e : Nat) :
    (State.lapAdvance s e).vault = s.vault := by
  unfold State.lapAdvance
  simp

@[simp] theorem State.tellParent_vault (s : State) :
    (State.tellParent s).vault = s.vault := by
  unfold State.tellParent
  simp

@[simp] theorem State.lapGo_vault (s : State) (e : Nat) :
    (State.lapGo s e).vault = s.vault := by
  unfold State.lapGo
  simp

@[simp] theorem State.takeLoss_vault (s : State) (b : Baton) :
    (State.takeLoss s b).vault = s.vault := by
  unfold State.takeLoss
  simp

@[simp] theorem State.schClear_vault (s : State) :
    (State.schClear s).vault = s.vault := by
  unfold State.schClear
  simp

@[simp] theorem State.schCtrlWrite_vault (s : State) (v : Word) :
    (State.schCtrlWrite s v).vault = s.vault := by
  unfold State.schCtrlWrite
  simp

end Sys2Proof.Machine
end

