-- ==== Sys2Proof/Laws/KeepBatons.lean ====
section
/-!
SUPPORT. What each operation of Machine/Batons.lean leaves alone: the vault.
-/
namespace Sys2Proof.Machine


@[simp] theorem State.setChan_vault (s : State) (k : Nat) (x : Chan) :
    (State.setChan s k x).vault = s.vault := by
  unfold State.setChan
  simp

@[simp] theorem State.wakeWaits_vault (s : State) (k : Nat) :
    (State.wakeWaits s k).vault = s.vault := by
  unfold State.wakeWaits
  simp

@[simp] theorem State.takeUser_vault (s : State) (b : Baton) :
    (State.takeUser s b).vault = s.vault := by
  unfold State.takeUser
  simp

@[simp] theorem State.releaseHurdle_vault (s : State) (h : Nat) :
    (State.releaseHurdle s h).vault = s.vault := by
  unfold State.releaseHurdle
  simp

@[simp] theorem State.rootCheck_vault (s : State) (h : Nat) :
    (State.rootCheck s h).vault = s.vault := by
  unfold State.rootCheck
  simp

@[simp] theorem State.openHurdle_vault (s : State) (h : Nat) :
    (State.openHurdle s h).vault = s.vault := by
  unfold State.openHurdle
  simp

@[simp] theorem State.takeArrive_vault (s : State) (b : Baton) :
    (State.takeArrive s b).vault = s.vault := by
  unfold State.takeArrive
  simp

@[simp] theorem State.takeRelease_vault (s : State) (b : Baton) :
    (State.takeRelease s b).vault = s.vault := by
  unfold State.takeRelease
  simp

@[simp] theorem State.act_vault (s : State) (b : Baton) :
    (State.act s b).vault = s.vault := by
  unfold State.act
  repeat' split
  all_goals simp

@[simp] theorem State.settleBaton_vault (s : State) (b : Baton) :
    (State.settleBaton s b).vault = s.vault := by
  unfold State.settleBaton
  dsimp only
  repeat' split
  all_goals simp [vault_fold]

@[simp] theorem State.unhold_vault (s : State) (h : HeldBaton) :
    (State.unhold s h).vault = s.vault := by
  unfold State.unhold
  simp

@[simp] theorem State.drainAhead_vault (s : State) (src : Nat) (x2 : Nat) :
    (State.drainAhead s src x2).vault = s.vault := by
  induction x2 generalizing s with
  | zero => rfl
  | succ n ih =>
    unfold State.drainAhead
    dsimp only
    repeat' split
    all_goals simp [ih]

@[simp] theorem State.takeHeld_vault (s : State) (x1 : Nat) :
    (State.takeHeld s x1).vault = s.vault := by
  induction x1 generalizing s with
  | zero => rfl
  | succ n ih =>
    unfold State.takeHeld
    split <;> simp [ih]

@[simp] theorem State.acceptBaton_vault (s : State) (b : Baton) :
    (State.acceptBaton s b).vault = s.vault := by
  unfold State.acceptBaton
  simp

@[simp] theorem State.receiveBaton_vault (s : State) (b : Baton) :
    (State.receiveBaton s b).vault = s.vault := by
  unfold State.receiveBaton
  simp

@[simp] theorem State.batonRow_vault (s : State) (type : Nat) (b : Baton) :
    (State.batonRow s type b).vault = s.vault := by
  unfold State.batonRow
  simp

@[simp] theorem State.handBaton_vault (s : State) (b : Baton) :
    (State.handBaton s b).vault = s.vault := by
  unfold State.handBaton
  simp

@[simp] theorem State.epochDue_vault_2 (s : State) :
    (State.epochDue s).2.vault = s.vault := by
  unfold State.epochDue
  simp

@[simp] theorem batonSendKind_keeps : batonSendKind.keeps := fun _ _ _ _ => by
  simp only [batonSendKind]
  try split
  all_goals simp

@[simp] theorem batonWaitKind_keeps : batonWaitKind.keeps := fun _ _ _ _ => by
  simp only [batonWaitKind]
  try split
  all_goals simp

end Sys2Proof.Machine
end

