-- ==== Sys2Proof/Laws/KeepCmds.lean ====
section
/-!
SUPPORT. What each operation of Machine/Cmds.lean leaves alone: the vault.
-/
namespace Sys2Proof.Machine


@[simp] theorem State.subqBaseWrite_vault (s : State) (r : Requester) (k : Nat) (i : Nat) (v : Word) :
    (State.subqBaseWrite s r k i v).vault = s.vault := by
  unfold State.subqBaseWrite
  simp

@[simp] theorem State.subqCfgWrite_vault (s : State) (r : Requester) (k : Nat) (v : Word) :
    (State.subqCfgWrite s r k v).vault = s.vault := by
  unfold State.subqCfgWrite
  simp [vault_fold]

@[simp] theorem State.flmCmdWrite_vault (s : State) (v : Word) :
    (State.flmCmdWrite s v).vault = s.vault := by
  unfold State.flmCmdWrite
  simp [vault_fold]

@[simp] theorem State.coreWrite_vault (s : State) (n : Nat) (off : Nat) (v : Word) :
    (State.coreWrite s n off v).vault = s.vault := by
  unfold State.coreWrite
  simp

@[simp] theorem State.schSlotWrite_vault (s : State) (off : Nat) (v : Word) :
    (State.schSlotWrite s off v).vault = s.vault := by
  unfold State.schSlotWrite
  simp

@[simp] theorem State.epochWrite_vault (s : State) (off : Nat) (v : Word) :
    (State.epochWrite s off v).vault = s.vault := by
  unfold State.epochWrite
  simp

end Sys2Proof.Machine
end

