-- ==== Sys2Proof/Laws/KeepMedia.lean ====
section
/-!
SUPPORT. What each operation of Machine/Media.lean leaves alone: the vault.
-/
namespace Sys2Proof.Machine


@[simp] theorem State.onInput_vault (s : State) (f : Input → Input) :
    (State.onInput s f).vault = s.vault := by
  unfold State.onInput
  simp [vault_fold]

@[simp] theorem State.spanPut_vault (s : State) (ctx : Nat) (a : Nat) (bs : List Byte) :
    (State.spanPut s ctx a bs).vault = s.vault := by
  unfold State.spanPut
  repeat' split
  all_goals simp [vault_fold]

@[simp] theorem State.writeTensor_vault_1 (s : State) (ctx : Nat) (t : Tensor) (w : Writer) (cells : List ((Nat × Nat × Nat) × Val)) :
    (State.writeTensor s ctx t w cells).1.vault = s.vault := by
  unfold State.writeTensor
  simp

@[simp] theorem State.signalMask_vault (s : State) (sender : Nat) (ctr : Nat) (mask : Nat) :
    (State.signalMask s sender ctr mask).vault = s.vault := by
  unfold State.signalMask
  simp [vault_fold]

@[simp] theorem State.jobFault_vault (s : State) (p : Nat) (e : Nat) (pos : Nat) (ctx : Option Nat) (f : FaultAt) :
    (State.jobFault s p e pos ctx f).vault = s.vault := by
  unfold State.jobFault
  repeat' split
  all_goals simp [vault_fold]

@[simp] theorem State.mdeTake_vault (s : State) (d : MdeRec) (c : Nat) :
    (State.mdeTake s d c).vault = s.vault := by
  unfold State.mdeTake
  repeat' split
  all_goals simp

@[simp] theorem State.mdePushAt_vault (s : State) (a : Nat) :
    (State.mdePushAt s a).vault = s.vault := by
  unfold State.mdePushAt
  split
  · exact State.errSet_vault _ _ _
  · split
    · exact State.jobFault_vault _ _ _ _ _ _
    · exact State.mdeTake_vault _ _ _

@[simp] theorem State.mdePush_vault (s : State) (v : Word) :
    (State.mdePush s v).vault = s.vault := by
  unfold State.mdePush
  simp

@[simp] theorem State.writeLog_vault (s : State) (log : Nat) (logn : Nat) (e : Nat) :
    (State.writeLog s log logn e).vault = s.vault := by
  unfold State.writeLog
  simp

@[simp] theorem State.onMdeJob_vault (s : State) (n : Nat) (f : MdeJob → MdeJob) :
    (State.onMdeJob s n f).vault = s.vault := by
  unfold State.onMdeJob
  simp

@[simp] theorem State.rejectAttempt_vault (s : State) (j : MdeJob) (t : Attempt) (reason : Nat) :
    (State.rejectAttempt s j t reason).vault = s.vault := by
  unfold State.rejectAttempt
  simp [vault_fold]

@[simp] theorem State.decodeIn_vault (s : State) (pipe : Nat) (j : MdeJob) (pos : Nat) (h : MediaHeader) (t : Attempt) (x : Target) (n : Nat) :
    (State.decodeIn s pipe j pos h t x n).vault = s.vault := by
  unfold State.decodeIn
  repeat' split
  all_goals simp

@[simp] theorem State.decodeAttempt_vault (s : State) (pipe : Nat) (j : MdeJob) (pos : Nat) (h : MediaHeader) (t : Attempt) (x : Target) (n : Nat) :
    (State.decodeAttempt s pipe j pos h t x n).vault = s.vault := by
  unfold State.decodeAttempt
  simp

@[simp] theorem State.decodeStart_vault (s : State) (pipe : Nat) (j0 : MdeJob) (pos : Nat) (h : MediaHeader) :
    (State.decodeStart s pipe j0 pos h).vault = s.vault := by
  unfold State.decodeStart
  dsimp only
  repeat' split
  all_goals simp [vault_fold]

@[simp] theorem State.writeSample_vault (s : State) (j : MdeJob) (pos : Nat) (f : Nat × Nat × Nat × Nat → Val × Tally) :
    (State.writeSample s j pos f).vault = s.vault := by
  unfold State.writeSample
  simp

@[simp] theorem State.takeMean_vault (s : State) (ctx : Nat) (k : Nat) (t : Nat) :
    (State.takeMean s ctx k t).vault = s.vault := by
  unfold State.takeMean
  simp

@[simp] theorem State.freePipe_vault (s : State) (n : Nat) :
    (State.freePipe s n).vault = s.vault := by
  unfold State.freePipe
  simp

@[simp] theorem State.decodeDone_vault (s : State) (n : Nat) (p : MdePipe) (j : MdeJob) (t : Attempt) (ok : Bool) (px : List Byte) :
    (State.decodeDone s n p j t ok px).vault = s.vault := by
  unfold State.decodeDone
  simp [vault_fold]

@[simp] theorem State.mdeComplete_vault (s : State) (j : MdeJob) :
    (State.mdeComplete s j).vault = s.vault := by
  unfold State.mdeComplete
  simp

@[simp] theorem State.commitPos_vault (s : State) (j : MdeJob) (t : Attempt) :
    (State.commitPos s j t).vault = s.vault := by
  unfold State.commitPos
  simp

@[simp] theorem State.takeReserve_vault_2 (s : State) (p : Nat) (ctx : Nat) (n : Nat) :
    (State.takeReserve s p ctx n).2.vault = s.vault := by
  unfold State.takeReserve
  simp

@[simp] theorem State.replayCursor_vault (s : State) (p : Nat) (ctx : Nat) (replay : Bool) (t : Attempt) :
    (State.replayCursor s p ctx replay t).vault = s.vault := by
  unfold State.replayCursor
  simp

@[simp] theorem State.mdeCommit_vault (s : State) (j : MdeJob) :
    (State.mdeCommit s j).vault = s.vault := by
  unfold State.mdeCommit
  simp

@[simp] theorem State.stageWrite_vault (s : State) (sau : Bool) (v : Word) :
    (State.stageWrite s sau v).vault = s.vault := by
  unfold State.stageWrite
  simp

@[simp] theorem State.sauTake_vault (s : State) (d : SauRec) (c : Nat) :
    (State.sauTake s d c).vault = s.vault := by
  unfold State.sauTake
  repeat' split
  all_goals simp

@[simp] theorem State.sauPushAt_vault (s : State) (a : Nat) :
    (State.sauPushAt s a).vault = s.vault := by
  unfold State.sauPushAt
  split
  · exact State.errSet_vault _ _ _
  · split
    · exact State.jobFault_vault _ _ _ _ _ _
    · exact State.sauTake_vault _ _ _

@[simp] theorem State.sauPush_vault (s : State) (v : Word) :
    (State.sauPush s v).vault = s.vault := by
  unfold State.sauPush
  simp

@[simp] theorem State.writeStrm_vault (s : State) (ctx : Nat) (d : SauRec) (x : Strm) (pts : Option (List (List (Option (Val × Tally))))) :
    (State.writeStrm s ctx d x pts).vault = s.vault := by
  unfold State.writeStrm
  simp

@[simp] theorem State.chargeWindow_vault (s : State) (w : Nat × Nat) :
    (State.chargeWindow s w).vault = s.vault := by
  unfold State.chargeWindow
  repeat' split
  all_goals simp

@[simp] theorem State.writeAligned_vault (s : State) (ctx : Nat) (d : SauRec) (t0 : ℤ) :
    (State.writeAligned s ctx d t0).vault = s.vault := by
  unfold State.writeAligned
  refine vault_foldl _ (fun t x => ?_) _ _
  rw [State.writeStrm_vault, State.chargeWindow_vault]

@[simp] theorem State.countNonmono_vault (s : State) (d : SauRec) :
    (State.countNonmono s d).vault = s.vault := by
  unfold State.countNonmono
  simp

@[simp] theorem State.alignTries_vault_1 (j : SauJob) (x1 : Nat) (x2 : State) (x3 : Attempt) :
    (State.alignTries j x1 x2 x3).1.vault = x2.vault := by
  induction x1 generalizing x2 x3 with
  | zero => rfl
  | succ n ih =>
    unfold State.alignTries
    dsimp only
    repeat' split
    all_goals simp [ih]

@[simp] theorem State.askArrays_vault (s : State) (j : SauJob) :
    (State.askArrays s j).vault = s.vault := by
  unfold State.askArrays
  simp

@[simp] theorem State.commitAlign_vault (s : State) (j : SauJob) (t : Attempt) :
    (State.commitAlign s j t).vault = s.vault := by
  unfold State.commitAlign
  simp [vault_fold]

@[simp] theorem State.sauAlign_vault (s : State) (j : SauJob) :
    (State.sauAlign s j).vault = s.vault := by
  unfold State.sauAlign
  simp

@[simp] theorem State.inputEnd_vault (s : State) (ctx : Nat) :
    (State.inputEnd s ctx).vault = s.vault := by
  unfold State.inputEnd
  simp [vault_fold]

end Sys2Proof.Machine
end

