-- ==== Sys2Proof/Laws/KeepModule.lean ====
section
/-!
SUPPORT. What each operation of Machine/Module.lean leaves alone: the vault.
-/
namespace Sys2Proof.Machine


@[simp] theorem State.leaveReset_vault (s : State) (group : BitVec 5) (slot : BitVec 6) (anchor : Bool) :
    (State.leaveReset s group slot anchor).vault = s.vault := by
  unfold State.leaveReset
  simp [vault_fold]

@[simp] theorem State.moduleEvent_vault (s : State) :
    (State.moduleEvent s).vault = s.vault := by
  unfold State.moduleEvent
  simp

@[simp] theorem State.frostWrite_vault (s : State) (v : Word) :
    (State.frostWrite s v).vault = s.vault := by
  unfold State.frostWrite
  simp [vault_fold]

@[simp] theorem State.gpxWrite_vault (s : State) (r : Requester) (k : Nat) (v : Word) :
    (State.gpxWrite s r k v).vault = s.vault := by
  unfold State.gpxWrite
  simp

@[simp] theorem State.setPin_vault (s : State) (k : Nat) (b : Bool) :
    (State.setPin s k b).vault = s.vault := by
  unfold State.setPin
  simp [vault_fold]

end Sys2Proof.Machine
end

