-- ==== Sys2Proof/Laws/KeepPorts.lean ====
section
/-!
SUPPORT. What each operation of Machine/Ports.lean leaves alone: the vault.
-/
namespace Sys2Proof.Machine


@[simp] theorem State.train_vault (s : State) (p : Nat) (retrain : Bool) :
    (State.train s p retrain).vault = s.vault := by
  unfold State.train
  simp

@[simp] theorem State.portDown_vault (s : State) (p : Nat) :
    (State.portDown s p).vault = s.vault := by
  unfold State.portDown
  simp

@[simp] theorem State.retrain_vault (s : State) (p : Nat) (count : Bool) :
    (State.retrain s p count).vault = s.vault := by
  unfold State.retrain
  simp

@[simp] theorem State.takeAckOf_vault (s : State) (p : Nat) (ack : Nat) :
    (State.takeAckOf s p ack).vault = s.vault := by
  unfold State.takeAckOf
  simp

@[simp] theorem State.replay_vault (s : State) (p : Nat) :
    (State.replay s p).vault = s.vault := by
  unfold State.replay
  simp [vault_fold]

@[simp] theorem State.takeNack_vault (s : State) (p : Nat) :
    (State.takeNack s p).vault = s.vault := by
  unfold State.takeNack
  simp

@[simp] theorem State.sendNow_vault (s : State) (p : Nat) (k : Packet) :
    (State.sendNow s p k).vault = s.vault := by
  unfold State.sendNow
  simp [vault_fold]

@[simp] theorem State.grantAll_vault (s : State) (p : Nat) :
    (State.grantAll s p).vault = s.vault := by
  unfold State.grantAll
  simp

@[simp] theorem State.returnCredit_vault (s : State) (p : Nat) :
    (State.returnCredit s p).vault = s.vault := by
  unfold State.returnCredit
  dsimp only
  repeat' split
  all_goals simp [vault_fold]

@[simp] theorem State.dropLane_vault (s : State) (p : Nat) (lane : Nat) (tell : Bool) :
    (State.dropLane s p lane tell).vault = s.vault := by
  unfold State.dropLane
  simp

@[simp] theorem State.flCfgWrite_vault (s : State) (p : Nat) (v : Word) :
    (State.flCfgWrite s p v).vault = s.vault := by
  unfold State.flCfgWrite
  simp

@[simp] theorem State.routeCtrlWrite_vault (s : State) (v : Word) :
    (State.routeCtrlWrite s v).vault = s.vault := by
  unfold State.routeCtrlWrite
  simp

@[simp] theorem State.routeWrite_vault (s : State) (off : Nat) (v : Word) :
    (State.routeWrite s off v).vault = s.vault := by
  unfold State.routeWrite
  simp

end Sys2Proof.Machine
end

