-- ==== Sys2Proof/Laws/KeepRegBus.lean ====
section
/-!
SUPPORT. What each operation of Machine/RegBus.lean leaves alone: the vault.
-/
namespace Sys2Proof.Machine


@[simp] theorem State.latchRead_vault_2 (s : State) (r : Requester) (i : Nat) (hi : Bool) :
    (State.latchRead s r i hi).2.vault = s.vault := by
  unfold State.latchRead
  simp [vault_fold]

@[simp] theorem State.clearReg_vault (s : State) (p : Nat) (off : Nat) :
    (State.clearReg s p off).vault = s.vault := by
  unfold State.clearReg
  simp

@[simp] theorem State.takeRead_vault_2 (s : State) (r : Requester) (p : Nat) (off : Nat) (row : RegRow) :
    (State.takeRead s r p off row).2.vault = s.vault := by
  unfold State.takeRead
  repeat' split
  all_goals simp

@[simp] theorem State.readReg_vault_2 (s : State) (r : Requester) (p : Nat) (off : Nat) :
    (State.readReg s r p off).2.vault = s.vault := by
  unfold State.readReg
  repeat' split
  all_goals simp

@[simp] theorem State.plainWrite_vault (s : State) (p : Nat) (off : Nat) (v : Word) (m : Nat) :
    (State.plainWrite s p off v m).vault = s.vault := by
  unfold State.plainWrite
  simp

@[simp] theorem State.leaveService_vault (s : State) :
    (State.leaveService s).vault = s.vault := by
  unfold State.leaveService
  simp [vault_fold]

@[simp] theorem State.bootWrite_vault (s : State) (v : Word) :
    (State.bootWrite s v).vault = s.vault := by
  unfold State.bootWrite
  simp

@[simp] theorem State.idWrite_vault (s : State) (v : Word) :
    (State.idWrite s v).vault = s.vault := by
  unfold State.idWrite
  simp [vault_fold]

@[simp] theorem State.mapWrite_vault (s : State) (k : Nat) (v : Word) :
    (State.mapWrite s k v).vault = s.vault := by
  unfold State.mapWrite
  simp [vault_fold]

@[simp] theorem State.msixWrite_vault (s : State) (off : Nat) (v : Word) :
    (State.msixWrite s off v).vault = s.vault := by
  unfold State.msixWrite
  simp

@[simp] theorem State.evhWrite_vault (s : State) (r : Requester) (p : Nat) (off : Nat) (v : Word) :
    (State.evhWrite s r p off v).vault = s.vault := by
  unfold State.evhWrite
  simp

@[simp] theorem State.cmdWrite_vault (s : State) (r : Requester) (p : Nat) (off : Nat) (v : Word) (hp : p ≠ pgTrb) :
    (State.cmdWrite s r p off v).vault = s.vault := by
  unfold State.cmdWrite
  simp [hp]

@[simp] theorem State.rwWrite_vault (s : State) (r : Requester) (p : Nat) (off : Nat) (v : Word) (m : Nat) :
    (State.rwWrite s r p off v m).vault = s.vault := by
  unfold State.rwWrite
  simp

@[simp] theorem State.takeWrite_vault (s : State) (r : Requester) (p : Nat) (off : Nat) (v : Word) (hp : p ≠ pgTrb) :
    (State.takeWrite s r p off v).vault = s.vault := by
  unfold State.takeWrite
  repeat' split
  all_goals simp [hp]

@[simp] theorem State.answerRead_vault (s : State) (r : Requester) (p : Nat) (off : Nat) :
    (State.answerRead s r p off).vault = s.vault := by
  unfold State.answerRead
  simp

end Sys2Proof.Machine
end

