-- ==== Sys2Proof/Laws/KeepRuns.lean ====
section
/-!
SUPPORT. What each operation of Machine/Runs.lean leaves alone: the vault.
-/
namespace Sys2Proof.Machine


@[simp] theorem State.consume_vault (s : State) (k : Nat) :
    (State.consume s k).vault = s.vault := by
  unfold State.consume
  simp

@[simp] theorem State.putStatus_vault (s : State) (addr : Nat) (status : Nat) (detail : Nat) (ctx : Nat) (device : Nat) (aux : Nat) (lcore : Nat) (lindex : Nat) :
    (State.putStatus s addr status detail ctx device aux lcore lindex).vault = s.vault := by
  unfold State.putStatus
  simp

@[simp] theorem State.refuse_vault (s : State) (addr : Nat) (status : Nat) (item : Option Nat) :
    (State.refuse s addr status item).vault = s.vault := by
  unfold State.refuse
  simp

@[simp] theorem State.giveRange_vault (s : State) (x : ClaimItem) :
    (State.giveRange s x).vault = s.vault := by
  unfold State.giveRange
  simp [vault_fold]

@[simp] theorem State.pinPages_vault (s : State) (ctx : Nat) (ks : List Nat) :
    (State.pinPages s ctx ks).vault = s.vault := by
  unfold State.pinPages
  simp [vault_fold]

@[simp] theorem State.setItem_vault (s : State) (ctx : Nat) (x : ClaimItem) :
    (State.setItem s ctx x).vault = s.vault := by
  unfold State.setItem
  repeat' split
  all_goals simp

@[simp] theorem State.writePair_vault (s : State) (ctx : Nat) (c : Claims) (p : Nat × Nat × Nat) :
    (State.writePair s ctx c p).vault = s.vault := by
  unfold State.writePair
  extract_lets v w
  have hw : ∀ off u, 0x40 ≤ p.1 → (w off u).vault = s.vault := fun off u h =>
    State.takeWrite_vault _ _ _ _ _ (by unfold pgTrb; omega)
  split
  · rfl
  · rename_i h
    have h2 : 0x40 ≤ p.1 := by omega
    repeat' split
    all_goals first | rfl | exact hw _ _ h2

@[simp] theorem State.writePairs_vault (s : State) (ctx : Nat) (c : Claims) (ps : List (Nat × Nat × Nat)) (lap : Option Nat) :
    (State.writePairs s ctx c ps lap).vault = s.vault := by
  unfold State.writePairs
  dsimp only
  repeat' split
  all_goals simp [vault_fold]

@[simp] theorem State.markRefused_vault (s : State) (t : State) (u : Nat) :
    (State.markRefused s t u).vault = s.vault := by
  unfold State.markRefused
  repeat' split
  all_goals simp

@[simp] theorem State.startLaunch_vault (s : State) (l : Launch) :
    (State.startLaunch s l).vault = s.vault := by
  unfold State.startLaunch
  simp

@[simp] theorem State.setUpRun_vault (s : State) (ctx : Nat) (r : Run) (h : Header) (xs : List ClaimItem) :
    (State.setUpRun s ctx r h xs).vault = s.vault := by
  unfold State.setUpRun
  simp [vault_fold]

@[simp] theorem State.powerPages_vault (s : State) (off : List Nat) :
    (State.powerPages s off).vault = s.vault := by
  unfold State.powerPages
  simp

@[simp] theorem State.onRun_vault (s : State) (ctx : Nat) (f : Run → Run) :
    (State.onRun s ctx f).vault = s.vault := by
  unfold State.onRun
  repeat' split
  all_goals simp [vault_fold]

@[simp] theorem State.pollPart_vault (s : State) (ctx : Nat) (dev : Nat) (seq : Nat) :
    (State.pollPart s ctx dev seq).vault = s.vault := by
  unfold State.pollPart
  simp

@[simp] theorem State.writePart_vault (s : State) (ctx : Nat) (dev : Nat) (seq : Nat) (entry : List Byte) :
    (State.writePart s ctx dev seq entry).vault = s.vault := by
  unfold State.writePart
  simp

@[simp] theorem State.takeSeq_vault_2 (s : State) (dev : Nat) :
    (State.takeSeq s dev).2.vault = s.vault := by
  unfold State.takeSeq
  simp [vault_fold]

@[simp] theorem State.sendPart_vault (s : State) (ctx : Nat) (dev : Nat) (entry : List Byte) :
    (State.sendPart s ctx dev entry).vault = s.vault := by
  unfold State.sendPart
  simp

@[simp] theorem State.endPart_vault (s : State) (ctx : Nat) (kind : Nat) (list : Nat) (p : RunPart) :
    (State.endPart s ctx kind list p).vault = s.vault := by
  unfold State.endPart
  exact (State.writePart_vault _ _ _ _ _).trans (State.takeSeq_vault_2 _ _)

@[simp] theorem State.extendMeas_vault (s : State) (m : Nat) (d : List Byte) :
    (State.extendMeas s m d).vault = s.vault := by
  unfold State.extendMeas
  simp

@[simp] theorem State.acceptRun_vault (s : State) (ctx : Nat) (ls : List Launch) :
    (State.acceptRun s ctx ls).vault = s.vault := by
  unfold State.acceptRun
  repeat' split
  all_goals simp

@[simp] theorem State.lapseGrants_vault (s : State) (owner : Nat) :
    (State.lapseGrants s owner).vault = s.vault := by
  unfold State.lapseGrants
  simp

@[simp] theorem State.undoRun_vault (s : State) (ctx : Nat) :
    (State.undoRun s ctx).vault = s.vault := by
  unfold State.undoRun
  simp [vault_fold]

@[simp] theorem State.groupSettle_vault (s : State) (ctx : Nat) (ls : List Launch) :
    (State.groupSettle s ctx ls).vault = s.vault := by
  unfold State.groupSettle
  dsimp only
  repeat' split
  all_goals simp [vault_fold]

@[simp] theorem State.startLocal_vault (s : State) (ctx : Nat) (ls : List Launch) :
    (State.startLocal s ctx ls).vault = s.vault := by
  unfold State.startLocal
  simp

@[simp] theorem State.startGroup_vault (s : State) (ctx : Nat) (ls : List Launch) (xs : List ClaimItem) (ds : List (Nat × Nat × Nat)) :
    (State.startGroup s ctx ls xs ds).vault = s.vault := by
  unfold State.startGroup
  simp

theorem Checked.refuse_state (a : Nat) (i : Option Nat) (s : State) : (Checked.refuse a i s).state = s := rfl

theorem State.startRun_vault (s : State) (ctx k addr : Nat) (h : Header) (xs : List ClaimItem) (c0 : Claims) :
    (s.startRun ctx k addr h xs c0).state.vault = s.vault := by
  unfold State.startRun
  split
  · rfl
  · extract_lets off
    split
    · exact State.powerPages_vault _ _
    · unfold State.checkedRun
      split
      · exact State.markRefused_vault _ _ _
      · exact State.setUpRun_vault _ _ _ _ _

theorem State.checkRun_vault (s : State) (want : Option Nat) (k addr : Nat) (h : Header) (xs : List ClaimItem) :
    (s.checkRun want k addr h xs).state.vault = s.vault := by
  unfold State.checkRun
  extract_lets c0
  repeat' split
  all_goals first | rw [Checked.refuse_state] | rw [State.startRun_vault]

@[simp] theorem State.afterCheck_vault (s : State) (k : Nat) (addr : Nat) (isGroup : Bool) (ls : List Launch) (xs : List ClaimItem) (ds : List (Nat × Nat × Nat)) (x7 : Checked) (hc : x7.state.vault = s.vault) :
    (State.afterCheck s k addr isGroup ls xs ds x7).vault = s.vault := by
  cases x7
  · rw [State.afterCheck, State.refuse_vault]
    exact hc
  · rw [State.afterCheck, State.setReg_vault]
    exact hc
  · rw [State.afterCheck]
    split
    · rw [State.startLocal_vault]
      exact hc
    · split
      · rw [State.refuse_vault, State.consume_vault]
      · rw [State.startGroup_vault]
        exact hc

@[simp] theorem State.runEntry_vault (s : State) (k : Nat) (h : Header) :
    (State.runEntry s k h).vault = s.vault := by
  unfold State.runEntry
  extract_lets addr xs all
  split
  · rw [State.refuse_vault, State.consume_vault]
  · exact State.afterCheck_vault _ _ _ _ _ _ _ _ ((State.checkRun_vault _ _ _ _ _ _).trans (State.consume_vault _ _))

@[simp] theorem State.partAnswer_vault (s : State) (ctx : Nat) (dev : Nat) (w : Nat) :
    (State.partAnswer s ctx dev w).vault = s.vault := by
  unfold State.partAnswer
  simp

@[simp] theorem State.openAdd_vault (s : State) (e : OpenEntry) :
    (State.openAdd s e).vault = s.vault := by
  unfold State.openAdd
  simp [vault_fold]

@[simp] theorem State.closeSteps_vault (s : State) :
    (State.closeSteps s).vault = s.vault := by
  unfold State.closeSteps
  simp [vault_fold]

@[simp] theorem State.stepEntry_vault (s : State) (k : Nat) (h : Header) :
    (State.stepEntry s k h).vault = s.vault := by
  unfold State.stepEntry
  dsimp only
  repeat' split
  all_goals simp [vault_fold]

@[simp] theorem State.abandonAll_vault (s : State) (ctx : Nat) :
    (State.abandonAll s ctx).vault = s.vault := by
  unfold State.abandonAll
  simp

@[simp] theorem State.endRunWith_vault (s : State) (ctx : Nat) (status : Nat) (detail : Nat) (device : Nat) (lcore : Nat) (lindex : Nat) :
    (State.endRunWith s ctx status detail device lcore lindex).vault = s.vault := by
  unfold State.endRunWith
  repeat' split
  all_goals simp

@[simp] theorem State.endEntry_vault (s : State) (k : Nat) (h : Header) :
    (State.endEntry s k h).vault = s.vault := by
  unfold State.endEntry
  repeat' split
  all_goals simp

@[simp] theorem State.closeEntries_vault (s : State) (ctx : Nat) (r : Run) :
    (State.closeEntries s ctx r).vault = s.vault := by
  unfold State.closeEntries
  simp [vault_fold]

@[simp] theorem State.finishRun_vault (s : State) (ctx : Nat) (r : Run) :
    (State.finishRun s ctx r).vault = s.vault := by
  unfold State.finishRun
  simp [vault_fold]

@[simp] theorem State.pacerLeave_vault (s : State) (r : Run) :
    (State.pacerLeave s r).vault = s.vault := by
  unfold State.pacerLeave
  simp

@[simp] theorem State.endOrWait_vault (s : State) (ctx : Nat) (r : Run) :
    (State.endOrWait s ctx r).vault = s.vault := by
  unfold State.endOrWait
  simp

end Sys2Proof.Machine
end

