-- ==== Sys2Proof/Laws/KeepSources.lean ====
section
/-!
SUPPORT. What each operation of Machine/Sources.lean leaves alone: the vault.
-/
namespace Sys2Proof.Machine


@[simp] theorem State.nameSource_vault (s : State) (g : Nat) (n : Nat) :
    (State.nameSource s g n).vault = s.vault := by
  unfold State.nameSource
  dsimp only
  repeat' split
  all_goals simp [vault_fold]

@[simp] theorem State.answerRepairs_vault (s : State) :
    (State.answerRepairs s).vault = s.vault := by
  unfold State.answerRepairs
  simp

@[simp] theorem State.dropClient_vault (s : State) (p : Client → Bool) :
    (State.dropClient s p).vault = s.vault := by
  unfold State.dropClient
  simp [vault_fold]

@[simp] theorem State.rewriteBlock_vault (s : State) (k : Nat) (xs : List (Nat × List Byte)) :
    (State.rewriteBlock s k xs).vault = s.vault := by
  unfold State.rewriteBlock
  simp

@[simp] theorem State.settleRecord_vault (s : State) (b : Nat) (c : Nat) :
    (State.settleRecord s b c).vault = s.vault := by
  unfold State.settleRecord
  simp

@[simp] theorem State.mendFrom_vault (s : State) (b : Nat) (ts : List Txn) :
    (State.mendFrom s b ts).vault = s.vault := by
  unfold State.mendFrom
  simp

@[simp] theorem State.mendBucket_vault (s : State) (b : Nat) :
    (State.mendBucket s b).vault = s.vault := by
  unfold State.mendBucket
  dsimp only
  repeat' split
  all_goals simp [vault_fold]

@[simp] theorem State.withdrawReplica_vault (s : State) (ctx : Nat) (of : Nat) :
    (State.withdrawReplica s ctx of).vault = s.vault := by
  unfold State.withdrawReplica
  repeat' split
  all_goals simp

end Sys2Proof.Machine
end

