-- ==== Sys2Proof/Laws/KeepRecovery.lean ====
section
/-!
SUPPORT. What each operation of Machine/Recovery.lean leaves alone: the vault.
-/
namespace Sys2Proof.Machine


@[simp] theorem State.giveUpLap_vault (s : State) (ctx : Nat) :
    (State.giveUpLap s ctx).vault = s.vault := by
  unfold State.giveUpLap
  simp

@[simp] theorem State.answerList_vault (s : State) (n : Nat) :
    (State.answerList s n).vault = s.vault := by
  unfold State.answerList
  dsimp only
  repeat' split
  all_goals simp [vault_fold]

@[simp] theorem State.endForUnit_vault (s : State) (ctx : Nat) (code : Option Nat) :
    (State.endForUnit s ctx code).vault = s.vault := by
  unfold State.endForUnit
  repeat' split
  all_goals simp

@[simp] theorem State.answerUnits_vault (s : State) :
    (State.answerUnits s).vault = s.vault := by
  unfold State.answerUnits
  simp [vault_fold]

@[simp] theorem State.kvRestored_vault (s : State) :
    (State.kvRestored s).vault = s.vault := by
  unfold State.kvRestored
  simp

@[simp] theorem State.writeBack_vault (s : State) (ctx : Nat) (r : Snapshot) :
    (State.writeBack s ctx r).vault = s.vault := by
  unfold State.writeBack
  simp [vault_fold]

@[simp] theorem State.unitsOff_vault (s : State) (c : Claims) :
    (State.unitsOff s c).vault = s.vault := by
  unfold State.unitsOff
  simp

@[simp] theorem State.kvdOnAgain_vault (s : State) (v : Word) :
    (State.kvdOnAgain s v).vault = s.vault := by
  unfold State.kvdOnAgain
  simp [vault_fold]

@[simp] theorem State.unitsOn_vault (s : State) (c : Claims) (r : Snapshot) :
    (State.unitsOn s c r).vault = s.vault := by
  unfold State.unitsOn
  simp

@[simp] theorem State.askBucket_vault (s : State) (p : Nat) (b : Nat) :
    (State.askBucket s p b).vault = s.vault := by
  unfold State.askBucket
  repeat' split
  all_goals simp

@[simp] theorem State.restoreBucket_vault (s : State) (p : Nat) (b : Nat) :
    (State.restoreBucket s p b).vault = s.vault := by
  unfold State.restoreBucket
  repeat' split
  all_goals simp

@[simp] theorem State.rebuildBucket_vault (s : State) (b : Nat) :
    (State.rebuildBucket s b).vault = s.vault := by
  unfold State.rebuildBucket
  simp

@[simp] theorem State.redraw_vault (s : State) (lost : Nat) (spare : Nat) :
    (State.redraw s lost spare).vault = s.vault := by
  unfold State.redraw
  simp

@[simp] theorem State.comparePlace_vault (s : State) (ctx : Nat) (r : Snapshot) :
    (State.comparePlace s ctx r).vault = s.vault := by
  unfold State.comparePlace
  simp

@[simp] theorem State.finishRestore_vault (s : State) (q : Restore) (p : Nat) (r : Snapshot) :
    (State.finishRestore s q p r).vault = s.vault := by
  unfold State.finishRestore
  dsimp only
  repeat' split
  all_goals simp [vault_fold]

@[simp] theorem State.choosePoint_vault_2 (s : State) (q : Restore) :
    (State.choosePoint s q).2.vault = s.vault := by
  unfold State.choosePoint
  simp

@[simp] theorem State.restoreOn_vault (s : State) (q : Restore) :
    (State.restoreOn s q).vault = s.vault := by
  unfold State.restoreOn
  repeat' split
  all_goals simp

@[simp] theorem State.closeFor_vault (s : State) (lost : Nat) :
    (State.closeFor s lost).vault = s.vault := by
  unfold State.closeFor
  simp

@[simp] theorem State.takeRole_vault (s : State) (d : Nat) (ctx : Nat) :
    (State.takeRole s d ctx).vault = s.vault := by
  unfold State.takeRole
  simp [vault_fold]

@[simp] theorem State.beginLoss_vault (s : State) (d : Nat) (ctx : Nat) (r : Run) :
    (State.beginLoss s d ctx r).vault = s.vault := by
  unfold State.beginLoss
  simp

end Sys2Proof.Machine
end

