-- ==== Sys2Proof/Laws/KeepPackets.lean ====
section
/-!
SUPPORT. What each operation of Machine/Packets.lean leaves alone: the vault.
-/
namespace Sys2Proof.Machine


@[simp] theorem State.owe_vault (s : State) (p : Nat) (i : Nat) (n : Nat) :
    (State.owe s p i n).vault = s.vault := by
  unfold State.owe
  simp

@[simp] theorem State.gainCredit_vault (s : State) (p : Nat) (i : Nat) (n : Nat) :
    (State.gainCredit s p i n).vault = s.vault := by
  unfold State.gainCredit
  simp

@[simp] theorem State.takeCredits_vault (s : State) (p : Nat) (k : Packet) :
    (State.takeCredits s p k).vault = s.vault := by
  unfold State.takeCredits
  simp

@[simp] theorem State.serveFar_vault (s : State) (k : Packet) (a : Nat) (n : Nat) (write : Option (List Byte)) :
    (State.serveFar s k a n write).vault = s.vault := by
  unfold State.serveFar
  repeat' split
  all_goals simp

@[simp] theorem State.serveWrite_vault (s : State) (k : Packet) (a : Nat) (bs : List Byte) :
    (State.serveWrite s k a bs).vault = s.vault := by
  unfold State.serveWrite
  simp

@[simp] theorem State.takeWriteData_vault (s : State) (k : Packet) (last : Bool) (packed : Bool) :
    (State.takeWriteData s k last packed).vault = s.vault := by
  unfold State.takeWriteData
  dsimp only
  repeat' split
  all_goals simp [vault_fold]

@[simp] theorem State.partEnded_vault (s : State) (t : Txn) (n : Nat) :
    (State.partEnded s t n).vault = s.vault := by
  unfold State.partEnded
  dsimp only
  repeat' split
  all_goals simp [vault_fold]

@[simp] theorem State.ended_vault (s : State) (tag : Nat) :
    (State.ended s tag).vault = s.vault := by
  unfold State.ended
  repeat' split
  all_goals simp

@[simp] theorem State.takeBytes_vault (s : State) (tag : Nat) (a : Nat) (bs : List Byte) :
    (State.takeBytes s tag a bs).vault = s.vault := by
  unfold State.takeBytes
  simp

@[simp] theorem State.takePacked_vault (s : State) (t : Txn) (a : Nat) (bs : List Byte) :
    (State.takePacked s t a bs).vault = s.vault := by
  unfold State.takePacked
  dsimp only
  repeat' split
  all_goals simp [vault_fold]

@[simp] theorem State.takeAckPacket_vault (s : State) (t : Txn) (status : Nat) :
    (State.takeAckPacket s t status).vault = s.vault := by
  unfold State.takeAckPacket
  simp

@[simp] theorem State.takeResponse_vault (s : State) (k : Packet) :
    (State.takeResponse s k).vault = s.vault := by
  unfold State.takeResponse
  repeat' split
  all_goals simp

@[simp] theorem State.stir_vault (s : State) (p : Nat) (k : Packet) :
    (State.stir s p k).vault = s.vault := by
  unfold State.stir
  simp

@[simp] theorem State.forward_vault (s : State) (p : Nat) (k : Packet) :
    (State.forward s p k).vault = s.vault := by
  unfold State.forward
  dsimp only
  repeat' split
  all_goals simp [vault_fold]

@[simp] theorem State.admitWaiting_vault (s : State) (x1 : Nat) :
    (State.admitWaiting s x1).vault = s.vault := by
  induction x1 generalizing s with
  | zero => rfl
  | succ n ih =>
    unfold State.admitWaiting
    dsimp only
    split <;> simp [ih]

@[simp] theorem State.countFec_vault (s : State) (p : Nat) (f : Frame) :
    (State.countFec s p f).vault = s.vault := by
  unfold State.countFec
  simp

@[simp] theorem State.regRequest_vault (s : State) (cl : Client) (dst : Nat) (a : Nat) (v : Option Word) :
    (State.regRequest s cl dst a v).vault = s.vault := by
  unfold State.regRequest
  simp [vault_fold]

@[simp] theorem State.hostRefuse_vault (s : State) (write : Bool) :
    (State.hostRefuse s write).vault = s.vault := by
  unfold State.hostRefuse
  simp

@[simp] theorem State.barAccess_vault (s : State) (off : Nat) (n : Nat) (write : Option (List Byte)) :
    (State.barAccess s off n write).vault = s.vault := by
  unfold State.barAccess
  dsimp only
  repeat' split
  all_goals simp [vault_fold]

end Sys2Proof.Machine
end

