-- ==== Sys2Proof/Laws/KeepStartup.lean ====
section
/-!
SUPPORT. What each operation of Machine/Startup.lean leaves alone: the vault.
-/
namespace Sys2Proof.Machine


@[simp] theorem State.flashWrite_vault (s : State) (a : Nat) (bs : List Byte) :
    (State.flashWrite s a bs).vault = s.vault := by
  unfold State.flashWrite
  simp [vault_fold]

@[simp] theorem State.selectSlot_vault (s : State) (comp : Nat) (b : Bool) :
    (State.selectSlot s comp b).vault = s.vault := by
  unfold State.selectSlot
  simp

@[simp] theorem State.stage_vault (s : State) (st : Nat) (cause : Nat) :
    (State.stage s st cause).vault = s.vault := by
  unfold State.stage
  simp

@[simp] theorem State.fuseMap_vault (s : State) (h : Nat) :
    (State.fuseMap s h).vault = s.vault := by
  unfold State.fuseMap
  refine vault_foldl _ (fun t x => ?_) _ _
  exact vault_fold t

@[simp] theorem State.siteEnables_vault (s : State) :
    (State.siteEnables s).vault = s.vault := by
  unfold State.siteEnables
  simp

@[simp] theorem State.lostAgain_vault (s : State) (x : Nat × Nat) :
    (State.lostAgain s x).vault = s.vault := by
  unfold State.lostAgain
  simp [vault_fold]

@[simp] theorem State.spareFlag_vault (s : State) (half : Nat) :
    (State.spareFlag s half).vault = s.vault := by
  unfold State.spareFlag
  simp

@[simp] theorem State.applyRetired_vault (s : State) :
    (State.applyRetired s).vault = s.vault := by
  unfold State.applyRetired
  simp [vault_fold]

@[simp] theorem State.trainFail_vault (s : State) (x : Fin 4 × Fin 9) :
    (State.trainFail s x).vault = s.vault := by
  unfold State.trainFail
  simp

@[simp] theorem State.readCal_vault (s : State) :
    (State.readCal s).vault = s.vault := by
  unfold State.readCal
  simp [vault_fold]

@[simp] theorem State.romMeasure_vault (s : State) :
    (State.romMeasure s).vault = s.vault := by
  unfold State.romMeasure
  dsimp only
  split <;> simp

@[simp] theorem State.firstBudgets_vault (s : State) :
    (State.firstBudgets s).vault = s.vault := by
  unfold State.firstBudgets
  simp

@[simp] theorem State.mgcBoot_vault (s : State) :
    (State.mgcBoot s).vault = s.vault := by
  unfold State.mgcBoot
  simp [vault_fold]

@[simp] theorem State.checkStart_vault (s : State) :
    (State.checkStart s).vault = s.vault := by
  unfold State.checkStart
  simp

@[simp] theorem State.drawRoutes_vault (s : State) (keep : Bool) (ids : List Nat) :
    (State.drawRoutes s keep ids).vault = s.vault := by
  unfold State.drawRoutes
  simp

@[simp] theorem State.tellCause_vault (s : State) (id : Nat) (cause : Nat) :
    (State.tellCause s id cause).vault = s.vault := by
  unfold State.tellCause
  simp

@[simp] theorem State.groupReady_vault (s : State) (n : Nat) :
    (State.groupReady s n).vault = s.vault := by
  unfold State.groupReady
  simp

end Sys2Proof.Machine
end

