-- ==== Sys2Proof/Laws/KeepMgc.lean ====
section
/-!
SUPPORT. What each operation of Machine/Mgc.lean leaves alone: the vault.
-/
namespace Sys2Proof.Machine


@[simp] theorem State.mgcServe_vault (s : State) (f : State → State) (h_f : ∀ a0, (f a0).vault = a0.vault) :
    (State.mgcServe s f).vault = s.vault := by
  unfold State.mgcServe
  simp [vault_fold, h_f]

@[simp] theorem State.mgmtOk_vault (s : State) (body : List Byte) :
    (State.mgmtOk s body).vault = s.vault := by
  unfold State.mgmtOk
  simp

@[simp] theorem State.mgmtErr_vault (s : State) (code : Nat) :
    (State.mgmtErr s code).vault = s.vault := by
  unfold State.mgmtErr
  simp

@[simp] theorem State.setUpdate_vault (s : State) (n : Nat) :
    (State.setUpdate s n).vault = s.vault := by
  unfold State.setUpdate
  simp [vault_fold]

@[simp] theorem State.applyStaged_vault (s : State) :
    (State.applyStaged s).vault = s.vault := by
  unfold State.applyStaged
  simp

@[simp] theorem State.pickApplied_vault (s : State) (c : Nat) :
    (State.pickApplied s c).vault = s.vault := by
  unfold State.pickApplied
  simp

@[simp] theorem State.vendor_vault (s : State) (f : State → State) (h_f : ∀ a0, (f a0).vault = a0.vault) :
    (State.vendor s f).vault = s.vault := by
  unfold State.vendor
  simp [vault_fold, h_f]

end Sys2Proof.Machine
end

