-- ==== Sys2Proof/Laws/KeepTick.lean ====
section
/-!
SUPPORT. What each operation of Machine/Tick.lean leaves alone: the vault.
-/
namespace Sys2Proof.Machine


@[simp] theorem State.tickCore_vault (s : State) (site : Nat) :
    (State.tickCore s site).vault = s.vault := by
  unfold State.tickCore
  simp

@[simp] theorem State.tickIdle_vault (s : State) (p : Nat) :
    (State.tickIdle s p).vault = s.vault := by
  unfold State.tickIdle
  simp [vault_fold]

@[simp] theorem State.tickPort_vault (s : State) (p : Nat) :
    (State.tickPort s p).vault = s.vault := by
  unfold State.tickPort
  simp

@[simp] theorem State.later_vault (s : State) :
    (State.later s).vault = s.vault := by
  unfold State.later
  simp [vault_fold]

@[simp] theorem State.tick_vault (s : State) :
    (State.tick s).vault = s.vault := by
  unfold State.tick
  simp

end Sys2Proof.Machine
end

