-- ==== Sys2Proof/Laws/KeepStep.lean ====
section
/-!
SUPPORT. What each operation of Machine/Step.lean leaves alone: the vault.
-/
namespace Sys2Proof.Machine


@[simp] theorem State.withFetchWord_vault (s : State) (nbits : Nat) (w : Nat) :
    (State.withFetchWord s nbits w).vault = s.vault := rfl

end Sys2Proof.Machine
end

