-- ==== Sys2Proof/Laws/Kept.lean ====
section
/-!
SUPPORT. What every operation leaves as it was or only lets grow: the queue's rest, the variant, the anti-rollback fuses
and the revoked key slots, and the bound on `SVN` and `F` (R496, R498).
-/
namespace Sys2Proof.Machine

/-- From `s` to `t` the queue, the variant and the running image stay, and the fuses stay or take one commit (R498). -/
structure Steady (s t : State) : Prop where
  pending : t.pending = s.pending
  variant : t.dev.variant = s.dev.variant
  svn : t.trb.svn = s.trb.svn
  fallback : t.trb.fallback = s.trb.fallback
  kslot : t.trb.kslot = s.trb.kslot
  revoke : t.trb.revoke = s.trb.revoke
  fuses : s.fusesTo t

theorem fusesTo_refl (s : State) : s.fusesTo s := .inl ⟨rfl, rfl⟩

theorem Steady.refl (s : State) : Steady s s := ⟨rfl, rfl, rfl, rfl, rfl, rfl, fusesTo_refl s⟩

theorem Steady.trans {s t u : State} (a : Steady s t) (b : Steady t u) : Steady s u := by
  refine ⟨b.pending.trans a.pending, b.variant.trans a.variant, b.svn.trans a.svn, b.fallback.trans a.fallback,
    b.kslot.trans a.kslot, b.revoke.trans a.revoke, ?_⟩
  have hs := a.svn
  rcases a.fuses with ⟨h1, h2⟩ | ⟨h1, h2, h3, h4, h5⟩
  · rcases b.fuses with ⟨g1, g2⟩ | ⟨g1, g2, g3, g4, g5⟩
    · exact .inl ⟨g1.trans h1, g2.trans h2⟩
    · rw [a.fallback] at g1; rw [hs, h1] at g2; rw [hs] at g3; rw [h2] at g4; rw [h2, a.revoke, a.kslot] at g5
      exact .inr ⟨g1, g2, g3, g4, g5⟩
  · rcases b.fuses with ⟨g1, g2⟩ | ⟨g1, g2, g3, g4, g5⟩
    · exact .inr ⟨h1, h2, g1.trans h3, by rw [g2]; exact h4, by rw [g2]; exact h5⟩
    · rw [hs, h3] at g2; exact absurd g2 (Nat.lt_irrefl _)

theorem Steady.of_vault {s t : State} (h : t.vault = s.vault) : Steady s t := by
  simp only [State.vault, Prod.mk.injEq] at h
  obtain ⟨h1, h2, h3, h4, h5, h6, h7, h8⟩ := h
  exact ⟨h1, h2, h5, h6, h7, h8, .inl ⟨h3, h4⟩⟩

theorem Steady.ite {s a b : State} {c : Prop} [Decidable c] (x : Steady s a) (y : Steady s b) : Steady s (if c then a else b) := by
  split <;> assumption

theorem Steady.foldl {α : Type} {f : State → α → State} (h : ∀ s a, Steady s (f s a)) (l : List α) (s : State) :
    Steady s (l.foldl f s) := by
  induction l generalizing s with
  | nil => exact .refl s
  | cons a l ih => exact (h s a).trans (ih _)

theorem State.svnCommit_steady (s : State) : Steady s s.svnCommit := by
  unfold State.svnCommit
  dsimp only
  split
  · exact .of_vault (by simp)
  · rename_i h
    simp only [Bool.or_eq_true, decide_eq_true_eq, not_or, not_le, Bool.not_eq_true] at h
    refine Steady.trans ?_ (.of_vault (State.raise_vault _ _ _))
    refine ⟨rfl, rfl, rfl, rfl, rfl, rfl, .inr ⟨h.1, h.2, rfl, fun k hk => ?_, fun k hk => ?_⟩⟩
    · exact List.mem_eraseDups.mpr (List.mem_append_left _ hk)
    · rcases List.mem_append.mp (List.mem_eraseDups.mp hk) with h | h
      · exact .inl h
      · simp only [List.mem_filter, List.mem_range, Bool.and_eq_true, bne_iff_ne] at h
        exact .inr ⟨h.1, h.2.1, h.2.2⟩

theorem State.onWrite_steady (s : State) (r : Requester) (p off : Nat) (f : State → State) (h : ∀ u, Steady u (f u)) :
    Steady s (s.onWrite r p off f) := by
  unfold State.onWrite
  dsimp only
  repeat' split
  all_goals first
    | exact .refl _
    | exact .of_vault (by simp)
    | exact (Steady.of_vault (by simp)).trans (h _)

theorem State.cmdWrite_steady (s : State) (r : Requester) (p off : Nat) (v : Word) : Steady s (s.cmdWrite r p off v) := by
  by_cases h : p = pgTrb
  · subst h
    unfold State.cmdWrite
    have e : (pgTrb = 0) = False := by decide
    have e1 : (pgTrb = 1) = False := by decide
    have e2 : (pgTrb = 2) = False := by decide
    have e4 : (pgTrb = 4) = False := by decide
    have e5 : (pgTrb = 5) = False := by decide
    have e6 : (pgTrb = 6) = False := by decide
    simp only [e, e1, e2, e4, e5, e6, if_false, decide_false, Bool.or_false, Bool.false_eq_true]
    refine Steady.ite (.of_vault (by simp)) (Steady.ite (.of_vault (by simp)) ?_)
    rw [if_pos trivial]
    exact Steady.ite (State.svnCommit_steady s) (.refl s)
  · exact .of_vault (State.cmdWrite_vault s r p off v h)

theorem State.takeWrite_steady (s : State) (r : Requester) (p off : Nat) (v : Word) : Steady s (s.takeWrite r p off v) := by
  unfold State.takeWrite
  repeat' split
  all_goals first
    | exact .refl _
    | exact State.cmdWrite_steady ..
    | exact .of_vault (by simp)

theorem State.writeReg_steady (s : State) (r : Requester) (p off : Nat) (v : Word) : Steady s (s.writeReg r p off v) :=
  State.onWrite_steady _ _ _ _ _ fun _ => State.takeWrite_steady ..

theorem State.serveReg_steady (s : State) (k : Packet) (w : Bool) : Steady s (s.serveReg k w) := by
  unfold State.serveReg
  dsimp only
  refine Steady.ite (.of_vault (by simp)) (Steady.ite (.of_vault (by simp)) (Steady.ite ?_ (.of_vault (by simp))))
  generalize (if k.hbr = true then Requester.host else Requester.remote) = r
  exact (Steady.of_vault (State.respond_vault ..)).trans (State.writeReg_steady ..)

theorem State.consumePacket_steady (s : State) (k : Packet) : Steady s (s.consumePacket k) := by
  unfold State.consumePacket
  split
  all_goals first
    | exact State.serveReg_steady ..
    | exact .of_vault (by simp)

theorem State.serveStalled_steady (n : Nat) (s : State) : Steady s (s.serveStalled n) := by
  induction n generalizing s with
  | zero => exact .refl s
  | succ n ih =>
    unfold State.serveStalled
    dsimp only
    split
    · exact .refl s
    · refine Steady.trans ?_ (ih _)
      refine Steady.trans (Steady.trans ?_ (State.consumePacket_steady _ _)) (.of_vault (State.owe_vault ..))
      exact .of_vault rfl

theorem State.serveReady_steady (s : State) : Steady s s.serveReady := State.serveStalled_steady _ _

theorem State.arrive_vault (s : State) (p : Nat) (k : Packet) : ((s.stir p k).takeCredits p k).vault = s.vault := by simp

theorem State.packetArrive_steady (s : State) (p : Nat) (k : Packet) : Steady s (s.packetArrive p k) := by
  unfold State.packetArrive
  dsimp only
  repeat' split
  all_goals first
    | exact .refl _
    | exact (Steady.of_vault (State.arrive_vault ..)).trans (State.serveReady_steady _)
    | exact (Steady.of_vault (State.arrive_vault s p k)).trans (.of_vault rfl)
    | exact (((Steady.of_vault (State.arrive_vault ..)).trans (State.consumePacket_steady ..)).trans
        (.of_vault (State.owe_vault ..))).trans (State.serveReady_steady _)
    | exact .of_vault (by simp)

theorem State.packetRow_steady (s : State) (n p : Nat) (k : Packet) : Steady s (s.packetRow n p k) :=
  Steady.ite (State.packetArrive_steady ..) (.refl s)

theorem State.takeFlits_steady (fs : List Flit) (s : State) (p seq : Nat) : Steady s (s.takeFlits p seq fs) := by
  induction fs generalizing s seq with
  | nil => exact .refl s
  | cons f fs ih =>
    unfold State.takeFlits
    dsimp only
    split
    · exact ((Steady.of_vault (by simp)).trans (Steady.foldl (fun s k => State.packetArrive_steady s p k) _ _)).trans (ih _ _)
    · exact .of_vault (by simp [apply_ite])

theorem State.takeFrame_steady (s : State) (p : Nat) (f : Frame) : Steady s (s.takeFrame p f) := by
  unfold State.takeFrame
  dsimp only
  repeat' split
  all_goals first
    | exact .of_vault (by simp)
    | exact (Steady.of_vault (by simp)).trans (State.takeFlits_steady ..)

theorem take_drop_range {α : Type} (f : Nat → α) (n k m : Nat) (h : k + m ≤ n) :
    (((List.range n).map f).drop k).take m = (List.range m).map fun i => f (k + i) := by
  apply List.ext_getElem
  · simp; omega
  · intro i h1 h2; simp

theorem State.flash_part (s : State) (a n k m : Nat) (h : k + m ≤ n) : ((s.flash a n).drop k).take m = s.flash (a + k) m := by
  unfold State.flash
  rw [take_drop_range _ _ _ _ h]
  simp only [Nat.add_assoc]

theorem State.imageValid_svn (s : State) (comp a : Nat) (h : s.imageValid comp a = true) : s.flashNum (a + 8) 4 ≤ 64 := by
  unfold State.imageValid at h
  simp only [Bool.and_eq_true] at h
  have e := of_decide_eq_true h.1.1.1.1.1.1.1.1.2
  rwa [State.flash_part _ _ _ _ _ (by omega)] at e

/-! The bound of R496 on `SVN` and `F`, and what leaves the running image. -/

/-- What any command does to the vault: the queue's rest and the variant stay, the fuses stay or take one commit, and the
bounds on `SVN` and `F` stay. -/
structure Kept (s t : State) : Prop where
  pending : t.pending = s.pending
  variant : t.dev.variant = s.dev.variant
  fuses : s.fusesTo t
  fits : s.svnFits → t.svnFits

theorem Steady.kept {s t : State} (h : Steady s t) : Kept s t := by
  refine ⟨h.pending, h.variant, h.fuses, fun f => ⟨?_, h.svn ▸ f.2⟩⟩
  rcases h.fuses with ⟨e, -⟩ | ⟨-, -, e, -, -⟩
  · exact e ▸ f.1
  · exact e ▸ f.2

theorem Kept.of_vault {s t : State} (h : t.vault = s.vault) : Kept s t := (Steady.of_vault h).kept

theorem Kept.refl (s : State) : Kept s s := (Steady.refl s).kept

theorem Kept.ite {s a b : State} {c : Prop} [Decidable c] (x : Kept s a) (y : Kept s b) : Kept s (if c then a else b) := by
  split <;> assumption

/-- After an operation that changes nothing of the vault but the running image. -/
theorem Kept.then_vault {s t u : State} (a : Kept s t) (h : u.vault = t.vault) : Kept s u := by
  simp only [State.vault, Prod.mk.injEq] at h
  obtain ⟨h1, h2, h3, h4, h5, -⟩ := h
  refine ⟨h1.trans a.pending, h2.trans a.variant, ?_, fun f => ⟨h3 ▸ (a.fits f).1, h5 ▸ (a.fits f).2⟩⟩
  have k := a.fuses
  unfold State.fusesTo at *
  rw [h3, h4]
  exact k

theorem Kept.after_vault {s t u : State} (h : t.vault = s.vault) (b : Kept t u) : Kept s u := by
  simp only [State.vault, Prod.mk.injEq] at h
  obtain ⟨h1, h2, h3, h4, h5, h6, h7, h8⟩ := h
  refine ⟨b.pending.trans h1, b.variant.trans h2, ?_, fun f => b.fits ⟨h3 ▸ f.1, h5 ▸ f.2⟩⟩
  have k := b.fuses
  unfold State.fusesTo at *
  rw [h3, h4, h5, h6, h7, h8] at k
  exact k

theorem State.dropRails_kept (s : State) (m : Nat) : Kept s (s.dropRails m) :=
  ⟨rfl, rfl, .inl ⟨rfl, rfl⟩, fun h => ⟨h.1, Nat.zero_le _⟩⟩

theorem State.holdReset_kept (s : State) : Kept s s.holdReset := by
  unfold State.holdReset
  dsimp only
  split <;> exact ⟨rfl, rfl, .inl ⟨rfl, rfl⟩, fun h => ⟨h.1, Nat.zero_le _⟩⟩

theorem State.cutPower_kept (s : State) (mv cause : Nat) : Kept s (s.cutPower mv cause) :=
  Kept.then_vault (State.holdReset_kept s) rfl

theorem State.bootFrom_kept (s : State) (b fell : Bool) (h : s.imageValid 1 (slotBase 1 b) = true) :
    Kept s (s.bootFrom b fell) := by
  unfold State.bootFrom
  dsimp only
  generalize ht : State.extendMeas _ _ _ = t
  have k : t.vault = s.vault := by subst ht; split <;> simp
  exact Kept.after_vault k ⟨rfl, rfl, .inl ⟨rfl, rfl⟩, fun hf => ⟨hf.1, State.imageValid_svn _ _ _ h⟩⟩

theorem State.romBoot_kept (s : State) : Kept s s.romBoot := by
  unfold State.romBoot
  refine Kept.after_vault s.romMeasure_vault ?_
  generalize s.romMeasure = t
  dsimp only
  split
  · exact Kept.then_vault (t := { t with trb := { t.trb with noImage := true } }) ⟨rfl, rfl, .inl ⟨rfl, rfl⟩, fun h => h⟩
      (State.platformEvent_vault ..)
  · rename_i x hx
    apply State.bootFrom_kept
    unfold State.bootSlot at hx
    dsimp only at hx
    split at hx
    · rename_i hv; cases hx; exact hv
    · split at hx
      · rename_i hv; cases hx; exact hv
      · cases hx

end Sys2Proof.Machine
end

