-- ==== Sys2Proof/Laws/Store.lean ====
section
/-!
SUPPORT. The laws of the sparse store: what is read after a write, and that writing keeps the canonical form.
-/
namespace Sys2Proof.Store

variable {α : Type} [DecidableEq α]

omit [DecidableEq α] in
@[simp] theorem get_nil (d : α) (k : Nat) : get d [] k = d := rfl

omit [DecidableEq α] in
theorem get_cons (d : α) (i k : Nat) (v : α) (m : Store α) : get d ((i, v) :: m) k = if k = i then v else get d m k := rfl

omit [DecidableEq α] in
/-- What is read of a store some of whose indexes were taken out. -/
theorem get_filter (d : α) (m : Store α) (p : Nat → Bool) (k : Nat) :
    get d (m.filter fun x => p x.1) k = if p k = true then get d m k else d := by
  induction m with
  | nil => simp
  | cons x m ih =>
    obtain ⟨i, v⟩ := x
    by_cases hk : k = i
    · subst hk
      by_cases hi : p k = true
      · rw [List.filter_cons_of_pos (by simpa using hi), get_cons, get_cons, if_pos rfl, if_pos hi]
        simp
      · rw [List.filter_cons_of_neg (by simpa using hi), ih, if_neg hi, if_neg hi]
    · rw [get_cons, if_neg hk, ← ih]
      by_cases hi : p i = true
      · rw [List.filter_cons_of_pos (by simpa using hi), get_cons, if_neg hk]
      · rw [List.filter_cons_of_neg (by simpa using hi)]

omit [DecidableEq α] in
theorem get_erase (d : α) (m : Store α) (k j : Nat) : get d (erase m k) j = if j = k then d else get d m j := by
  unfold erase
  rw [get_filter d m (fun i => i != k)]
  by_cases h : j = k <;> simp [h]

theorem get_put (d : α) (m : Store α) (k j : Nat) (v : α) (h : get d m k = d) :
    get d (put d k v m) j = if j = k then v else get d m j := by
  unfold put
  split
  · rename_i e; subst e
    split
    · rename_i e'; subst e'; exact h
    · rfl
  · exact get_cons d k j v m

/-- A read after a write: the value written at its index, and elsewhere what was there. -/
theorem get_set (d : α) (m : Store α) (k j : Nat) (v : α) :
    get d (set d m k v) j = if j = k then v else get d m j := by
  induction m with
  | nil => exact get_put d [] k j v rfl
  | cons x m ih =>
    obtain ⟨i, w⟩ := x
    simp only [set]
    split
    · rename_i e; subst e
      rw [get_put _ _ _ _ _ (by rw [get_erase]; simp), get_erase]
      split
      · rfl
      · rename_i h; rw [get_cons, if_neg h]
    · rename_i e
      split
      · rw [get_put _ _ _ _ _ (by rw [get_cons, if_neg e, get_erase]; simp)]
        split
        · rfl
        · rename_i h
          simp only [get_cons, get_erase, if_neg h]
      · simp only [get_cons, ih]
        by_cases h : j = i
        · subst h
          have : ¬ j = k := fun h => e h.symm
          simp [this]
        · simp [h]

@[simp] theorem get_set_same (d : α) (m : Store α) (k : Nat) (v : α) : get d (set d m k v) k = v := by simp [get_set]

theorem get_set_ne (d : α) (m : Store α) {k j : Nat} (v : α) (h : j ≠ k) : get d (set d m k v) j = get d m j := by
  simp [get_set, h]

/-- A store read with a default of its own: where nothing was written, nothing changes. -/
theorem get_set_other (d e : α) (m : Store α) {k j : Nat} (v : α) (h : j ≠ k) : get d (set e m k v) j = get d m j := by
  have herase : ∀ m : Store α, get d (erase m k) j = get d m j := fun m => by rw [get_erase]; simp [h]
  have hput : ∀ m : Store α, get d (put e k v m) j = get d m j := fun m => by
    unfold put; split
    · rfl
    · rw [get_cons, if_neg h]
  induction m with
  | nil => exact hput []
  | cons x m ih =>
    obtain ⟨i, w⟩ := x
    unfold set
    split
    · rename_i e; subst e; rw [hput, herase, get_cons, if_neg h]
    · split
      · rw [hput, get_cons, get_cons, herase]
      · rw [get_cons, get_cons, ih]

/-! The canonical form. -/

theorem wfFrom_mono {d : α} {m : Store α} {lo lo' : Nat} (h : wfFrom d lo m = true) (hl : lo' ≤ lo) :
    wfFrom d lo' m = true := by
  cases m with
  | nil => rfl
  | cons x m =>
    obtain ⟨i, v⟩ := x
    simp only [wfFrom, Bool.and_eq_true, decide_eq_true_eq] at *
    exact ⟨⟨by omega, h.1.2⟩, h.2⟩

/-- Entries taken out leave the canonical form. -/
theorem wfFrom_filter {d : α} {m : Store α} {lo : Nat} (p : Nat × α → Bool) (h : wfFrom d lo m = true) :
    wfFrom d lo (m.filter p) = true := by
  induction m generalizing lo with
  | nil => rfl
  | cons x m ih =>
    obtain ⟨i, w⟩ := x
    simp only [wfFrom, Bool.and_eq_true, decide_eq_true_eq] at h
    rw [List.filter_cons]
    split
    · simp only [wfFrom, Bool.and_eq_true, decide_eq_true_eq]
      exact ⟨h.1, ih h.2⟩
    · exact wfFrom_mono (ih h.2) (by omega)

theorem wf_filter {d : α} {m : Store α} (p : Nat × α → Bool) (h : wf d m = true) : wf d (m.filter p) = true :=
  wfFrom_filter p h

theorem wfFrom_put {d : α} {m : Store α} {k lo : Nat} {v : α} (h : wfFrom d (k + 1) m = true) (hl : lo ≤ k) :
    wfFrom d lo (put d k v m) = true := by
  unfold put
  split
  · exact wfFrom_mono h (by omega)
  · rename_i hv
    simp [wfFrom, hl, hv, h]

theorem wfFrom_set {d : α} {m : Store α} {k lo : Nat} (v : α) (h : wfFrom d lo m = true) (hl : lo ≤ k) :
    wfFrom d lo (set d m k v) = true := by
  induction m generalizing lo with
  | nil => exact wfFrom_put rfl hl
  | cons x m ih =>
    obtain ⟨i, w⟩ := x
    have h' := h
    simp only [wfFrom, Bool.and_eq_true, decide_eq_true_eq] at h'
    simp only [set]
    split
    · rename_i e; subst e; exact wfFrom_put (wfFrom_filter _ h'.2) hl
    · split
      · refine wfFrom_put ?_ hl
        simp only [wfFrom, Bool.and_eq_true, decide_eq_true_eq]
        exact ⟨⟨by omega, h'.1.2⟩, wfFrom_filter _ h'.2⟩
      · simp only [wfFrom, Bool.and_eq_true, decide_eq_true_eq]
        exact ⟨h'.1, ih h'.2 (by omega)⟩

/-- A write keeps the canonical form. -/
theorem wf_set {d : α} {m : Store α} (k : Nat) (v : α) (h : wf d m = true) : wf d (set d m k v) = true :=
  wfFrom_set v h (Nat.zero_le k)

@[simp] theorem wf_nil (d : α) : wf d ([] : Store α) = true := rfl

end Sys2Proof.Store
end

