-- ==== Sys2Proof/Laws/State.lean ====
section
/-!
SUPPORT. What each named update of the state leaves as it was, one lemma a field, and what it leaves in the place it
writes.
-/
namespace Sys2Proof.Machine

/-! What is read of the place that was written. -/

@[simp] theorem State.core_setCore (s : State) (n : Nat) (c : Core) : (s.setCore n c).core n = c := Store.get_set_same _ _ _ _

theorem State.core_setCore_ne (s : State) {n m : Nat} (c : Core) (h : m ≠ n) : (s.setCore n c).core m = s.core m :=
  Store.get_set_ne _ _ _ h

@[simp] theorem State.core_onCore (s : State) (n : Nat) (f : Core → Core) : (s.onCore n f).core n = f (s.core n) :=
  Store.get_set_same _ _ _ _

theorem State.core_onCore_ne (s : State) {n m : Nat} (f : Core → Core) (h : m ≠ n) : (s.onCore n f).core m = s.core m :=
  Store.get_set_ne _ _ _ h

@[simp] theorem State.reg_setReg (s : State) (p off : Nat) (v : Word) : (s.setReg p off v).reg p off = v :=
  Store.get_set_same _ _ _ _

theorem State.reg_setReg_ne (s : State) {p off q o : Nat} (v : Word) (h : regKey q o ≠ regKey p off) :
    (s.setReg p off v).reg q o = s.reg q o := Store.get_set_other _ _ _ _ h

@[simp] theorem State.port_setPort (s : State) (p : Nat) (x : Port) : (s.setPort p x).port p = x := Store.get_set_same _ _ _ _

theorem State.port_setPort_ne (s : State) {p q : Nat} (x : Port) (h : q ≠ p) : (s.setPort p x).port q = s.port q :=
  Store.get_set_ne _ _ _ h

@[simp] theorem State.hurdleOf_setHurdle (s : State) (h : Nat) (x : Hurdle) : (s.setHurdle h x).hurdleOf h = x :=
  Store.get_set_same _ _ _ _

@[simp] theorem State.island_setIsland (s : State) (p st : Nat) : (s.setIsland p st).island p = st := Store.get_set_same _ _ _ _

theorem State.island_setIsland_ne (s : State) {p q : Nat} (st : Nat) (h : q ≠ p) : (s.setIsland p st).island q = s.island q :=
  Store.get_set_other _ _ _ _ h

/-- What an access does to a page other than a hub's: an island in RETENTION is ON again (R461). -/
theorem State.thawPage_eq (s : State) {p : Nat} (h1 : p ≠ 1) (h2 : p ≠ 2) :
    s.thawPage p = if s.island p = 4 then s.setIsland p 0 else s := by
  unfold State.thawPage
  simp [h1, h2]

theorem State.thawPage_island (s : State) {p : Nat} (h1 : p ≠ 1) (h2 : p ≠ 2) (q : Nat) :
    (s.thawPage p).island q = if q = p ∧ s.island p = 4 then 0 else s.island q := by
  rw [State.thawPage_eq s h1 h2]
  by_cases h : s.island p = 4 <;> by_cases e : q = p
  · subst e; simp [h]
  · simp [h, e, State.island_setIsland_ne]
  · subst e; simp [h]
  · simp [h, e]

/-- An access to such a page changes nothing but the island. -/
theorem State.thawPage_rest (s : State) {p : Nat} (h1 : p ≠ 1) (h2 : p ≠ 2) :
    s.thawPage p = { s with islands := (s.thawPage p).islands } := by
  rw [State.thawPage_eq s h1 h2]; split <;> rfl

@[simp] theorem Core.byte_setByte (c : Core) (a : Nat) (v : Byte) : (c.setByte a v).byte a = v := Store.get_set_same _ _ _ _

@[simp] theorem Core.depCtr_addDep (c : Core) (k v : Nat) : (c.addDep k v).depCtr k = (c.depCtr k + v) % 65536 :=
  Store.get_set_same _ _ _ _

@[simp] theorem Core.stuCtx_setStu (c : Core) (k : Nat) (x : StuCtx) : (c.setStu k x).stuCtx k = x := Store.get_set_same _ _ _ _

/-! What stays. -/

@[simp] theorem State.setReg_pending (s : State) (p off : Nat) (v : Word) : (s.setReg p off v).pending = s.pending := rfl
@[simp] theorem State.setReg_free (s : State) (p off : Nat) (v : Word) : (s.setReg p off v).free = s.free := rfl
@[simp] theorem State.setReg_sent (s : State) (p off : Nat) (v : Word) : (s.setReg p off v).sent = s.sent := rfl
@[simp] theorem State.setReg_dev (s : State) (p off : Nat) (v : Word) : (s.setReg p off v).dev = s.dev := rfl
@[simp] theorem State.setReg_raised (s : State) (p off : Nat) (v : Word) : (s.setReg p off v).raised = s.raised := rfl
@[simp] theorem State.setReg_signals (s : State) (p off : Nat) (v : Word) : (s.setReg p off v).signals = s.signals := rfl
@[simp] theorem State.setReg_txns (s : State) (p off : Nat) (v : Word) : (s.setReg p off v).txns = s.txns := rfl
@[simp] theorem State.setReg_nextTag (s : State) (p off : Nat) (v : Word) : (s.setReg p off v).nextTag = s.nextTag := rfl
@[simp] theorem State.setReg_sites (s : State) (p off : Nat) (v : Word) : (s.setReg p off v).sites = s.sites := rfl
@[simp] theorem State.setReg_cores (s : State) (p off : Nat) (v : Word) : (s.setReg p off v).cores = s.cores := rfl
@[simp] theorem State.setReg_tiers (s : State) (p off : Nat) (v : Word) : (s.setReg p off v).tiers = s.tiers := rfl
@[simp] theorem State.setReg_xlat (s : State) (p off : Nat) (v : Word) : (s.setReg p off v).xlat = s.xlat := rfl
@[simp] theorem State.setReg_links (s : State) (p off : Nat) (v : Word) : (s.setReg p off v).links = s.links := rfl
@[simp] theorem State.setReg_hvu (s : State) (p off : Nat) (v : Word) : (s.setReg p off v).hvu = s.hvu := rfl
@[simp] theorem State.setReg_sch (s : State) (p off : Nat) (v : Word) : (s.setReg p off v).sch = s.sch := rfl
@[simp] theorem State.setReg_kvd (s : State) (p off : Nat) (v : Word) : (s.setReg p off v).kvd = s.kvd := rfl
@[simp] theorem State.setReg_input (s : State) (p off : Nat) (v : Word) : (s.setReg p off v).input = s.input := rfl
@[simp] theorem State.setReg_runs (s : State) (p off : Nat) (v : Word) : (s.setReg p off v).runs = s.runs := rfl
@[simp] theorem State.setReg_islands (s : State) (p off : Nat) (v : Word) : (s.setReg p off v).islands = s.islands := rfl
@[simp] theorem State.setReg_busyAt (s : State) (p off : Nat) (v : Word) : (s.setReg p off v).busyAt = s.busyAt := rfl
@[simp] theorem State.setReg_power (s : State) (p off : Nat) (v : Word) : (s.setReg p off v).power = s.power := rfl
@[simp] theorem State.setReg_evh (s : State) (p off : Nat) (v : Word) : (s.setReg p off v).evh = s.evh := rfl
@[simp] theorem State.setReg_ctl (s : State) (p off : Nat) (v : Word) : (s.setReg p off v).ctl = s.ctl := rfl
@[simp] theorem State.setReg_flm (s : State) (p off : Nat) (v : Word) : (s.setReg p off v).flm = s.flm := rfl
@[simp] theorem State.setReg_trb (s : State) (p off : Nat) (v : Word) : (s.setReg p off v).trb = s.trb := rfl
@[simp] theorem State.setReg_mgc (s : State) (p off : Nat) (v : Word) : (s.setReg p off v).mgc = s.mgc := rfl
@[simp] theorem State.setReg_pins (s : State) (p off : Nat) (v : Word) : (s.setReg p off v).pins = s.pins := rfl

@[simp] theorem State.countReg_pending (s : State) (p off n : Nat) : (s.countReg p off n).pending = s.pending := rfl
@[simp] theorem State.countReg_free (s : State) (p off n : Nat) : (s.countReg p off n).free = s.free := rfl
@[simp] theorem State.countReg_sent (s : State) (p off n : Nat) : (s.countReg p off n).sent = s.sent := rfl
@[simp] theorem State.countReg_dev (s : State) (p off n : Nat) : (s.countReg p off n).dev = s.dev := rfl
@[simp] theorem State.countReg_raised (s : State) (p off n : Nat) : (s.countReg p off n).raised = s.raised := rfl
@[simp] theorem State.countReg_signals (s : State) (p off n : Nat) : (s.countReg p off n).signals = s.signals := rfl
@[simp] theorem State.countReg_txns (s : State) (p off n : Nat) : (s.countReg p off n).txns = s.txns := rfl
@[simp] theorem State.countReg_nextTag (s : State) (p off n : Nat) : (s.countReg p off n).nextTag = s.nextTag := rfl
@[simp] theorem State.countReg_sites (s : State) (p off n : Nat) : (s.countReg p off n).sites = s.sites := rfl
@[simp] theorem State.countReg_cores (s : State) (p off n : Nat) : (s.countReg p off n).cores = s.cores := rfl
@[simp] theorem State.countReg_tiers (s : State) (p off n : Nat) : (s.countReg p off n).tiers = s.tiers := rfl
@[simp] theorem State.countReg_xlat (s : State) (p off n : Nat) : (s.countReg p off n).xlat = s.xlat := rfl
@[simp] theorem State.countReg_links (s : State) (p off n : Nat) : (s.countReg p off n).links = s.links := rfl
@[simp] theorem State.countReg_hvu (s : State) (p off n : Nat) : (s.countReg p off n).hvu = s.hvu := rfl
@[simp] theorem State.countReg_sch (s : State) (p off n : Nat) : (s.countReg p off n).sch = s.sch := rfl
@[simp] theorem State.countReg_kvd (s : State) (p off n : Nat) : (s.countReg p off n).kvd = s.kvd := rfl
@[simp] theorem State.countReg_input (s : State) (p off n : Nat) : (s.countReg p off n).input = s.input := rfl
@[simp] theorem State.countReg_runs (s : State) (p off n : Nat) : (s.countReg p off n).runs = s.runs := rfl
@[simp] theorem State.countReg_islands (s : State) (p off n : Nat) : (s.countReg p off n).islands = s.islands := rfl
@[simp] theorem State.countReg_busyAt (s : State) (p off n : Nat) : (s.countReg p off n).busyAt = s.busyAt := rfl
@[simp] theorem State.countReg_power (s : State) (p off n : Nat) : (s.countReg p off n).power = s.power := rfl
@[simp] theorem State.countReg_evh (s : State) (p off n : Nat) : (s.countReg p off n).evh = s.evh := rfl
@[simp] theorem State.countReg_ctl (s : State) (p off n : Nat) : (s.countReg p off n).ctl = s.ctl := rfl
@[simp] theorem State.countReg_flm (s : State) (p off n : Nat) : (s.countReg p off n).flm = s.flm := rfl
@[simp] theorem State.countReg_trb (s : State) (p off n : Nat) : (s.countReg p off n).trb = s.trb := rfl
@[simp] theorem State.countReg_mgc (s : State) (p off n : Nat) : (s.countReg p off n).mgc = s.mgc := rfl
@[simp] theorem State.countReg_pins (s : State) (p off n : Nat) : (s.countReg p off n).pins = s.pins := rfl

@[simp] theorem State.wrapReg_pending (s : State) (p off n : Nat) : (s.wrapReg p off n).pending = s.pending := rfl
@[simp] theorem State.wrapReg_free (s : State) (p off n : Nat) : (s.wrapReg p off n).free = s.free := rfl
@[simp] theorem State.wrapReg_sent (s : State) (p off n : Nat) : (s.wrapReg p off n).sent = s.sent := rfl
@[simp] theorem State.wrapReg_dev (s : State) (p off n : Nat) : (s.wrapReg p off n).dev = s.dev := rfl
@[simp] theorem State.wrapReg_raised (s : State) (p off n : Nat) : (s.wrapReg p off n).raised = s.raised := rfl
@[simp] theorem State.wrapReg_signals (s : State) (p off n : Nat) : (s.wrapReg p off n).signals = s.signals := rfl
@[simp] theorem State.wrapReg_txns (s : State) (p off n : Nat) : (s.wrapReg p off n).txns = s.txns := rfl
@[simp] theorem State.wrapReg_nextTag (s : State) (p off n : Nat) : (s.wrapReg p off n).nextTag = s.nextTag := rfl
@[simp] theorem State.wrapReg_sites (s : State) (p off n : Nat) : (s.wrapReg p off n).sites = s.sites := rfl
@[simp] theorem State.wrapReg_cores (s : State) (p off n : Nat) : (s.wrapReg p off n).cores = s.cores := rfl
@[simp] theorem State.wrapReg_tiers (s : State) (p off n : Nat) : (s.wrapReg p off n).tiers = s.tiers := rfl
@[simp] theorem State.wrapReg_xlat (s : State) (p off n : Nat) : (s.wrapReg p off n).xlat = s.xlat := rfl
@[simp] theorem State.wrapReg_links (s : State) (p off n : Nat) : (s.wrapReg p off n).links = s.links := rfl
@[simp] theorem State.wrapReg_hvu (s : State) (p off n : Nat) : (s.wrapReg p off n).hvu = s.hvu := rfl
@[simp] theorem State.wrapReg_sch (s : State) (p off n : Nat) : (s.wrapReg p off n).sch = s.sch := rfl
@[simp] theorem State.wrapReg_kvd (s : State) (p off n : Nat) : (s.wrapReg p off n).kvd = s.kvd := rfl
@[simp] theorem State.wrapReg_input (s : State) (p off n : Nat) : (s.wrapReg p off n).input = s.input := rfl
@[simp] theorem State.wrapReg_runs (s : State) (p off n : Nat) : (s.wrapReg p off n).runs = s.runs := rfl
@[simp] theorem State.wrapReg_islands (s : State) (p off n : Nat) : (s.wrapReg p off n).islands = s.islands := rfl
@[simp] theorem State.wrapReg_busyAt (s : State) (p off n : Nat) : (s.wrapReg p off n).busyAt = s.busyAt := rfl
@[simp] theorem State.wrapReg_power (s : State) (p off n : Nat) : (s.wrapReg p off n).power = s.power := rfl
@[simp] theorem State.wrapReg_evh (s : State) (p off n : Nat) : (s.wrapReg p off n).evh = s.evh := rfl
@[simp] theorem State.wrapReg_ctl (s : State) (p off n : Nat) : (s.wrapReg p off n).ctl = s.ctl := rfl
@[simp] theorem State.wrapReg_flm (s : State) (p off n : Nat) : (s.wrapReg p off n).flm = s.flm := rfl
@[simp] theorem State.wrapReg_trb (s : State) (p off n : Nat) : (s.wrapReg p off n).trb = s.trb := rfl
@[simp] theorem State.wrapReg_mgc (s : State) (p off n : Nat) : (s.wrapReg p off n).mgc = s.mgc := rfl
@[simp] theorem State.wrapReg_pins (s : State) (p off n : Nat) : (s.wrapReg p off n).pins = s.pins := rfl

@[simp] theorem State.setRegBit_pending (s : State) (p off i : Nat) (b : Bool) : (s.setRegBit p off i b).pending = s.pending := rfl
@[simp] theorem State.setRegBit_free (s : State) (p off i : Nat) (b : Bool) : (s.setRegBit p off i b).free = s.free := rfl
@[simp] theorem State.setRegBit_sent (s : State) (p off i : Nat) (b : Bool) : (s.setRegBit p off i b).sent = s.sent := rfl
@[simp] theorem State.setRegBit_dev (s : State) (p off i : Nat) (b : Bool) : (s.setRegBit p off i b).dev = s.dev := rfl
@[simp] theorem State.setRegBit_raised (s : State) (p off i : Nat) (b : Bool) : (s.setRegBit p off i b).raised = s.raised := rfl
@[simp] theorem State.setRegBit_signals (s : State) (p off i : Nat) (b : Bool) : (s.setRegBit p off i b).signals = s.signals := rfl
@[simp] theorem State.setRegBit_txns (s : State) (p off i : Nat) (b : Bool) : (s.setRegBit p off i b).txns = s.txns := rfl
@[simp] theorem State.setRegBit_nextTag (s : State) (p off i : Nat) (b : Bool) : (s.setRegBit p off i b).nextTag = s.nextTag := rfl
@[simp] theorem State.setRegBit_sites (s : State) (p off i : Nat) (b : Bool) : (s.setRegBit p off i b).sites = s.sites := rfl
@[simp] theorem State.setRegBit_cores (s : State) (p off i : Nat) (b : Bool) : (s.setRegBit p off i b).cores = s.cores := rfl
@[simp] theorem State.setRegBit_tiers (s : State) (p off i : Nat) (b : Bool) : (s.setRegBit p off i b).tiers = s.tiers := rfl
@[simp] theorem State.setRegBit_xlat (s : State) (p off i : Nat) (b : Bool) : (s.setRegBit p off i b).xlat = s.xlat := rfl
@[simp] theorem State.setRegBit_links (s : State) (p off i : Nat) (b : Bool) : (s.setRegBit p off i b).links = s.links := rfl
@[simp] theorem State.setRegBit_hvu (s : State) (p off i : Nat) (b : Bool) : (s.setRegBit p off i b).hvu = s.hvu := rfl
@[simp] theorem State.setRegBit_sch (s : State) (p off i : Nat) (b : Bool) : (s.setRegBit p off i b).sch = s.sch := rfl
@[simp] theorem State.setRegBit_kvd (s : State) (p off i : Nat) (b : Bool) : (s.setRegBit p off i b).kvd = s.kvd := rfl
@[simp] theorem State.setRegBit_input (s : State) (p off i : Nat) (b : Bool) : (s.setRegBit p off i b).input = s.input := rfl
@[simp] theorem State.setRegBit_runs (s : State) (p off i : Nat) (b : Bool) : (s.setRegBit p off i b).runs = s.runs := rfl
@[simp] theorem State.setRegBit_islands (s : State) (p off i : Nat) (b : Bool) : (s.setRegBit p off i b).islands = s.islands := rfl
@[simp] theorem State.setRegBit_busyAt (s : State) (p off i : Nat) (b : Bool) : (s.setRegBit p off i b).busyAt = s.busyAt := rfl
@[simp] theorem State.setRegBit_power (s : State) (p off i : Nat) (b : Bool) : (s.setRegBit p off i b).power = s.power := rfl
@[simp] theorem State.setRegBit_evh (s : State) (p off i : Nat) (b : Bool) : (s.setRegBit p off i b).evh = s.evh := rfl
@[simp] theorem State.setRegBit_ctl (s : State) (p off i : Nat) (b : Bool) : (s.setRegBit p off i b).ctl = s.ctl := rfl
@[simp] theorem State.setRegBit_flm (s : State) (p off i : Nat) (b : Bool) : (s.setRegBit p off i b).flm = s.flm := rfl
@[simp] theorem State.setRegBit_trb (s : State) (p off i : Nat) (b : Bool) : (s.setRegBit p off i b).trb = s.trb := rfl
@[simp] theorem State.setRegBit_mgc (s : State) (p off i : Nat) (b : Bool) : (s.setRegBit p off i b).mgc = s.mgc := rfl
@[simp] theorem State.setRegBit_pins (s : State) (p off i : Nat) (b : Bool) : (s.setRegBit p off i b).pins = s.pins := rfl

@[simp] theorem State.errSet_pending (s : State) (p i : Nat) : (s.errSet p i).pending = s.pending := by
  unfold State.errSet; split <;> rfl
@[simp] theorem State.errSet_free (s : State) (p i : Nat) : (s.errSet p i).free = s.free := by
  unfold State.errSet; split <;> rfl
@[simp] theorem State.errSet_sent (s : State) (p i : Nat) : (s.errSet p i).sent = s.sent := by
  unfold State.errSet; split <;> rfl
@[simp] theorem State.errSet_dev (s : State) (p i : Nat) : (s.errSet p i).dev = s.dev := by
  unfold State.errSet; split <;> rfl
@[simp] theorem State.errSet_raised (s : State) (p i : Nat) : (s.errSet p i).raised = s.raised := by
  unfold State.errSet; split <;> rfl
@[simp] theorem State.errSet_signals (s : State) (p i : Nat) : (s.errSet p i).signals = s.signals := by
  unfold State.errSet; split <;> rfl
@[simp] theorem State.errSet_txns (s : State) (p i : Nat) : (s.errSet p i).txns = s.txns := by
  unfold State.errSet; split <;> rfl
@[simp] theorem State.errSet_nextTag (s : State) (p i : Nat) : (s.errSet p i).nextTag = s.nextTag := by
  unfold State.errSet; split <;> rfl
@[simp] theorem State.errSet_sites (s : State) (p i : Nat) : (s.errSet p i).sites = s.sites := by
  unfold State.errSet; split <;> rfl
@[simp] theorem State.errSet_cores (s : State) (p i : Nat) : (s.errSet p i).cores = s.cores := by
  unfold State.errSet; split <;> rfl
@[simp] theorem State.errSet_tiers (s : State) (p i : Nat) : (s.errSet p i).tiers = s.tiers := by
  unfold State.errSet; split <;> rfl
@[simp] theorem State.errSet_xlat (s : State) (p i : Nat) : (s.errSet p i).xlat = s.xlat := by
  unfold State.errSet; split <;> rfl
@[simp] theorem State.errSet_links (s : State) (p i : Nat) : (s.errSet p i).links = s.links := by
  unfold State.errSet; split <;> rfl
@[simp] theorem State.errSet_hvu (s : State) (p i : Nat) : (s.errSet p i).hvu = s.hvu := by
  unfold State.errSet; split <;> rfl
@[simp] theorem State.errSet_sch (s : State) (p i : Nat) : (s.errSet p i).sch = s.sch := by
  unfold State.errSet; split <;> rfl
@[simp] theorem State.errSet_kvd (s : State) (p i : Nat) : (s.errSet p i).kvd = s.kvd := by
  unfold State.errSet; split <;> rfl
@[simp] theorem State.errSet_input (s : State) (p i : Nat) : (s.errSet p i).input = s.input := by
  unfold State.errSet; split <;> rfl
@[simp] theorem State.errSet_runs (s : State) (p i : Nat) : (s.errSet p i).runs = s.runs := by
  unfold State.errSet; split <;> rfl
@[simp] theorem State.errSet_islands (s : State) (p i : Nat) : (s.errSet p i).islands = s.islands := by
  unfold State.errSet; split <;> rfl
@[simp] theorem State.errSet_busyAt (s : State) (p i : Nat) : (s.errSet p i).busyAt = s.busyAt := by
  unfold State.errSet; split <;> rfl
@[simp] theorem State.errSet_power (s : State) (p i : Nat) : (s.errSet p i).power = s.power := by
  unfold State.errSet; split <;> rfl
@[simp] theorem State.errSet_evh (s : State) (p i : Nat) : (s.errSet p i).evh = s.evh := by
  unfold State.errSet; split <;> rfl
@[simp] theorem State.errSet_ctl (s : State) (p i : Nat) : (s.errSet p i).ctl = s.ctl := by
  unfold State.errSet; split <;> rfl
@[simp] theorem State.errSet_flm (s : State) (p i : Nat) : (s.errSet p i).flm = s.flm := by
  unfold State.errSet; split <;> rfl
@[simp] theorem State.errSet_trb (s : State) (p i : Nat) : (s.errSet p i).trb = s.trb := by
  unfold State.errSet; split <;> rfl
@[simp] theorem State.errSet_mgc (s : State) (p i : Nat) : (s.errSet p i).mgc = s.mgc := by
  unfold State.errSet; split <;> rfl
@[simp] theorem State.errSet_pins (s : State) (p i : Nat) : (s.errSet p i).pins = s.pins := by
  unfold State.errSet; split <;> rfl

@[simp] theorem State.errCount_pending (s : State) (p n : Nat) : (s.errCount p n).pending = s.pending := rfl
@[simp] theorem State.errCount_free (s : State) (p n : Nat) : (s.errCount p n).free = s.free := rfl
@[simp] theorem State.errCount_sent (s : State) (p n : Nat) : (s.errCount p n).sent = s.sent := rfl
@[simp] theorem State.errCount_dev (s : State) (p n : Nat) : (s.errCount p n).dev = s.dev := rfl
@[simp] theorem State.errCount_raised (s : State) (p n : Nat) : (s.errCount p n).raised = s.raised := rfl
@[simp] theorem State.errCount_signals (s : State) (p n : Nat) : (s.errCount p n).signals = s.signals := rfl
@[simp] theorem State.errCount_txns (s : State) (p n : Nat) : (s.errCount p n).txns = s.txns := rfl
@[simp] theorem State.errCount_nextTag (s : State) (p n : Nat) : (s.errCount p n).nextTag = s.nextTag := rfl
@[simp] theorem State.errCount_sites (s : State) (p n : Nat) : (s.errCount p n).sites = s.sites := rfl
@[simp] theorem State.errCount_cores (s : State) (p n : Nat) : (s.errCount p n).cores = s.cores := rfl
@[simp] theorem State.errCount_tiers (s : State) (p n : Nat) : (s.errCount p n).tiers = s.tiers := rfl
@[simp] theorem State.errCount_xlat (s : State) (p n : Nat) : (s.errCount p n).xlat = s.xlat := rfl
@[simp] theorem State.errCount_links (s : State) (p n : Nat) : (s.errCount p n).links = s.links := rfl
@[simp] theorem State.errCount_hvu (s : State) (p n : Nat) : (s.errCount p n).hvu = s.hvu := rfl
@[simp] theorem State.errCount_sch (s : State) (p n : Nat) : (s.errCount p n).sch = s.sch := rfl
@[simp] theorem State.errCount_kvd (s : State) (p n : Nat) : (s.errCount p n).kvd = s.kvd := rfl
@[simp] theorem State.errCount_input (s : State) (p n : Nat) : (s.errCount p n).input = s.input := rfl
@[simp] theorem State.errCount_runs (s : State) (p n : Nat) : (s.errCount p n).runs = s.runs := rfl
@[simp] theorem State.errCount_islands (s : State) (p n : Nat) : (s.errCount p n).islands = s.islands := rfl
@[simp] theorem State.errCount_busyAt (s : State) (p n : Nat) : (s.errCount p n).busyAt = s.busyAt := rfl
@[simp] theorem State.errCount_power (s : State) (p n : Nat) : (s.errCount p n).power = s.power := rfl
@[simp] theorem State.errCount_evh (s : State) (p n : Nat) : (s.errCount p n).evh = s.evh := rfl
@[simp] theorem State.errCount_ctl (s : State) (p n : Nat) : (s.errCount p n).ctl = s.ctl := rfl
@[simp] theorem State.errCount_flm (s : State) (p n : Nat) : (s.errCount p n).flm = s.flm := rfl
@[simp] theorem State.errCount_trb (s : State) (p n : Nat) : (s.errCount p n).trb = s.trb := rfl
@[simp] theorem State.errCount_mgc (s : State) (p n : Nat) : (s.errCount p n).mgc = s.mgc := rfl
@[simp] theorem State.errCount_pins (s : State) (p n : Nat) : (s.errCount p n).pins = s.pins := rfl

@[simp] theorem State.raise_pending (s : State) (p i : Nat) : (s.raise p i).pending = s.pending := by
  unfold State.raise; split <;> rfl
@[simp] theorem State.raise_free (s : State) (p i : Nat) : (s.raise p i).free = s.free := by
  unfold State.raise; split <;> rfl
@[simp] theorem State.raise_sent (s : State) (p i : Nat) : (s.raise p i).sent = s.sent := by
  unfold State.raise; split <;> rfl
@[simp] theorem State.raise_dev (s : State) (p i : Nat) : (s.raise p i).dev = s.dev := by
  unfold State.raise; split <;> rfl
@[simp] theorem State.raise_regs (s : State) (p i : Nat) : (s.raise p i).regs = s.regs := by
  unfold State.raise; split <;> rfl
@[simp] theorem State.raise_signals (s : State) (p i : Nat) : (s.raise p i).signals = s.signals := by
  unfold State.raise; split <;> rfl
@[simp] theorem State.raise_txns (s : State) (p i : Nat) : (s.raise p i).txns = s.txns := by
  unfold State.raise; split <;> rfl
@[simp] theorem State.raise_nextTag (s : State) (p i : Nat) : (s.raise p i).nextTag = s.nextTag := by
  unfold State.raise; split <;> rfl
@[simp] theorem State.raise_sites (s : State) (p i : Nat) : (s.raise p i).sites = s.sites := by
  unfold State.raise; split <;> rfl
@[simp] theorem State.raise_cores (s : State) (p i : Nat) : (s.raise p i).cores = s.cores := by
  unfold State.raise; split <;> rfl
@[simp] theorem State.raise_tiers (s : State) (p i : Nat) : (s.raise p i).tiers = s.tiers := by
  unfold State.raise; split <;> rfl
@[simp] theorem State.raise_xlat (s : State) (p i : Nat) : (s.raise p i).xlat = s.xlat := by
  unfold State.raise; split <;> rfl
@[simp] theorem State.raise_links (s : State) (p i : Nat) : (s.raise p i).links = s.links := by
  unfold State.raise; split <;> rfl
@[simp] theorem State.raise_hvu (s : State) (p i : Nat) : (s.raise p i).hvu = s.hvu := by
  unfold State.raise; split <;> rfl
@[simp] theorem State.raise_sch (s : State) (p i : Nat) : (s.raise p i).sch = s.sch := by
  unfold State.raise; split <;> rfl
@[simp] theorem State.raise_kvd (s : State) (p i : Nat) : (s.raise p i).kvd = s.kvd := by
  unfold State.raise; split <;> rfl
@[simp] theorem State.raise_input (s : State) (p i : Nat) : (s.raise p i).input = s.input := by
  unfold State.raise; split <;> rfl
@[simp] theorem State.raise_runs (s : State) (p i : Nat) : (s.raise p i).runs = s.runs := by
  unfold State.raise; split <;> rfl
@[simp] theorem State.raise_islands (s : State) (p i : Nat) : (s.raise p i).islands = s.islands := by
  unfold State.raise; split <;> rfl
@[simp] theorem State.raise_busyAt (s : State) (p i : Nat) : (s.raise p i).busyAt = s.busyAt := by
  unfold State.raise; split <;> rfl
@[simp] theorem State.raise_power (s : State) (p i : Nat) : (s.raise p i).power = s.power := by
  unfold State.raise; split <;> rfl
@[simp] theorem State.raise_evh (s : State) (p i : Nat) : (s.raise p i).evh = s.evh := by
  unfold State.raise; split <;> rfl
@[simp] theorem State.raise_ctl (s : State) (p i : Nat) : (s.raise p i).ctl = s.ctl := by
  unfold State.raise; split <;> rfl
@[simp] theorem State.raise_flm (s : State) (p i : Nat) : (s.raise p i).flm = s.flm := by
  unfold State.raise; split <;> rfl
@[simp] theorem State.raise_trb (s : State) (p i : Nat) : (s.raise p i).trb = s.trb := by
  unfold State.raise; split <;> rfl
@[simp] theorem State.raise_mgc (s : State) (p i : Nat) : (s.raise p i).mgc = s.mgc := by
  unfold State.raise; split <;> rfl
@[simp] theorem State.raise_pins (s : State) (p i : Nat) : (s.raise p i).pins = s.pins := by
  unfold State.raise; split <;> rfl

@[simp] theorem State.emit_pending (s : State) (x : Sent) : (s.emit x).pending = s.pending := rfl
@[simp] theorem State.emit_free (s : State) (x : Sent) : (s.emit x).free = s.free := rfl
@[simp] theorem State.emit_dev (s : State) (x : Sent) : (s.emit x).dev = s.dev := rfl
@[simp] theorem State.emit_regs (s : State) (x : Sent) : (s.emit x).regs = s.regs := rfl
@[simp] theorem State.emit_raised (s : State) (x : Sent) : (s.emit x).raised = s.raised := rfl
@[simp] theorem State.emit_signals (s : State) (x : Sent) : (s.emit x).signals = s.signals := rfl
@[simp] theorem State.emit_txns (s : State) (x : Sent) : (s.emit x).txns = s.txns := rfl
@[simp] theorem State.emit_nextTag (s : State) (x : Sent) : (s.emit x).nextTag = s.nextTag := rfl
@[simp] theorem State.emit_sites (s : State) (x : Sent) : (s.emit x).sites = s.sites := rfl
@[simp] theorem State.emit_cores (s : State) (x : Sent) : (s.emit x).cores = s.cores := rfl
@[simp] theorem State.emit_tiers (s : State) (x : Sent) : (s.emit x).tiers = s.tiers := rfl
@[simp] theorem State.emit_xlat (s : State) (x : Sent) : (s.emit x).xlat = s.xlat := rfl
@[simp] theorem State.emit_links (s : State) (x : Sent) : (s.emit x).links = s.links := rfl
@[simp] theorem State.emit_hvu (s : State) (x : Sent) : (s.emit x).hvu = s.hvu := rfl
@[simp] theorem State.emit_sch (s : State) (x : Sent) : (s.emit x).sch = s.sch := rfl
@[simp] theorem State.emit_kvd (s : State) (x : Sent) : (s.emit x).kvd = s.kvd := rfl
@[simp] theorem State.emit_input (s : State) (x : Sent) : (s.emit x).input = s.input := rfl
@[simp] theorem State.emit_runs (s : State) (x : Sent) : (s.emit x).runs = s.runs := rfl
@[simp] theorem State.emit_islands (s : State) (x : Sent) : (s.emit x).islands = s.islands := rfl
@[simp] theorem State.emit_busyAt (s : State) (x : Sent) : (s.emit x).busyAt = s.busyAt := rfl
@[simp] theorem State.emit_power (s : State) (x : Sent) : (s.emit x).power = s.power := rfl
@[simp] theorem State.emit_evh (s : State) (x : Sent) : (s.emit x).evh = s.evh := rfl
@[simp] theorem State.emit_ctl (s : State) (x : Sent) : (s.emit x).ctl = s.ctl := rfl
@[simp] theorem State.emit_flm (s : State) (x : Sent) : (s.emit x).flm = s.flm := rfl
@[simp] theorem State.emit_trb (s : State) (x : Sent) : (s.emit x).trb = s.trb := rfl
@[simp] theorem State.emit_mgc (s : State) (x : Sent) : (s.emit x).mgc = s.mgc := rfl
@[simp] theorem State.emit_pins (s : State) (x : Sent) : (s.emit x).pins = s.pins := rfl

@[simp] theorem State.setCore_pending (s : State) (n : Nat) (c : Core) : (s.setCore n c).pending = s.pending := rfl
@[simp] theorem State.setCore_free (s : State) (n : Nat) (c : Core) : (s.setCore n c).free = s.free := rfl
@[simp] theorem State.setCore_sent (s : State) (n : Nat) (c : Core) : (s.setCore n c).sent = s.sent := rfl
@[simp] theorem State.setCore_dev (s : State) (n : Nat) (c : Core) : (s.setCore n c).dev = s.dev := rfl
@[simp] theorem State.setCore_regs (s : State) (n : Nat) (c : Core) : (s.setCore n c).regs = s.regs := rfl
@[simp] theorem State.setCore_raised (s : State) (n : Nat) (c : Core) : (s.setCore n c).raised = s.raised := rfl
@[simp] theorem State.setCore_signals (s : State) (n : Nat) (c : Core) : (s.setCore n c).signals = s.signals := rfl
@[simp] theorem State.setCore_txns (s : State) (n : Nat) (c : Core) : (s.setCore n c).txns = s.txns := rfl
@[simp] theorem State.setCore_nextTag (s : State) (n : Nat) (c : Core) : (s.setCore n c).nextTag = s.nextTag := rfl
@[simp] theorem State.setCore_sites (s : State) (n : Nat) (c : Core) : (s.setCore n c).sites = s.sites := rfl
@[simp] theorem State.setCore_tiers (s : State) (n : Nat) (c : Core) : (s.setCore n c).tiers = s.tiers := rfl
@[simp] theorem State.setCore_xlat (s : State) (n : Nat) (c : Core) : (s.setCore n c).xlat = s.xlat := rfl
@[simp] theorem State.setCore_links (s : State) (n : Nat) (c : Core) : (s.setCore n c).links = s.links := rfl
@[simp] theorem State.setCore_hvu (s : State) (n : Nat) (c : Core) : (s.setCore n c).hvu = s.hvu := rfl
@[simp] theorem State.setCore_sch (s : State) (n : Nat) (c : Core) : (s.setCore n c).sch = s.sch := rfl
@[simp] theorem State.setCore_kvd (s : State) (n : Nat) (c : Core) : (s.setCore n c).kvd = s.kvd := rfl
@[simp] theorem State.setCore_input (s : State) (n : Nat) (c : Core) : (s.setCore n c).input = s.input := rfl
@[simp] theorem State.setCore_runs (s : State) (n : Nat) (c : Core) : (s.setCore n c).runs = s.runs := rfl
@[simp] theorem State.setCore_islands (s : State) (n : Nat) (c : Core) : (s.setCore n c).islands = s.islands := rfl
@[simp] theorem State.setCore_busyAt (s : State) (n : Nat) (c : Core) : (s.setCore n c).busyAt = s.busyAt := rfl
@[simp] theorem State.setCore_power (s : State) (n : Nat) (c : Core) : (s.setCore n c).power = s.power := rfl
@[simp] theorem State.setCore_evh (s : State) (n : Nat) (c : Core) : (s.setCore n c).evh = s.evh := rfl
@[simp] theorem State.setCore_ctl (s : State) (n : Nat) (c : Core) : (s.setCore n c).ctl = s.ctl := rfl
@[simp] theorem State.setCore_flm (s : State) (n : Nat) (c : Core) : (s.setCore n c).flm = s.flm := rfl
@[simp] theorem State.setCore_trb (s : State) (n : Nat) (c : Core) : (s.setCore n c).trb = s.trb := rfl
@[simp] theorem State.setCore_mgc (s : State) (n : Nat) (c : Core) : (s.setCore n c).mgc = s.mgc := rfl
@[simp] theorem State.setCore_pins (s : State) (n : Nat) (c : Core) : (s.setCore n c).pins = s.pins := rfl

@[simp] theorem State.onCore_pending (s : State) (n : Nat) (f : Core → Core) : (s.onCore n f).pending = s.pending := rfl
@[simp] theorem State.onCore_free (s : State) (n : Nat) (f : Core → Core) : (s.onCore n f).free = s.free := rfl
@[simp] theorem State.onCore_sent (s : State) (n : Nat) (f : Core → Core) : (s.onCore n f).sent = s.sent := rfl
@[simp] theorem State.onCore_dev (s : State) (n : Nat) (f : Core → Core) : (s.onCore n f).dev = s.dev := rfl
@[simp] theorem State.onCore_regs (s : State) (n : Nat) (f : Core → Core) : (s.onCore n f).regs = s.regs := rfl
@[simp] theorem State.onCore_raised (s : State) (n : Nat) (f : Core → Core) : (s.onCore n f).raised = s.raised := rfl
@[simp] theorem State.onCore_signals (s : State) (n : Nat) (f : Core → Core) : (s.onCore n f).signals = s.signals := rfl
@[simp] theorem State.onCore_txns (s : State) (n : Nat) (f : Core → Core) : (s.onCore n f).txns = s.txns := rfl
@[simp] theorem State.onCore_nextTag (s : State) (n : Nat) (f : Core → Core) : (s.onCore n f).nextTag = s.nextTag := rfl
@[simp] theorem State.onCore_sites (s : State) (n : Nat) (f : Core → Core) : (s.onCore n f).sites = s.sites := rfl
@[simp] theorem State.onCore_tiers (s : State) (n : Nat) (f : Core → Core) : (s.onCore n f).tiers = s.tiers := rfl
@[simp] theorem State.onCore_xlat (s : State) (n : Nat) (f : Core → Core) : (s.onCore n f).xlat = s.xlat := rfl
@[simp] theorem State.onCore_links (s : State) (n : Nat) (f : Core → Core) : (s.onCore n f).links = s.links := rfl
@[simp] theorem State.onCore_hvu (s : State) (n : Nat) (f : Core → Core) : (s.onCore n f).hvu = s.hvu := rfl
@[simp] theorem State.onCore_sch (s : State) (n : Nat) (f : Core → Core) : (s.onCore n f).sch = s.sch := rfl
@[simp] theorem State.onCore_kvd (s : State) (n : Nat) (f : Core → Core) : (s.onCore n f).kvd = s.kvd := rfl
@[simp] theorem State.onCore_input (s : State) (n : Nat) (f : Core → Core) : (s.onCore n f).input = s.input := rfl
@[simp] theorem State.onCore_runs (s : State) (n : Nat) (f : Core → Core) : (s.onCore n f).runs = s.runs := rfl
@[simp] theorem State.onCore_islands (s : State) (n : Nat) (f : Core → Core) : (s.onCore n f).islands = s.islands := rfl
@[simp] theorem State.onCore_busyAt (s : State) (n : Nat) (f : Core → Core) : (s.onCore n f).busyAt = s.busyAt := rfl
@[simp] theorem State.onCore_power (s : State) (n : Nat) (f : Core → Core) : (s.onCore n f).power = s.power := rfl
@[simp] theorem State.onCore_evh (s : State) (n : Nat) (f : Core → Core) : (s.onCore n f).evh = s.evh := rfl
@[simp] theorem State.onCore_ctl (s : State) (n : Nat) (f : Core → Core) : (s.onCore n f).ctl = s.ctl := rfl
@[simp] theorem State.onCore_flm (s : State) (n : Nat) (f : Core → Core) : (s.onCore n f).flm = s.flm := rfl
@[simp] theorem State.onCore_trb (s : State) (n : Nat) (f : Core → Core) : (s.onCore n f).trb = s.trb := rfl
@[simp] theorem State.onCore_mgc (s : State) (n : Nat) (f : Core → Core) : (s.onCore n f).mgc = s.mgc := rfl
@[simp] theorem State.onCore_pins (s : State) (n : Nat) (f : Core → Core) : (s.onCore n f).pins = s.pins := rfl

@[simp] theorem State.setIsland_pending (s : State) (p st : Nat) : (s.setIsland p st).pending = s.pending := rfl
@[simp] theorem State.setIsland_free (s : State) (p st : Nat) : (s.setIsland p st).free = s.free := rfl
@[simp] theorem State.setIsland_sent (s : State) (p st : Nat) : (s.setIsland p st).sent = s.sent := rfl
@[simp] theorem State.setIsland_dev (s : State) (p st : Nat) : (s.setIsland p st).dev = s.dev := rfl
@[simp] theorem State.setIsland_regs (s : State) (p st : Nat) : (s.setIsland p st).regs = s.regs := rfl
@[simp] theorem State.setIsland_raised (s : State) (p st : Nat) : (s.setIsland p st).raised = s.raised := rfl
@[simp] theorem State.setIsland_signals (s : State) (p st : Nat) : (s.setIsland p st).signals = s.signals := rfl
@[simp] theorem State.setIsland_txns (s : State) (p st : Nat) : (s.setIsland p st).txns = s.txns := rfl
@[simp] theorem State.setIsland_nextTag (s : State) (p st : Nat) : (s.setIsland p st).nextTag = s.nextTag := rfl
@[simp] theorem State.setIsland_sites (s : State) (p st : Nat) : (s.setIsland p st).sites = s.sites := rfl
@[simp] theorem State.setIsland_cores (s : State) (p st : Nat) : (s.setIsland p st).cores = s.cores := rfl
@[simp] theorem State.setIsland_tiers (s : State) (p st : Nat) : (s.setIsland p st).tiers = s.tiers := rfl
@[simp] theorem State.setIsland_xlat (s : State) (p st : Nat) : (s.setIsland p st).xlat = s.xlat := rfl
@[simp] theorem State.setIsland_links (s : State) (p st : Nat) : (s.setIsland p st).links = s.links := rfl
@[simp] theorem State.setIsland_hvu (s : State) (p st : Nat) : (s.setIsland p st).hvu = s.hvu := rfl
@[simp] theorem State.setIsland_sch (s : State) (p st : Nat) : (s.setIsland p st).sch = s.sch := rfl
@[simp] theorem State.setIsland_kvd (s : State) (p st : Nat) : (s.setIsland p st).kvd = s.kvd := rfl
@[simp] theorem State.setIsland_input (s : State) (p st : Nat) : (s.setIsland p st).input = s.input := rfl
@[simp] theorem State.setIsland_runs (s : State) (p st : Nat) : (s.setIsland p st).runs = s.runs := rfl
@[simp] theorem State.setIsland_busyAt (s : State) (p st : Nat) : (s.setIsland p st).busyAt = s.busyAt := rfl
@[simp] theorem State.setIsland_power (s : State) (p st : Nat) : (s.setIsland p st).power = s.power := rfl
@[simp] theorem State.setIsland_evh (s : State) (p st : Nat) : (s.setIsland p st).evh = s.evh := rfl
@[simp] theorem State.setIsland_ctl (s : State) (p st : Nat) : (s.setIsland p st).ctl = s.ctl := rfl
@[simp] theorem State.setIsland_flm (s : State) (p st : Nat) : (s.setIsland p st).flm = s.flm := rfl
@[simp] theorem State.setIsland_trb (s : State) (p st : Nat) : (s.setIsland p st).trb = s.trb := rfl
@[simp] theorem State.setIsland_mgc (s : State) (p st : Nat) : (s.setIsland p st).mgc = s.mgc := rfl
@[simp] theorem State.setIsland_pins (s : State) (p st : Nat) : (s.setIsland p st).pins = s.pins := rfl

@[simp] theorem State.setPort_pending (s : State) (p : Nat) (x : Port) : (s.setPort p x).pending = s.pending := rfl
@[simp] theorem State.setPort_free (s : State) (p : Nat) (x : Port) : (s.setPort p x).free = s.free := rfl
@[simp] theorem State.setPort_sent (s : State) (p : Nat) (x : Port) : (s.setPort p x).sent = s.sent := rfl
@[simp] theorem State.setPort_dev (s : State) (p : Nat) (x : Port) : (s.setPort p x).dev = s.dev := rfl
@[simp] theorem State.setPort_regs (s : State) (p : Nat) (x : Port) : (s.setPort p x).regs = s.regs := rfl
@[simp] theorem State.setPort_raised (s : State) (p : Nat) (x : Port) : (s.setPort p x).raised = s.raised := rfl
@[simp] theorem State.setPort_signals (s : State) (p : Nat) (x : Port) : (s.setPort p x).signals = s.signals := rfl
@[simp] theorem State.setPort_txns (s : State) (p : Nat) (x : Port) : (s.setPort p x).txns = s.txns := rfl
@[simp] theorem State.setPort_nextTag (s : State) (p : Nat) (x : Port) : (s.setPort p x).nextTag = s.nextTag := rfl
@[simp] theorem State.setPort_sites (s : State) (p : Nat) (x : Port) : (s.setPort p x).sites = s.sites := rfl
@[simp] theorem State.setPort_cores (s : State) (p : Nat) (x : Port) : (s.setPort p x).cores = s.cores := rfl
@[simp] theorem State.setPort_tiers (s : State) (p : Nat) (x : Port) : (s.setPort p x).tiers = s.tiers := rfl
@[simp] theorem State.setPort_xlat (s : State) (p : Nat) (x : Port) : (s.setPort p x).xlat = s.xlat := rfl
@[simp] theorem State.setPort_hvu (s : State) (p : Nat) (x : Port) : (s.setPort p x).hvu = s.hvu := rfl
@[simp] theorem State.setPort_sch (s : State) (p : Nat) (x : Port) : (s.setPort p x).sch = s.sch := rfl
@[simp] theorem State.setPort_kvd (s : State) (p : Nat) (x : Port) : (s.setPort p x).kvd = s.kvd := rfl
@[simp] theorem State.setPort_input (s : State) (p : Nat) (x : Port) : (s.setPort p x).input = s.input := rfl
@[simp] theorem State.setPort_runs (s : State) (p : Nat) (x : Port) : (s.setPort p x).runs = s.runs := rfl
@[simp] theorem State.setPort_islands (s : State) (p : Nat) (x : Port) : (s.setPort p x).islands = s.islands := rfl
@[simp] theorem State.setPort_busyAt (s : State) (p : Nat) (x : Port) : (s.setPort p x).busyAt = s.busyAt := rfl
@[simp] theorem State.setPort_power (s : State) (p : Nat) (x : Port) : (s.setPort p x).power = s.power := rfl
@[simp] theorem State.setPort_evh (s : State) (p : Nat) (x : Port) : (s.setPort p x).evh = s.evh := rfl
@[simp] theorem State.setPort_ctl (s : State) (p : Nat) (x : Port) : (s.setPort p x).ctl = s.ctl := rfl
@[simp] theorem State.setPort_flm (s : State) (p : Nat) (x : Port) : (s.setPort p x).flm = s.flm := rfl
@[simp] theorem State.setPort_trb (s : State) (p : Nat) (x : Port) : (s.setPort p x).trb = s.trb := rfl
@[simp] theorem State.setPort_mgc (s : State) (p : Nat) (x : Port) : (s.setPort p x).mgc = s.mgc := rfl
@[simp] theorem State.setPort_pins (s : State) (p : Nat) (x : Port) : (s.setPort p x).pins = s.pins := rfl

@[simp] theorem State.setHurdle_pending (s : State) (h : Nat) (x : Hurdle) : (s.setHurdle h x).pending = s.pending := rfl
@[simp] theorem State.setHurdle_free (s : State) (h : Nat) (x : Hurdle) : (s.setHurdle h x).free = s.free := rfl
@[simp] theorem State.setHurdle_sent (s : State) (h : Nat) (x : Hurdle) : (s.setHurdle h x).sent = s.sent := rfl
@[simp] theorem State.setHurdle_dev (s : State) (h : Nat) (x : Hurdle) : (s.setHurdle h x).dev = s.dev := rfl
@[simp] theorem State.setHurdle_regs (s : State) (h : Nat) (x : Hurdle) : (s.setHurdle h x).regs = s.regs := rfl
@[simp] theorem State.setHurdle_raised (s : State) (h : Nat) (x : Hurdle) : (s.setHurdle h x).raised = s.raised := rfl
@[simp] theorem State.setHurdle_signals (s : State) (h : Nat) (x : Hurdle) : (s.setHurdle h x).signals = s.signals := rfl
@[simp] theorem State.setHurdle_txns (s : State) (h : Nat) (x : Hurdle) : (s.setHurdle h x).txns = s.txns := rfl
@[simp] theorem State.setHurdle_nextTag (s : State) (h : Nat) (x : Hurdle) : (s.setHurdle h x).nextTag = s.nextTag := rfl
@[simp] theorem State.setHurdle_sites (s : State) (h : Nat) (x : Hurdle) : (s.setHurdle h x).sites = s.sites := rfl
@[simp] theorem State.setHurdle_cores (s : State) (h : Nat) (x : Hurdle) : (s.setHurdle h x).cores = s.cores := rfl
@[simp] theorem State.setHurdle_tiers (s : State) (h : Nat) (x : Hurdle) : (s.setHurdle h x).tiers = s.tiers := rfl
@[simp] theorem State.setHurdle_xlat (s : State) (h : Nat) (x : Hurdle) : (s.setHurdle h x).xlat = s.xlat := rfl
@[simp] theorem State.setHurdle_links (s : State) (h : Nat) (x : Hurdle) : (s.setHurdle h x).links = s.links := rfl
@[simp] theorem State.setHurdle_hvu (s : State) (h : Nat) (x : Hurdle) : (s.setHurdle h x).hvu = s.hvu := rfl
@[simp] theorem State.setHurdle_kvd (s : State) (h : Nat) (x : Hurdle) : (s.setHurdle h x).kvd = s.kvd := rfl
@[simp] theorem State.setHurdle_input (s : State) (h : Nat) (x : Hurdle) : (s.setHurdle h x).input = s.input := rfl
@[simp] theorem State.setHurdle_runs (s : State) (h : Nat) (x : Hurdle) : (s.setHurdle h x).runs = s.runs := rfl
@[simp] theorem State.setHurdle_islands (s : State) (h : Nat) (x : Hurdle) : (s.setHurdle h x).islands = s.islands := rfl
@[simp] theorem State.setHurdle_busyAt (s : State) (h : Nat) (x : Hurdle) : (s.setHurdle h x).busyAt = s.busyAt := rfl
@[simp] theorem State.setHurdle_power (s : State) (h : Nat) (x : Hurdle) : (s.setHurdle h x).power = s.power := rfl
@[simp] theorem State.setHurdle_evh (s : State) (h : Nat) (x : Hurdle) : (s.setHurdle h x).evh = s.evh := rfl
@[simp] theorem State.setHurdle_ctl (s : State) (h : Nat) (x : Hurdle) : (s.setHurdle h x).ctl = s.ctl := rfl
@[simp] theorem State.setHurdle_flm (s : State) (h : Nat) (x : Hurdle) : (s.setHurdle h x).flm = s.flm := rfl
@[simp] theorem State.setHurdle_trb (s : State) (h : Nat) (x : Hurdle) : (s.setHurdle h x).trb = s.trb := rfl
@[simp] theorem State.setHurdle_mgc (s : State) (h : Nat) (x : Hurdle) : (s.setHurdle h x).mgc = s.mgc := rfl
@[simp] theorem State.setHurdle_pins (s : State) (h : Nat) (x : Hurdle) : (s.setHurdle h x).pins = s.pins := rfl

@[simp] theorem State.onSch_pending (s : State) (f : Sch → Sch) : (s.onSch f).pending = s.pending := rfl
@[simp] theorem State.onSch_free (s : State) (f : Sch → Sch) : (s.onSch f).free = s.free := rfl
@[simp] theorem State.onSch_sent (s : State) (f : Sch → Sch) : (s.onSch f).sent = s.sent := rfl
@[simp] theorem State.onSch_dev (s : State) (f : Sch → Sch) : (s.onSch f).dev = s.dev := rfl
@[simp] theorem State.onSch_regs (s : State) (f : Sch → Sch) : (s.onSch f).regs = s.regs := rfl
@[simp] theorem State.onSch_raised (s : State) (f : Sch → Sch) : (s.onSch f).raised = s.raised := rfl
@[simp] theorem State.onSch_signals (s : State) (f : Sch → Sch) : (s.onSch f).signals = s.signals := rfl
@[simp] theorem State.onSch_txns (s : State) (f : Sch → Sch) : (s.onSch f).txns = s.txns := rfl
@[simp] theorem State.onSch_nextTag (s : State) (f : Sch → Sch) : (s.onSch f).nextTag = s.nextTag := rfl
@[simp] theorem State.onSch_sites (s : State) (f : Sch → Sch) : (s.onSch f).sites = s.sites := rfl
@[simp] theorem State.onSch_cores (s : State) (f : Sch → Sch) : (s.onSch f).cores = s.cores := rfl
@[simp] theorem State.onSch_tiers (s : State) (f : Sch → Sch) : (s.onSch f).tiers = s.tiers := rfl
@[simp] theorem State.onSch_xlat (s : State) (f : Sch → Sch) : (s.onSch f).xlat = s.xlat := rfl
@[simp] theorem State.onSch_links (s : State) (f : Sch → Sch) : (s.onSch f).links = s.links := rfl
@[simp] theorem State.onSch_hvu (s : State) (f : Sch → Sch) : (s.onSch f).hvu = s.hvu := rfl
@[simp] theorem State.onSch_kvd (s : State) (f : Sch → Sch) : (s.onSch f).kvd = s.kvd := rfl
@[simp] theorem State.onSch_input (s : State) (f : Sch → Sch) : (s.onSch f).input = s.input := rfl
@[simp] theorem State.onSch_runs (s : State) (f : Sch → Sch) : (s.onSch f).runs = s.runs := rfl
@[simp] theorem State.onSch_islands (s : State) (f : Sch → Sch) : (s.onSch f).islands = s.islands := rfl
@[simp] theorem State.onSch_busyAt (s : State) (f : Sch → Sch) : (s.onSch f).busyAt = s.busyAt := rfl
@[simp] theorem State.onSch_power (s : State) (f : Sch → Sch) : (s.onSch f).power = s.power := rfl
@[simp] theorem State.onSch_evh (s : State) (f : Sch → Sch) : (s.onSch f).evh = s.evh := rfl
@[simp] theorem State.onSch_ctl (s : State) (f : Sch → Sch) : (s.onSch f).ctl = s.ctl := rfl
@[simp] theorem State.onSch_flm (s : State) (f : Sch → Sch) : (s.onSch f).flm = s.flm := rfl
@[simp] theorem State.onSch_trb (s : State) (f : Sch → Sch) : (s.onSch f).trb = s.trb := rfl
@[simp] theorem State.onSch_mgc (s : State) (f : Sch → Sch) : (s.onSch f).mgc = s.mgc := rfl
@[simp] theorem State.onSch_pins (s : State) (f : Sch → Sch) : (s.onSch f).pins = s.pins := rfl

@[simp] theorem State.onHvu_pending (s : State) (f : Hvu → Hvu) : (s.onHvu f).pending = s.pending := rfl
@[simp] theorem State.onHvu_free (s : State) (f : Hvu → Hvu) : (s.onHvu f).free = s.free := rfl
@[simp] theorem State.onHvu_sent (s : State) (f : Hvu → Hvu) : (s.onHvu f).sent = s.sent := rfl
@[simp] theorem State.onHvu_dev (s : State) (f : Hvu → Hvu) : (s.onHvu f).dev = s.dev := rfl
@[simp] theorem State.onHvu_regs (s : State) (f : Hvu → Hvu) : (s.onHvu f).regs = s.regs := rfl
@[simp] theorem State.onHvu_raised (s : State) (f : Hvu → Hvu) : (s.onHvu f).raised = s.raised := rfl
@[simp] theorem State.onHvu_signals (s : State) (f : Hvu → Hvu) : (s.onHvu f).signals = s.signals := rfl
@[simp] theorem State.onHvu_txns (s : State) (f : Hvu → Hvu) : (s.onHvu f).txns = s.txns := rfl
@[simp] theorem State.onHvu_nextTag (s : State) (f : Hvu → Hvu) : (s.onHvu f).nextTag = s.nextTag := rfl
@[simp] theorem State.onHvu_sites (s : State) (f : Hvu → Hvu) : (s.onHvu f).sites = s.sites := rfl
@[simp] theorem State.onHvu_cores (s : State) (f : Hvu → Hvu) : (s.onHvu f).cores = s.cores := rfl
@[simp] theorem State.onHvu_tiers (s : State) (f : Hvu → Hvu) : (s.onHvu f).tiers = s.tiers := rfl
@[simp] theorem State.onHvu_xlat (s : State) (f : Hvu → Hvu) : (s.onHvu f).xlat = s.xlat := rfl
@[simp] theorem State.onHvu_links (s : State) (f : Hvu → Hvu) : (s.onHvu f).links = s.links := rfl
@[simp] theorem State.onHvu_sch (s : State) (f : Hvu → Hvu) : (s.onHvu f).sch = s.sch := rfl
@[simp] theorem State.onHvu_kvd (s : State) (f : Hvu → Hvu) : (s.onHvu f).kvd = s.kvd := rfl
@[simp] theorem State.onHvu_input (s : State) (f : Hvu → Hvu) : (s.onHvu f).input = s.input := rfl
@[simp] theorem State.onHvu_runs (s : State) (f : Hvu → Hvu) : (s.onHvu f).runs = s.runs := rfl
@[simp] theorem State.onHvu_islands (s : State) (f : Hvu → Hvu) : (s.onHvu f).islands = s.islands := rfl
@[simp] theorem State.onHvu_busyAt (s : State) (f : Hvu → Hvu) : (s.onHvu f).busyAt = s.busyAt := rfl
@[simp] theorem State.onHvu_power (s : State) (f : Hvu → Hvu) : (s.onHvu f).power = s.power := rfl
@[simp] theorem State.onHvu_evh (s : State) (f : Hvu → Hvu) : (s.onHvu f).evh = s.evh := rfl
@[simp] theorem State.onHvu_ctl (s : State) (f : Hvu → Hvu) : (s.onHvu f).ctl = s.ctl := rfl
@[simp] theorem State.onHvu_flm (s : State) (f : Hvu → Hvu) : (s.onHvu f).flm = s.flm := rfl
@[simp] theorem State.onHvu_trb (s : State) (f : Hvu → Hvu) : (s.onHvu f).trb = s.trb := rfl
@[simp] theorem State.onHvu_mgc (s : State) (f : Hvu → Hvu) : (s.onHvu f).mgc = s.mgc := rfl
@[simp] theorem State.onHvu_pins (s : State) (f : Hvu → Hvu) : (s.onHvu f).pins = s.pins := rfl

@[simp] theorem State.onKvd_pending (s : State) (f : Kvd → Kvd) : (s.onKvd f).pending = s.pending := rfl
@[simp] theorem State.onKvd_free (s : State) (f : Kvd → Kvd) : (s.onKvd f).free = s.free := rfl
@[simp] theorem State.onKvd_sent (s : State) (f : Kvd → Kvd) : (s.onKvd f).sent = s.sent := rfl
@[simp] theorem State.onKvd_dev (s : State) (f : Kvd → Kvd) : (s.onKvd f).dev = s.dev := rfl
@[simp] theorem State.onKvd_regs (s : State) (f : Kvd → Kvd) : (s.onKvd f).regs = s.regs := rfl
@[simp] theorem State.onKvd_raised (s : State) (f : Kvd → Kvd) : (s.onKvd f).raised = s.raised := rfl
@[simp] theorem State.onKvd_signals (s : State) (f : Kvd → Kvd) : (s.onKvd f).signals = s.signals := rfl
@[simp] theorem State.onKvd_txns (s : State) (f : Kvd → Kvd) : (s.onKvd f).txns = s.txns := rfl
@[simp] theorem State.onKvd_nextTag (s : State) (f : Kvd → Kvd) : (s.onKvd f).nextTag = s.nextTag := rfl
@[simp] theorem State.onKvd_sites (s : State) (f : Kvd → Kvd) : (s.onKvd f).sites = s.sites := rfl
@[simp] theorem State.onKvd_cores (s : State) (f : Kvd → Kvd) : (s.onKvd f).cores = s.cores := rfl
@[simp] theorem State.onKvd_tiers (s : State) (f : Kvd → Kvd) : (s.onKvd f).tiers = s.tiers := rfl
@[simp] theorem State.onKvd_xlat (s : State) (f : Kvd → Kvd) : (s.onKvd f).xlat = s.xlat := rfl
@[simp] theorem State.onKvd_links (s : State) (f : Kvd → Kvd) : (s.onKvd f).links = s.links := rfl
@[simp] theorem State.onKvd_hvu (s : State) (f : Kvd → Kvd) : (s.onKvd f).hvu = s.hvu := rfl
@[simp] theorem State.onKvd_sch (s : State) (f : Kvd → Kvd) : (s.onKvd f).sch = s.sch := rfl
@[simp] theorem State.onKvd_input (s : State) (f : Kvd → Kvd) : (s.onKvd f).input = s.input := rfl
@[simp] theorem State.onKvd_runs (s : State) (f : Kvd → Kvd) : (s.onKvd f).runs = s.runs := rfl
@[simp] theorem State.onKvd_islands (s : State) (f : Kvd → Kvd) : (s.onKvd f).islands = s.islands := rfl
@[simp] theorem State.onKvd_busyAt (s : State) (f : Kvd → Kvd) : (s.onKvd f).busyAt = s.busyAt := rfl
@[simp] theorem State.onKvd_power (s : State) (f : Kvd → Kvd) : (s.onKvd f).power = s.power := rfl
@[simp] theorem State.onKvd_evh (s : State) (f : Kvd → Kvd) : (s.onKvd f).evh = s.evh := rfl
@[simp] theorem State.onKvd_ctl (s : State) (f : Kvd → Kvd) : (s.onKvd f).ctl = s.ctl := rfl
@[simp] theorem State.onKvd_flm (s : State) (f : Kvd → Kvd) : (s.onKvd f).flm = s.flm := rfl
@[simp] theorem State.onKvd_trb (s : State) (f : Kvd → Kvd) : (s.onKvd f).trb = s.trb := rfl
@[simp] theorem State.onKvd_mgc (s : State) (f : Kvd → Kvd) : (s.onKvd f).mgc = s.mgc := rfl
@[simp] theorem State.onKvd_pins (s : State) (f : Kvd → Kvd) : (s.onKvd f).pins = s.pins := rfl

@[simp] theorem State.onInput_pending (s : State) (f : Input → Input) : (s.onInput f).pending = s.pending := rfl
@[simp] theorem State.onInput_free (s : State) (f : Input → Input) : (s.onInput f).free = s.free := rfl
@[simp] theorem State.onInput_sent (s : State) (f : Input → Input) : (s.onInput f).sent = s.sent := rfl
@[simp] theorem State.onInput_dev (s : State) (f : Input → Input) : (s.onInput f).dev = s.dev := rfl
@[simp] theorem State.onInput_regs (s : State) (f : Input → Input) : (s.onInput f).regs = s.regs := rfl
@[simp] theorem State.onInput_raised (s : State) (f : Input → Input) : (s.onInput f).raised = s.raised := rfl
@[simp] theorem State.onInput_signals (s : State) (f : Input → Input) : (s.onInput f).signals = s.signals := rfl
@[simp] theorem State.onInput_txns (s : State) (f : Input → Input) : (s.onInput f).txns = s.txns := rfl
@[simp] theorem State.onInput_nextTag (s : State) (f : Input → Input) : (s.onInput f).nextTag = s.nextTag := rfl
@[simp] theorem State.onInput_sites (s : State) (f : Input → Input) : (s.onInput f).sites = s.sites := rfl
@[simp] theorem State.onInput_cores (s : State) (f : Input → Input) : (s.onInput f).cores = s.cores := rfl
@[simp] theorem State.onInput_tiers (s : State) (f : Input → Input) : (s.onInput f).tiers = s.tiers := rfl
@[simp] theorem State.onInput_xlat (s : State) (f : Input → Input) : (s.onInput f).xlat = s.xlat := rfl
@[simp] theorem State.onInput_links (s : State) (f : Input → Input) : (s.onInput f).links = s.links := rfl
@[simp] theorem State.onInput_hvu (s : State) (f : Input → Input) : (s.onInput f).hvu = s.hvu := rfl
@[simp] theorem State.onInput_sch (s : State) (f : Input → Input) : (s.onInput f).sch = s.sch := rfl
@[simp] theorem State.onInput_kvd (s : State) (f : Input → Input) : (s.onInput f).kvd = s.kvd := rfl
@[simp] theorem State.onInput_runs (s : State) (f : Input → Input) : (s.onInput f).runs = s.runs := rfl
@[simp] theorem State.onInput_islands (s : State) (f : Input → Input) : (s.onInput f).islands = s.islands := rfl
@[simp] theorem State.onInput_busyAt (s : State) (f : Input → Input) : (s.onInput f).busyAt = s.busyAt := rfl
@[simp] theorem State.onInput_power (s : State) (f : Input → Input) : (s.onInput f).power = s.power := rfl
@[simp] theorem State.onInput_evh (s : State) (f : Input → Input) : (s.onInput f).evh = s.evh := rfl
@[simp] theorem State.onInput_ctl (s : State) (f : Input → Input) : (s.onInput f).ctl = s.ctl := rfl
@[simp] theorem State.onInput_flm (s : State) (f : Input → Input) : (s.onInput f).flm = s.flm := rfl
@[simp] theorem State.onInput_trb (s : State) (f : Input → Input) : (s.onInput f).trb = s.trb := rfl
@[simp] theorem State.onInput_mgc (s : State) (f : Input → Input) : (s.onInput f).mgc = s.mgc := rfl
@[simp] theorem State.onInput_pins (s : State) (f : Input → Input) : (s.onInput f).pins = s.pins := rfl

@[simp] theorem State.onFlm_pending (s : State) (f : Flm → Flm) : (s.onFlm f).pending = s.pending := rfl
@[simp] theorem State.onFlm_free (s : State) (f : Flm → Flm) : (s.onFlm f).free = s.free := rfl
@[simp] theorem State.onFlm_sent (s : State) (f : Flm → Flm) : (s.onFlm f).sent = s.sent := rfl
@[simp] theorem State.onFlm_dev (s : State) (f : Flm → Flm) : (s.onFlm f).dev = s.dev := rfl
@[simp] theorem State.onFlm_regs (s : State) (f : Flm → Flm) : (s.onFlm f).regs = s.regs := rfl
@[simp] theorem State.onFlm_raised (s : State) (f : Flm → Flm) : (s.onFlm f).raised = s.raised := rfl
@[simp] theorem State.onFlm_signals (s : State) (f : Flm → Flm) : (s.onFlm f).signals = s.signals := rfl
@[simp] theorem State.onFlm_txns (s : State) (f : Flm → Flm) : (s.onFlm f).txns = s.txns := rfl
@[simp] theorem State.onFlm_nextTag (s : State) (f : Flm → Flm) : (s.onFlm f).nextTag = s.nextTag := rfl
@[simp] theorem State.onFlm_sites (s : State) (f : Flm → Flm) : (s.onFlm f).sites = s.sites := rfl
@[simp] theorem State.onFlm_cores (s : State) (f : Flm → Flm) : (s.onFlm f).cores = s.cores := rfl
@[simp] theorem State.onFlm_tiers (s : State) (f : Flm → Flm) : (s.onFlm f).tiers = s.tiers := rfl
@[simp] theorem State.onFlm_xlat (s : State) (f : Flm → Flm) : (s.onFlm f).xlat = s.xlat := rfl
@[simp] theorem State.onFlm_links (s : State) (f : Flm → Flm) : (s.onFlm f).links = s.links := rfl
@[simp] theorem State.onFlm_hvu (s : State) (f : Flm → Flm) : (s.onFlm f).hvu = s.hvu := rfl
@[simp] theorem State.onFlm_sch (s : State) (f : Flm → Flm) : (s.onFlm f).sch = s.sch := rfl
@[simp] theorem State.onFlm_kvd (s : State) (f : Flm → Flm) : (s.onFlm f).kvd = s.kvd := rfl
@[simp] theorem State.onFlm_input (s : State) (f : Flm → Flm) : (s.onFlm f).input = s.input := rfl
@[simp] theorem State.onFlm_runs (s : State) (f : Flm → Flm) : (s.onFlm f).runs = s.runs := rfl
@[simp] theorem State.onFlm_islands (s : State) (f : Flm → Flm) : (s.onFlm f).islands = s.islands := rfl
@[simp] theorem State.onFlm_busyAt (s : State) (f : Flm → Flm) : (s.onFlm f).busyAt = s.busyAt := rfl
@[simp] theorem State.onFlm_power (s : State) (f : Flm → Flm) : (s.onFlm f).power = s.power := rfl
@[simp] theorem State.onFlm_evh (s : State) (f : Flm → Flm) : (s.onFlm f).evh = s.evh := rfl
@[simp] theorem State.onFlm_ctl (s : State) (f : Flm → Flm) : (s.onFlm f).ctl = s.ctl := rfl
@[simp] theorem State.onFlm_trb (s : State) (f : Flm → Flm) : (s.onFlm f).trb = s.trb := rfl
@[simp] theorem State.onFlm_mgc (s : State) (f : Flm → Flm) : (s.onFlm f).mgc = s.mgc := rfl
@[simp] theorem State.onFlm_pins (s : State) (f : Flm → Flm) : (s.onFlm f).pins = s.pins := rfl

@[simp] theorem State.onPacer_pending (s : State) (f : Pacer → Pacer) : (s.onPacer f).pending = s.pending := rfl
@[simp] theorem State.onPacer_free (s : State) (f : Pacer → Pacer) : (s.onPacer f).free = s.free := rfl
@[simp] theorem State.onPacer_sent (s : State) (f : Pacer → Pacer) : (s.onPacer f).sent = s.sent := rfl
@[simp] theorem State.onPacer_dev (s : State) (f : Pacer → Pacer) : (s.onPacer f).dev = s.dev := rfl
@[simp] theorem State.onPacer_regs (s : State) (f : Pacer → Pacer) : (s.onPacer f).regs = s.regs := rfl
@[simp] theorem State.onPacer_raised (s : State) (f : Pacer → Pacer) : (s.onPacer f).raised = s.raised := rfl
@[simp] theorem State.onPacer_signals (s : State) (f : Pacer → Pacer) : (s.onPacer f).signals = s.signals := rfl
@[simp] theorem State.onPacer_txns (s : State) (f : Pacer → Pacer) : (s.onPacer f).txns = s.txns := rfl
@[simp] theorem State.onPacer_nextTag (s : State) (f : Pacer → Pacer) : (s.onPacer f).nextTag = s.nextTag := rfl
@[simp] theorem State.onPacer_sites (s : State) (f : Pacer → Pacer) : (s.onPacer f).sites = s.sites := rfl
@[simp] theorem State.onPacer_cores (s : State) (f : Pacer → Pacer) : (s.onPacer f).cores = s.cores := rfl
@[simp] theorem State.onPacer_xlat (s : State) (f : Pacer → Pacer) : (s.onPacer f).xlat = s.xlat := rfl
@[simp] theorem State.onPacer_links (s : State) (f : Pacer → Pacer) : (s.onPacer f).links = s.links := rfl
@[simp] theorem State.onPacer_hvu (s : State) (f : Pacer → Pacer) : (s.onPacer f).hvu = s.hvu := rfl
@[simp] theorem State.onPacer_sch (s : State) (f : Pacer → Pacer) : (s.onPacer f).sch = s.sch := rfl
@[simp] theorem State.onPacer_kvd (s : State) (f : Pacer → Pacer) : (s.onPacer f).kvd = s.kvd := rfl
@[simp] theorem State.onPacer_input (s : State) (f : Pacer → Pacer) : (s.onPacer f).input = s.input := rfl
@[simp] theorem State.onPacer_runs (s : State) (f : Pacer → Pacer) : (s.onPacer f).runs = s.runs := rfl
@[simp] theorem State.onPacer_islands (s : State) (f : Pacer → Pacer) : (s.onPacer f).islands = s.islands := rfl
@[simp] theorem State.onPacer_busyAt (s : State) (f : Pacer → Pacer) : (s.onPacer f).busyAt = s.busyAt := rfl
@[simp] theorem State.onPacer_power (s : State) (f : Pacer → Pacer) : (s.onPacer f).power = s.power := rfl
@[simp] theorem State.onPacer_evh (s : State) (f : Pacer → Pacer) : (s.onPacer f).evh = s.evh := rfl
@[simp] theorem State.onPacer_ctl (s : State) (f : Pacer → Pacer) : (s.onPacer f).ctl = s.ctl := rfl
@[simp] theorem State.onPacer_flm (s : State) (f : Pacer → Pacer) : (s.onPacer f).flm = s.flm := rfl
@[simp] theorem State.onPacer_trb (s : State) (f : Pacer → Pacer) : (s.onPacer f).trb = s.trb := rfl
@[simp] theorem State.onPacer_mgc (s : State) (f : Pacer → Pacer) : (s.onPacer f).mgc = s.mgc := rfl
@[simp] theorem State.onPacer_pins (s : State) (f : Pacer → Pacer) : (s.onPacer f).pins = s.pins := rfl

@[simp] theorem State.moveOn_pending (s : State) (n : Nat) (x : Option LoopLevel) : (s.moveOn n x).pending = s.pending := rfl
@[simp] theorem State.moveOn_free (s : State) (n : Nat) (x : Option LoopLevel) : (s.moveOn n x).free = s.free := rfl
@[simp] theorem State.moveOn_sent (s : State) (n : Nat) (x : Option LoopLevel) : (s.moveOn n x).sent = s.sent := rfl
@[simp] theorem State.moveOn_dev (s : State) (n : Nat) (x : Option LoopLevel) : (s.moveOn n x).dev = s.dev := rfl
@[simp] theorem State.moveOn_regs (s : State) (n : Nat) (x : Option LoopLevel) : (s.moveOn n x).regs = s.regs := rfl
@[simp] theorem State.moveOn_raised (s : State) (n : Nat) (x : Option LoopLevel) : (s.moveOn n x).raised = s.raised := rfl
@[simp] theorem State.moveOn_signals (s : State) (n : Nat) (x : Option LoopLevel) : (s.moveOn n x).signals = s.signals := rfl
@[simp] theorem State.moveOn_txns (s : State) (n : Nat) (x : Option LoopLevel) : (s.moveOn n x).txns = s.txns := rfl
@[simp] theorem State.moveOn_nextTag (s : State) (n : Nat) (x : Option LoopLevel) : (s.moveOn n x).nextTag = s.nextTag := rfl
@[simp] theorem State.moveOn_sites (s : State) (n : Nat) (x : Option LoopLevel) : (s.moveOn n x).sites = s.sites := rfl
@[simp] theorem State.moveOn_tiers (s : State) (n : Nat) (x : Option LoopLevel) : (s.moveOn n x).tiers = s.tiers := rfl
@[simp] theorem State.moveOn_xlat (s : State) (n : Nat) (x : Option LoopLevel) : (s.moveOn n x).xlat = s.xlat := rfl
@[simp] theorem State.moveOn_links (s : State) (n : Nat) (x : Option LoopLevel) : (s.moveOn n x).links = s.links := rfl
@[simp] theorem State.moveOn_hvu (s : State) (n : Nat) (x : Option LoopLevel) : (s.moveOn n x).hvu = s.hvu := rfl
@[simp] theorem State.moveOn_sch (s : State) (n : Nat) (x : Option LoopLevel) : (s.moveOn n x).sch = s.sch := rfl
@[simp] theorem State.moveOn_kvd (s : State) (n : Nat) (x : Option LoopLevel) : (s.moveOn n x).kvd = s.kvd := rfl
@[simp] theorem State.moveOn_input (s : State) (n : Nat) (x : Option LoopLevel) : (s.moveOn n x).input = s.input := rfl
@[simp] theorem State.moveOn_runs (s : State) (n : Nat) (x : Option LoopLevel) : (s.moveOn n x).runs = s.runs := rfl
@[simp] theorem State.moveOn_islands (s : State) (n : Nat) (x : Option LoopLevel) : (s.moveOn n x).islands = s.islands := rfl
@[simp] theorem State.moveOn_busyAt (s : State) (n : Nat) (x : Option LoopLevel) : (s.moveOn n x).busyAt = s.busyAt := rfl
@[simp] theorem State.moveOn_power (s : State) (n : Nat) (x : Option LoopLevel) : (s.moveOn n x).power = s.power := rfl
@[simp] theorem State.moveOn_evh (s : State) (n : Nat) (x : Option LoopLevel) : (s.moveOn n x).evh = s.evh := rfl
@[simp] theorem State.moveOn_ctl (s : State) (n : Nat) (x : Option LoopLevel) : (s.moveOn n x).ctl = s.ctl := rfl
@[simp] theorem State.moveOn_flm (s : State) (n : Nat) (x : Option LoopLevel) : (s.moveOn n x).flm = s.flm := rfl
@[simp] theorem State.moveOn_trb (s : State) (n : Nat) (x : Option LoopLevel) : (s.moveOn n x).trb = s.trb := rfl
@[simp] theorem State.moveOn_mgc (s : State) (n : Nat) (x : Option LoopLevel) : (s.moveOn n x).mgc = s.mgc := rfl
@[simp] theorem State.moveOn_pins (s : State) (n : Nat) (x : Option LoopLevel) : (s.moveOn n x).pins = s.pins := rfl

end Sys2Proof.Machine
end

