-- ==== Sys2Proof/Laws/Memory.lean ====
section
/-!
SUPPORT. Memory: every operation on the near tier, the outer tier and SPD keeps the canonical form, and what a byte reads
after a write.
-/
namespace Sys2Proof.Machine

theorem putBytes_wf (m : Store Byte) (a : Nat) (bs : List Byte) (h : Store.wf 0 m = true) : Store.wf 0 (putBytes m a bs) = true := by
  induction bs generalizing m a with
  | nil => exact h
  | cons b bs ih => exact ih _ _ (Store.wf_set _ _ h)

/-- The byte at `k` after a write of some bytes at `a`: the written one inside the span, else the old one. -/
theorem get_putBytes (m : Store Byte) (a k : Nat) (bs : List Byte) :
    Store.get 0 (putBytes m a bs) k = if a ≤ k ∧ k < a + bs.length then bs.getD (k - a) 0 else Store.get 0 m k := by
  induction bs generalizing m a with
  | nil =>
    rw [if_neg (by simp)]
    rfl
  | cons b bs ih =>
    rw [putBytes, ih, Store.get_set]
    simp only [List.length_cons]
    by_cases hk : k = a
    · subst hk
      rw [if_neg (by omega), if_pos rfl, if_pos (by omega)]
      simp
    · rw [if_neg hk]
      by_cases h2 : a + 1 ≤ k ∧ k < a + 1 + bs.length
      · rw [if_pos h2, if_pos (by omega)]
        rw [show k - a = (k - (a + 1)) + 1 by omega]
        simp
      · rw [if_neg h2, if_neg (by omega)]

theorem markWords_wf (m : Store Bool) (b : Bool) (ws : List Nat) (h : Store.wf false m = true) :
    Store.wf false (markWords m b ws) = true := by
  unfold markWords
  induction ws generalizing m with
  | nil => exact h
  | cons w ws ih => exact ih _ (Store.wf_set _ _ h)

theorem dropSpan_wf (m : Store Byte) (a n : Nat) (h : Store.wf 0 m = true) : Store.wf 0 (dropSpan m a n) = true :=
  Store.wf_filter _ h

/-! The tiers. -/

theorem Tiers.nearWrite_wf (t : Tiers) (off : Nat) (bs : List Byte) (h : t.wf = true) : (t.nearWrite off bs).wf = true := by
  unfold Tiers.wf at *
  simp only [Bool.and_eq_true] at *
  refine ⟨⟨⟨putBytes_wf _ _ _ h.1.1.1, ?_⟩, h.1.2⟩, h.2⟩
  unfold Tiers.nearWrite
  dsimp only
  split
  · exact h.1.1.2
  · exact markWords_wf _ _ _ h.1.1.2

theorem Tiers.nearSpoil_wf (t : Tiers) (off n : Nat) (h : t.wf = true) : (t.nearSpoil off n).wf = true := by
  unfold Tiers.wf at *
  simp only [Bool.and_eq_true] at *
  exact ⟨⟨⟨h.1.1.1, markWords_wf _ _ _ h.1.1.2⟩, h.1.2⟩, h.2⟩

theorem Tiers.touch_wf (t : Tiers) (off n : Nat) (h : t.wf = true) : (t.touch off n).wf = true := h

theorem Tiers.putOuter_wf (t : Tiers) (a : Nat) (bs : List Byte) (h : t.wf = true) : (t.putOuter a bs).wf = true := by
  unfold Tiers.wf at *
  simp only [Bool.and_eq_true] at *
  exact ⟨⟨h.1.1, putBytes_wf _ _ _ h.1.2⟩, h.2⟩

theorem Tiers.setMap_wf (t : Tiers) (b : Nat) (m : Byte) (h : t.wf = true) : (t.setMap b m).wf = true := by
  unfold Tiers.wf at *
  simp only [Bool.and_eq_true] at *
  exact ⟨h.1, Store.wf_set _ _ h.2⟩

@[simp] theorem State.charge_tiers (s : State) (c : TierClass) (b n : Nat) : (s.charge c b n).tiers = s.tiers := by
  unfold State.charge; split <;> rfl

@[simp] theorem State.watchWrite_tiers (s : State) (a n : Nat) : (s.watchWrite a n).tiers = s.tiers := by
  unfold State.watchWrite
  dsimp only
  repeat' split
  all_goals rfl

theorem State.writeBlock_wf (s : State) (c : TierClass) (b a : Nat) (bs : List Byte) (h : s.tiers.wf = true) :
    (s.writeBlock c b a bs).1.tiers.wf = true := by
  unfold State.writeBlock
  dsimp only
  split
  · exact h
  · rw [State.watchWrite_tiers, State.charge_tiers]
    refine Tiers.setMap_wf _ _ _ (Tiers.putOuter_wf _ _ _ ?_)
    split
    · rw [State.charge_tiers]; exact h
    · exact h

theorem State.writeOuter_wf (s : State) (c : TierClass) (a : Nat) (bs : List Byte) (h : s.tiers.wf = true) :
    (s.writeOuter c a bs).1.tiers.wf = true := by
  unfold State.writeOuter
  generalize splitBlocks a bs = ps
  suffices H : ∀ x : State × Bool, x.1.tiers.wf = true →
      (ps.foldl (fun x p => ((x.1.writeBlock c p.1 p.2.1 p.2.2).1, x.2 || (x.1.writeBlock c p.1 p.2.1 p.2.2).2)) x).1.tiers.wf
        = true from H (s, false) h
  induction ps with
  | nil => exact fun x hx => hx
  | cons p ps ih => exact fun x hx => ih _ (State.writeBlock_wf _ _ _ _ _ hx)

theorem State.localWrite_wf (s : State) (a : Nat) (bs : List Byte) (h : s.tiers.wf = true) : (s.localWrite a bs).tiers.wf = true := by
  unfold State.localWrite
  split
  · exact Tiers.nearWrite_wf _ _ _ h
  · exact State.writeOuter_wf _ _ _ _ h

theorem bankSetBits_wf (m : Store Byte) (a w v : Nat) (h : Store.wf 0 m = true) : Store.wf 0 (bankSetBits m a w v) = true :=
  putBytes_wf _ _ _ h

theorem foldl_wf {α : Type} (f : Tiers → α → Tiers) (hf : ∀ x a, x.wf = true → (f x a).wf = true) (l : List α) (x : Tiers)
    (h : x.wf = true) : (l.foldl f x).wf = true := by
  induction l generalizing x with
  | nil => exact h
  | cons a l ih => exact ih _ (hf _ _ h)

theorem Tiers.wf_near (t : Tiers) (m : Store Byte) (p : Store Bool) (h : t.wf = true) (hm : Store.wf 0 m = true)
    (hp : Store.wf false p = true) : Tiers.wf { t with near := m, nearPoison := p } = true := by
  unfold Tiers.wf at *
  simp only [Bool.and_eq_true] at *
  exact ⟨⟨⟨hm, hp⟩, h.1.2⟩, h.2⟩

theorem Tiers.wf_parts {t : Tiers} (h : t.wf = true) : Store.wf 0 t.near = true ∧ Store.wf false t.nearPoison = true := by
  unfold Tiers.wf at h
  simp only [Bool.and_eq_true] at h
  exact h.1.1

theorem Tiers.transpose_wf (x : Tiers) (t u : Tensor) (h : x.wf = true) : (x.transpose t u).wf = true := by
  unfold Tiers.transpose
  refine foldl_wf _ (fun x q hx => ?_) _ _ h
  have k := Tiers.wf_parts hx
  refine Tiers.wf_near _ _ _ hx (bankSetBits_wf _ _ _ _ k.1) ?_
  split
  · exact markWords_wf _ _ _ k.2
  · exact k.2

theorem Tiers.transposeScales_wf (x : Tiers) (t u : Tensor) (h : x.wf = true) : (x.transposeScales t u).wf = true := by
  unfold Tiers.transposeScales
  refine foldl_wf _ (fun x q hx => ?_) _ _ h
  have k := Tiers.wf_parts hx
  refine Tiers.wf_near _ _ _ hx (Store.wf_set _ _ k.1) ?_
  split
  · exact markWords_wf _ _ _ k.2
  · exact k.2

/-- A byte of the near tier after a write. -/
theorem Tiers.nearWrite_near (t : Tiers) (off k : Nat) (bs : List Byte) :
    Store.get 0 (t.nearWrite off bs).near k =
      if off ≤ k ∧ k < off + bs.length then bs.getD (k - off) 0 else Store.get 0 t.near k := by
  exact get_putBytes _ _ _ _

/-! SPD. -/

theorem Core.setByte_wf (c : Core) (a : Nat) (v : Byte) (h : c.wf = true) : (c.setByte a v).wf = true := by
  unfold Core.wf at *
  simp only [Bool.and_eq_true] at *
  exact ⟨Store.wf_set _ _ h.1, h.2⟩

theorem Core.putBytes_wf (c : Core) (a : Nat) (bs : List Byte) (h : c.wf = true) : (c.putBytes a bs).wf = true := by
  induction bs generalizing c a with
  | nil => exact h
  | cons b bs ih => exact ih _ _ (Core.setByte_wf _ _ _ h)

theorem foldlBool_wf {α : Type} (f : Store Bool → α → Store Bool)
    (hf : ∀ p a, Store.wf false p = true → Store.wf false (f p a) = true) (l : List α) (p : Store Bool)
    (h : Store.wf false p = true) : Store.wf false (l.foldl f p) = true := by
  induction l generalizing p with
  | nil => exact h
  | cons a l ih => exact ih _ (hf _ _ h)

theorem Core.wf_iff (c : Core) : c.wf = true ↔ Store.wf 0 c.spd = true ∧ Store.wf false c.poison = true := by
  unfold Core.wf
  exact Bool.and_eq_true_iff

theorem Core.cleanWords_wf (c : Core) (a n : Nat) (h : c.wf = true) : (c.cleanWords a n).wf = true := by
  unfold Core.cleanWords
  split
  · exact h
  · rw [Core.wf_iff] at *
    refine ⟨h.1, foldlBool_wf _ (fun p i hp => ?_) _ _ h.2⟩
    split
    · exact Store.wf_set _ _ hp
    · exact hp

/-- A write to SPD keeps the canonical form. -/
theorem Core.write_wf (c : Core) (a : Nat) (bs : List Byte) (h : c.wf = true) : (c.write a bs).wf = true :=
  Core.cleanWords_wf _ _ _ (Core.putBytes_wf _ _ _ h)

theorem Core.setBits_wf (c : Core) (a w v : Nat) (h : c.wf = true) : (c.setBits a w v).wf = true := Core.write_wf _ _ _ h

theorem Core.scramble_wf (c : Core) (f : Nat) (l : List Nat) (h : c.wf = true) : (c.scramble f l).wf = true := by
  induction l generalizing c f with
  | nil => exact h
  | cons a l ih => exact ih _ _ (Core.setByte_wf _ _ _ h)

theorem Core.putBytes_spd (c : Core) (a : Nat) (bs : List Byte) : (c.putBytes a bs).spd = Sys2Proof.Machine.putBytes c.spd a bs := by
  induction bs generalizing c a with
  | nil => rfl
  | cons b bs ih => exact ih _ _

theorem Core.cleanWords_spd (c : Core) (a n : Nat) : (c.cleanWords a n).spd = c.spd := by
  unfold Core.cleanWords; split <;> rfl

/-- A byte of SPD after a write. -/
theorem Core.write_byte (c : Core) (a k : Nat) (bs : List Byte) :
    (c.write a bs).byte k = if a ≤ k ∧ k < a + bs.length then bs.getD (k - a) 0 else c.byte k := by
  unfold Core.byte Core.write
  rw [Core.cleanWords_spd, Core.putBytes_spd]
  exact get_putBytes _ _ _ _

/-- The memories of a machine after reset list nothing. -/
theorem reset_memory_wf : Memory.wf State.reset = true := by decide

end Sys2Proof.Machine
end

