-- ==== Sys2Proof/Laws/Sites.lean ====
section
/-!
SUPPORT. What starting up leaves of the core sites: whatever image boots, their states change only by the earlier retirements.
-/
namespace Sys2Proof.Machine

/-- The states of the core sites, and the memory of the FLM. -/
def State.siting (s : State) : Store Nat × Flm := (s.sites, s.flm)

theorem State.siting_fst (s : State) : s.siting.1 = s.sites := rfl

theorem siting_foldl {α : Type} (f : State → α → State) (h : ∀ s a, (f s a).siting = s.siting) (l : List α) (s : State) :
    (l.foldl f s).siting = s.siting := by
  induction l generalizing s with
  | nil => rfl
  | cons a l ih => rw [List.foldl_cons, ih, h]

theorem State.setReg_siting (s : State) (p o : Nat) (v : Word) : (s.setReg p o v).siting = s.siting := by
  unfold State.setReg; rfl

theorem State.setRegBit_siting (s : State) (p o i : Nat) (b : Bool) : (s.setRegBit p o i b).siting = s.siting := by
  unfold State.setRegBit; exact State.setReg_siting _ _ _ _

theorem State.errSet_siting (s : State) (p i : Nat) : (s.errSet p i).siting = s.siting := by
  unfold State.errSet; split
  · rfl
  · exact State.setRegBit_siting _ _ _ _ _

theorem State.raise_siting (s : State) (p i : Nat) : (s.raise p i).siting = s.siting := by
  unfold State.raise; split <;> rfl

theorem State.platformEvent_siting (s : State) (i v : Nat) : (s.platformEvent i v).siting = s.siting := by
  unfold State.platformEvent; split <;> rfl

theorem State.service_siting (s : State) (i : Nat) : (s.service i).siting = s.siting := by
  unfold State.service
  split
  · rfl
  · simp only [State.platformEvent_siting, State.raise_siting, State.errSet_siting, State.setRegBit_siting]

theorem State.extendMeas_siting (s : State) (m : Nat) (d : List Byte) : (s.extendMeas m d).siting = s.siting := by
  unfold State.extendMeas
  exact siting_foldl _ (fun _ _ => State.setReg_siting _ _ _ _) _ _

theorem State.romMeasure_siting (s : State) : s.romMeasure.siting = s.siting := by
  unfold State.romMeasure
  simp only
  split <;> simp only [State.extendMeas_siting]

theorem State.setTrb_siting (s : State) (x : Trb) : ({ s with trb := x } : State).siting = s.siting := rfl

theorem State.setTrbPower_siting (s : State) (x : Trb) (y : Power) :
    ({ s with trb := x, power := y } : State).siting = s.siting := rfl

theorem State.bootFrom_siting (s : State) (b f : Bool) : (s.bootFrom b f).siting = s.siting := by
  unfold State.bootFrom
  simp only [State.setTrb_siting, State.extendMeas_siting]
  split
  · rw [State.raise_siting, State.errSet_siting]
  · rfl

theorem State.romBoot_siting (s : State) : s.romBoot.siting = s.siting := by
  unfold State.romBoot
  simp only
  split
  · rw [State.platformEvent_siting, State.setTrb_siting, State.romMeasure_siting]
  · rw [State.bootFrom_siting, State.romMeasure_siting]

theorem State.readCal_siting (s : State) : s.readCal.siting = s.siting := by
  unfold State.readCal
  simp only
  split
  · rw [State.setTrb_siting, State.extendMeas_siting]
  · rw [State.setReg_siting, State.setReg_siting, State.service_siting, State.errSet_siting, State.setTrbPower_siting,
      State.extendMeas_siting]

theorem State.setIsland_siting (s : State) (p st : Nat) : (s.setIsland p st).siting = s.siting := by
  unfold State.setIsland; rfl

theorem State.fuseMap_siting (s : State) (h : Nat) : (s.fuseMap h).siting = s.siting := by
  unfold State.fuseMap
  refine siting_foldl _ (fun t x => ?_) _ _
  rfl

theorem State.siteEnables_siting (s : State) : s.siteEnables.siting = s.siting := by
  unfold State.siteEnables
  refine siting_foldl _ (fun t n => ?_) _ _
  simp only
  split
  · rfl
  · rw [State.setIsland_siting, State.setRegBit_siting, State.setRegBit_siting]

theorem State.lostAgain_siting (s : State) (x : Nat × Nat) : (s.lostAgain x).siting = s.siting := by
  unfold State.lostAgain
  exact (State.service_siting _ _).trans rfl

theorem State.spareFlag_siting (s : State) (h : Nat) : (s.spareFlag h).siting = s.siting := by
  unfold State.spareFlag; split
  · exact State.service_siting _ _
  · rfl

theorem ite_siting (c : Prop) [Decidable c] (a b : State) :
    (if c then a else b).siting = if c then a.siting else b.siting := apply_ite _ _ _ _

theorem State.applyRetired_siting (s : State) :
    s.applyRetired.siting =
      (s.siting.2.retired.foldl (fun (m : Store Nat) (n : Nat) => Store.set 0 m n 2) s.siting.1, s.siting.2) := by
  unfold State.applyRetired
  simp only [ite_siting, State.service_siting, State.spareFlag_siting, ite_self,
    siting_foldl _ State.lostAgain_siting, State.siteEnables_siting, State.fuseMap_siting]
  rfl

theorem State.setPoint_siting (s : State) (n p : Nat) : (s.setPoint n p).siting = s.siting := by
  unfold State.setPoint; rfl

theorem State.rebalance_siting (s : State) (j : Nat) : (s.rebalance j).siting = s.siting := by
  unfold State.rebalance
  refine (State.setReg_siting _ _ _ _).trans ?_
  rw [siting_foldl _ (fun _ _ => State.setPoint_siting _ _ _), siting_foldl _ (fun _ _ => State.setPoint_siting _ _ _)]
  rfl

theorem State.setBudget_siting (s : State) (j b : Nat) : (s.setBudget j b).siting = s.siting := by
  unfold State.setBudget; exact State.setReg_siting _ _ _ _

theorem State.firstBudgets_siting (s : State) : s.firstBudgets.siting = s.siting := by
  unfold State.firstBudgets State.rebalanceAll
  rw [siting_foldl _ State.rebalance_siting, siting_foldl _ (fun _ _ => State.setBudget_siting _ _ _)]

/-- With no failed package, starting up leaves the sites as they are but for those retired earlier. -/
theorem State.riseActive_sites (s : State) :
    (s.riseActive []).sites = s.flm.retired.foldl (fun (m : Store Nat) (n : Nat) => Store.set 0 m n 2) s.sites := by
  have hb : s.romBoot.readCal.siting = s.siting := (State.readCal_siting _).trans (State.romBoot_siting s)
  have h : (s.riseActive []).siting = s.romBoot.readCal.applyRetired.siting := by
    unfold State.riseActive
    simp only [List.foldl_nil]
    rw [State.firstBudgets_siting]
    rfl
  rw [State.applyRetired_siting, hb] at h
  rw [← State.siting_fst, h]
  rfl

end Sys2Proof.Machine
end

