-- ==== Sys2Proof/Laws/TakeOver.lean ====
section
/-!
SUPPORT. A takeover records the core that it replaces (R473, R479).
-/
namespace Sys2Proof.Machine

/-- The control complex and the Harvest units. -/
def State.guard (s : State) : Ctl × Hvu := (s.ctl, s.hvu)

theorem State.setReg_guard (s : State) (p o : Nat) (v : Word) : (s.setReg p o v).guard = s.guard := by
  unfold State.setReg; rfl

theorem State.retarget_guard (s : State) (k w : Nat) : (s.retarget k w).guard = s.guard := by
  unfold State.retarget
  generalize List.range 1024 = l
  induction l generalizing s with
  | nil => rfl
  | cons n l ih =>
    rw [List.foldl_cons, ih]
    simp only
    split
    · exact State.setReg_guard _ _ _ _
    · rfl

theorem State.countReg_guard (s : State) (p o n : Nat) : (s.countReg p o n).guard = s.guard := by
  unfold State.countReg; exact State.setReg_guard _ _ _ _

theorem State.wrapReg_guard (s : State) (p o n : Nat) : (s.wrapReg p o n).guard = s.guard := by
  unfold State.wrapReg; exact State.setReg_guard _ _ _ _

theorem State.setFlm_guard (s : State) (f : Flm) : ({ s with flm := f } : State).guard = s.guard := rfl

theorem State.flmLog_guard (s : State) (k a r d : Nat) : (s.flmLog k a r d).guard = s.guard := by
  unfold State.flmLog State.errCount
  simp only
  split
  · rw [State.countReg_guard, State.wrapReg_guard, State.setFlm_guard]
  · rw [State.wrapReg_guard, State.setFlm_guard]

theorem State.onFlm_guard (s : State) (f : Flm → Flm) : (s.onFlm f).guard = s.guard := by unfold State.onFlm; rfl

theorem State.setEvh_guard (s : State) (e : Evh) : ({ s with evh := e } : State).guard = s.guard := rfl

theorem State.resumeUpdate_idle (s : State) (h : s.hvu.job = none) : s.resumeUpdate = s := by
  unfold State.resumeUpdate
  rw [h]

/-- What follows the change of the control complex in a takeover leaves it as it is. -/
theorem handOver_ctl (x : State) (k w a b : Nat) (e : State → Evh) (f : Flm → Flm) (hj : x.hvu.job = none) :
    ((({ x.retarget k w with evh := e (x.retarget k w) } : State).onFlm f).flmLog a b k w).resumeUpdate.ctl = x.ctl := by
  have h : ∀ t : State, t.guard = x.guard → (((({ t with evh := e t } : State).onFlm f).flmLog a b k w).resumeUpdate).ctl = x.ctl := by
    intro t ht
    generalize hu : State.flmLog _ a b k w = u
    have hg : u.guard = x.guard := by
      rw [← hu, State.flmLog_guard, State.onFlm_guard, State.setEvh_guard, ht]
    rw [State.resumeUpdate_idle u ((congrArg (fun g : Ctl × Hvu => g.2.job) hg).trans hj)]
    exact congrArg Prod.fst hg
  exact h _ (State.retarget_guard x k w)

/-- With no update in hand, a core whose watcher takes over joins the failed ones. -/
theorem State.takeOver_failed (s : State) (k w : Nat) (rest : List Nat) (h : s.watchers k = w :: rest) (hj : s.hvu.job = none) :
    (s.takeOver k).ctl.failed = s.ctl.failed ++ [k] := by
  unfold State.takeOver
  simp only [h]
  have x := handOver_ctl { s with ctl := { s.ctl with
    failed := s.ctl.failed ++ [k], carries := (s.ctl.carries.map fun x => if x.1 = k then (w, x.2) else x) ++ [(w, k)] } } k w 0x14 2
    (fun t => { t.evh with serving := Store.set [] t.evh.serving k [], frozen := Store.set false t.evh.frozen k false })
    (fun f => { f with toTakeOver := f.toTakeOver.filter (· != k) }) hj
  simp only at x
  rw [x]

/-- A core that is declared failed is taken over at once. -/
theorem State.flmEvent_core (s : State) (k : Nat) (h1 : s.flmResource 6 k = true) (h2 : (s.flmCount 6 k).1 = true) :
    s.flmEvent 6 k = ((s.flmCount 6 k).2.flmDeclare 6 k).takeOver k := by
  unfold State.flmEvent
  simp only [h1, h2, State.flmAction]
  simp

end Sys2Proof.Machine
end

