-- ==== Sys2Proof/WellFormed.lean ====
section
/-!
DEFINITION. When a command's operands have the form that its row gives them. `exec` gives a command that breaks its form no
effect, or the answer that the spec names (R97, R509).
-/
namespace Sys2Proof

/-- Does a packet have the type of its row, with the data that the type carries (R398)? -/
def Packet.wf (k : Packet) (type : Nat) : Bool :=
  k.type.toNat = type && k.data.length ≤ 384 && (if 3 ≤ type && type ≤ 8 then k.data != [] else true)

/-- Does a baton have the type of its row (R323)? -/
def Baton.wf (b : Baton) (type : Nat) : Bool := b.type.toNat = type

/-- Is a command well formed? -/
def Instr.wf (i : Instr) : Bool :=
  match i with
  | .registerWrite _ _ width _ => width = 1 || width = 2 || width = 4 || width = 8
  | .readClear _ _ width => width = 1 || width = 2 || width = 4 || width = 8
  | .devTimeLoRead _ => true
  | .pwcEnergyLoRead _ => true
  | .devTcapLoRead _ => true
  | .pageLock _ _ _ => true
  | .softReset _ _ _ => true
  | .pageEnableWrite _ _ _ => true
  | .shutdownComplete _ => true
  | .powerUpComplete _ => true
  | .retentionEntry _ => true
  | .islandThaw _ => true
  | .nop _ => true
  | .halt _ => true
  | .loop _ => true
  | .wait _ => true
  | .signal _ => true
  | .signalDelivery _ => true
  | .hurdle _ => true
  | .hurdleOpen _ => true
  | .hurdleTimeout _ _ => true
  | .event _ => true
  | .histCfg _ => true
  | .histStore _ => true
  | .batonSend _ => true
  | .batonWait _ => true
  | .mm _ => true
  | .mmDw _ => true
  | .accDrain _ => true
  | .accSpill _ => true
  | .accResume _ => true
  | .accClear _ => true
  | .vCopy _ => true
  | .vAdd _ => true
  | .vSub _ => true
  | .vMul _ => true
  | .vFma _ => true
  | .vMax _ => true
  | .vMin _ => true
  | .vNeg _ => true
  | .vAbs _ => true
  | .vCmp _ => true
  | .vSelect _ => true
  | .vFunc _ => true
  | .vReduce _ => true
  | .vPsum _ => true
  | .vPerm _ => true
  | .vCompress _ => true
  | .vExpand _ => true
  | .vRandU _ => true
  | .vRandN _ => true
  | .vDropout _ => true
  | .vRandBits _ => true
  | .rowSoftmax _ => true
  | .rowSoftmaxBwd _ => true
  | .rowXent _ => true
  | .rowXentBwd _ => true
  | .rowLnorm _ => true
  | .rowLnormBwd _ => true
  | .rowRmsnorm _ => true
  | .rowRmsnormBwd _ => true
  | .rowTagClose _ => true
  | .sArm _ => true
  | .sArmFetchDone _ _ => true
  | .sLoad _ => true
  | .sStore _ => true
  | .sAcquire _ => true
  | .sRelease _ => true
  | .releaseEffect _ _ => true
  | .sDisarm _ => true
  | .disarmDone _ _ => true
  | .tileComplete _ _ _ => true
  | .tileFault _ _ _ => true
  | .chainFetchDone _ _ => true
  | .passComplete _ _ => true
  | .descriptorComplete _ _ => true
  | .descriptorFault _ _ => true
  | .listStopped _ => true
  | .start _ _ _ => true
  | .stop _ _ _ => true
  | .resume _ _ _ => true
  | .skip _ _ _ => true
  | .abandon _ _ _ => true
  | .abandonDone _ => true
  | .coreLoopWrite _ _ _ _ => true
  | .coreMigrate _ _ => true
  | .outerRead _ addr len _ => 0 < len && addr.toNat + len ≤ 2 ^ 40
  | .outerWrite _ addr data _ => data != [] && addr.toNat + data.length ≤ 2 ^ 40
  | .patrolScrub _ _ _ => true
  | .nearScrub word _ => 8 * word < 6 * 2 ^ 30
  | .trePkgWrite _ _ _ => true
  | .treSplitWrite _ _ _ => true
  | .repairGo _ _ _ _ => true
  | .nosrc _ _ _ _ => true
  | .repairBlockArrive _ _ block _ _ => match block with | some bs => bs.length = 4096 | none => true
  | .repairTimeout _ _ => true
  | .pageAgeTick => true
  | .pacerPromote => true
  | .promotionComplete _ => true
  | .pacerDemote _ => true
  | .pacerStall => true
  | .hostWindowAccess addr len data _ => 0 < len && addr.toNat + len ≤ 2 ^ 37 && (match data with | some bs => bs.length = len | none => true)
  | .hbrXlatInv _ _ => true
  | .xlatInvDone => true
  | .hvuEnable _ _ => true
  | .hvuVerdictStart => true
  | .verdict b => b.wf 9
  | .hvuPasses => true
  | .hvuCommit => true
  | .hvuDone => true
  | .requeue _ _ => true
  | .hvuAbandon _ _ => true
  | .digest b => b.wf 10
  | .schEnable _ _ => true
  | .slotOpen => true
  | .coreLaunch _ => true
  | .user b => b.wf 1
  | .loss b => b.wf 2
  | .hurdleArrive b => b.wf 3
  | .hurdleRelease b => b.wf 4
  | .batonInvalid b => b.type = 0 || 0xD < b.type.toNat
  | .batonGap _ => true
  | .bktLocal _ _ => true
  | .bktPartSend _ _ => true
  | .bktPart b => b.wf 5
  | .reduceDeadline _ => true
  | .reducePassDone _ => true
  | .bktAck b => b.wf 6
  | .bktClosed b => b.wf 7
  | .bktGather b => b.wf 8
  | .schCmdWithdraw _ _ => true
  | .withdraw b => b.wf 13
  | .lapDoneSend => true
  | .lapDone b => b.wf 11
  | .lapGo b => b.wf 12
  | .kvdEnable _ _ => true
  | .kvdClearDone => true
  | .kvdDirSel _ _ => true
  | .admitSeqs => true
  | .walkEmit => true
  | .stepEnd => true
  | .kvdMaintenance => true
  | .kvdMoveDone _ => true
  | .mdeJobPush _ _ => true
  | .mdeDecodeStart _ _ _ => true
  | .mdeDecodeDone _ _ _ => true
  | .mdeDecodeTimeout _ => true
  | .mdeCommit => true
  | .sauJobPush _ _ => true
  | .sauAlign => true
  | .stageEnable _ _ _ => true
  | .stageReleaseDone => true
  | .frameReceive _ f => f.flits.length = 5 && f.corrected.length ≤ 4 && f.uncorr ≤ 2
  | .linkctl _ _ => true
  | .credit _ k => k.wf 1
  | .rdReq _ k => k.wf 2
  | .rdData _ k => k.wf 3
  | .crdData _ k => k.wf 4
  | .wrData _ k => k.wf 5
  | .wrLast _ k => k.wf 6
  | .cwrData _ k => k.wf 7
  | .cwrLast _ k => k.wf 8
  | .wrAck _ k => k.wf 9
  | .rdErr _ k => k.wf 10
  | .regRd _ k => k.wf 11
  | .regWr _ k => k.wf 12
  | .regData _ k => k.wf 13
  | .relayTimeout _ => true
  | .linkReqTimeout _ => true
  | .flCfgWrite _ _ _ => true
  | .trainingSignal _ => true
  | .trainingNoSignal _ => true
  | .equalisationDone _ => true
  | .linkExchangeDone _ => true
  | .laneFail _ _ => true
  | .reshapeDone _ => true
  | .routeBankFlip _ _ => true
  | .hostBar0Window _ width _ => width = 1 || width = 2 || width = 4 || width = 8
  | .hostBar2Read _ len => 0 < len
  | .hostBar2Write _ data => data != []
  | .hostPerst _ => true
  | .lineWatchFire _ => true
  | .run _ => true
  | .groupPartTimeout _ _ => true
  | .step _ => true
  | .endRun _ => true
  | .abort _ => true
  | .runEnd _ => true
  | .faultResponse _ => true
  | .devSubqCfgWrite _ _ _ => true
  | .eventDeliver _ => true
  | .claim _ _ => true
  | .eoi _ _ _ => true
  | .evhReset _ _ _ => true
  | .evhSrcWrite _ _ _ => true
  | .evhTmrCtrlWrite _ _ owner _ => owner.val ≤ 9
  | .timerFire _ => true
  | .hubFrost _ => true
  | .hubThaw _ => true
  | .siblingWatchdog _ => true
  | .v72Rise mv => 58000 < mv
  | .undervoltageLockout mv => mv < 56000
  | .overvoltageShutdown mv => 84000 ≤ mv
  | .lowInputLimit _ => true
  | .phaseShed stage phase => stage < 4 && phase < (if stage = 0 then 6 else if stage = 3 then 12 else 16)
  | .droop island => island < 1024
  | .regulatorRetrim island => island < 1024
  | .ageingMeasure island _ => island < 1024
  | .estimateCorrect _ _ => true
  | .capStep _ => true
  | .fastThrottle _ => true
  | .fastThrottleEnd => true
  | .pwcCapWrite _ _ => true
  | .pwcFreqMaxWrite _ _ _ => true
  | .frost _ _ => true
  | .frostWake => true
  | .modPwrEnRise => true
  | .modPwrEnFall => true
  | .shutdownDone => true
  | .modResetAssert => true
  | .modResetRelease _ _ _ => true
  | .sensorRead readings => readings.length = 180
  | .thermalTrip sensor => sensor < 180
  | .trbBoot _ => true
  | .controlRelease _ => true
  | .groupDiscovery reports => reports.length ≤ 2048
  | .lateAdmit _ => true
  | .devGpxCfgWrite _ _ _ => true
  | .timeCapture _ => true
  | .leakN _ => true
  | .capLimitN _ _ => true
  | .flmReport _ _ => true
  | .lapTimeout _ => true
  | .deviceLoss _ => true
  | .release _ _ => true
  | .telemetryGather => true
  | .trbSvnCommit _ _ => true
  | .setEndpointId _ _ => true
  | .getEndpointId => true
  | .getMctpVersionSupport _ => true
  | .getMessageTypeSupport => true
  | .getVendorDefinedMessageSupport => true
  | .pldmInvalidType type => type != 2 && type != 5
  | .getPdrRepositoryInfo => true
  | .getPdr _ => true
  | .getSensorReading _ => true
  | .getStateSensorReadings _ => true
  | .getNumericEffecterValue _ => true
  | .setNumericEffecterValue _ _ => true
  | .setEventReceiver _ _ => true
  | .queryDeviceIdentifiers => true
  | .getFirmwareParameters => true
  | .requestUpdate _ _ => true
  | .passComponentTable component => component != 0
  | .updateComponent _ size => 0 < size
  | .requestFirmwareData _ data => data != []
  | .transferComplete => true
  | .verifyComplete => true
  | .applyComplete => true
  | .activateFirmware _ => true
  | .getStatus => true
  | .cancelUpdateComponent => true
  | .cancelUpdate => true
  | .report _ => true
  | .certs off => off < 2 ^ 32
  | .debugChallenge => true
  | .debugUnlock token => token.length = 256
  | .regRead _ => true
  | .telemetry off len => off < 2 ^ 16 && len < 2 ^ 16
  | .faultLog n => n < 2 ^ 32
  | .calRead off => off < 2 ^ 32
  | .trip => true
  | .hostConfigurationRequest => true
  | .hostReadCompletion _ _ _ => true
  | .hbrLinkStateChange up width rate _ => !up || ((width = 8 || width = 16) && 1 ≤ rate.toNat && rate.toNat ≤ 3)
  | .msixVectorUnmask _ => true
  | .codewordLock _ _ => true
  | .boundaryScan _ _ => true
  | .smbusBusTimeout => true

end Sys2Proof
end

