-- ==== Sys2Proof/Tests/Slice0.lean ====
section
/-!
SUPPORT. The author's tests: each check of well-formedness refuses an ill-formed term, the examples of the spec, and for each
statement of Obligations.lean a state and operands that meet its hypotheses.
-/
namespace Sys2Proof.Tests
set_option Elab.async false
open Sys2Proof Sys2Proof.Machine

/-! Helpers. -/

/-- An ACTIVE device after reset: an anchor with its registers accessible. -/
def up : State := { State.reset with power := { State.reset.power with mod := 2 } }

/-- The block of a page is ON and enabled. -/
def powered (s : State) (p : Nat) : State := (s.setRegBit p 0xC 0 true).setIsland p 0

/-- A number from fields: low bit, value. -/
def packed (fs : List (Nat × Nat)) : Nat := fs.foldl (fun n f => n + f.2 * 2 ^ f.1) 0

/-- A descriptor of version 3 with an opcode and fields (R125). -/
def desc (op : Nat) (fs : List (Nat × Nat)) : Desc := BitVec.ofNat 512 (op + 3 * 2 ^ 8 + packed fs)

/-- A core that runs a list from SPD offset 0 in context 0, with a descriptor at its start. -/
def listCore (d : Desc) : Core :=
  ({ Core.reset with ctxValid := true, seq := { Sequencer.reset with st := .running, baseSpd := true } }).write 0 (natLe 64 d.toNat)

/-- Site 0 runs such a list. -/
def listed (d : Desc) : State := up.setCore 0 (listCore d)

/-- The descriptor may issue there and shows no fault. -/
def good (s : State) (k : Kind) (d : Desc) : Bool := s.issuable 0 k = some d && k.faults s 0 d = []

/-- The next state of an outcome satisfies a test. -/
def next (o : Host.Outcome State Fault Refusal) (p : State → Bool) : Bool := match o with | .next t => p t | _ => false

/-- A run in context 0 that holds core 0 and 64 MiB of the outer tier, with the claims changed by f. -/
def run0 (f : Claims → Claims) : Run :=
  { list := 0, entry := 0, addr := 0, claims := f { Claims.none with cores := [0], owned := [⟨0, 0x4000000⟩] }, stepno := 0,
    accepted := true, ending := 0, status := 2, detail := 0, device := 0, lcore := 0, lindex := 0, parts := [], since := 0 }

/-- The device with that run active. -/
def ran (s : State) : State := { s with runs := Store.set none s.runs 0 (some (run0 id)) }

/-- Change core site 0. -/
def on0 (s : State) (f : Core → Core) : State := s.onCore 0 f

/-! The queue, the fuses, registers and islands. -/

theorem test_hyps_StepTakesFrontCommand : ({ State.reset with pending := [.trip] } : State).pending = .trip :: [] := by decide

theorem test_hyps_EmptyQueueLetsTimePass : State.reset.pending = [] ∧ State.reset.power.mod = 1 := by decide

theorem test_hyps_CommandLeavesQueueRestAndVariant : next (exec .modPwrEnRise State.reset) (·.power.pwrEn) = true := by decide

theorem test_hyps_EveryCommandCompletes : ∀ ir dr, Instr.trip ≠ .boundaryScan ir dr := nofun

/-- A device whose image has `SVN` 7 and names slot 1 in `REVOKE`, over fuses at F. -/
def imaged (f : Nat) : State := { up with trb := { up.trb with booted := true, fuseF := f, svn := 7, revoke := 2, kslot := 0 } }

theorem test_hyps_FusesOnlyTakeCommits :
    (step { imaged 5 with pending := [.trbSvnCommit .host 1] } matches .next _) ∧
    (imaged 5).trb.fallback = false ∧ (imaged 5).trb.fuseF < (imaged 5).trb.svn ∧ (imaged 7).trb.svn ≤ (imaged 7).trb.fuseF ∧
    (imaged 5).accepts .host pgTrb 0x108 = true ∧ bit (1 : Word) 0 = true ∧
    ({ imaged 5 with mgc := { up.mgc with update := 5 } } : State).mgcUp = true := by
  refine ⟨rfl, ?_⟩
  decide +kernel

theorem test_hyps_SecurityVersionBounded : (imaged 64).trb.fuseF ≤ 64 ∧ (imaged 64).trb.svn ≤ 64 := by decide

/-- The spec's table under R498: F is 5 and slot A's `SVN` is 7; the commit makes F 7. -/
theorem test_commit_of_table :
    next (exec (.trbSvnCommit .host 1) (imaged 5)) (fun t => t.trb.fuseF = 7 && t.trb.revoked = [1]) = true ∧
    next (exec (.trbSvnCommit .host 1) (imaged 7)) (fun t => t.trb.fuseF = 7 && bit (t.reg pgTrb 0x10) 3) = true := by
  decide +kernel

theorem test_hyps_RegisterWriteByAccessType :
    up.accepts .host 0 0x100 = true ∧ (regRow 0 0x100).map (·.acc) = some .ro ∧
    up.accepts .host 0 0x108 = true ∧ (regRow 0 0x108).map (·.acc) = some .rc ∧
    up.accepts .host 4 0x10 = true ∧ (regRow 4 0x10).map (fun r => match r.acc with | .w1c _ => true | _ => false) = some true ∧
    up.accepts (.ctl 0) 4 0x110 = true ∧ up.accepts (.ctl 0) 7 0x100 = true ∧ (regRow 7 0x100).map (·.acc) = some (.rw 0xFF) ∧
    up.takes 7 0x100 95 = true ∧ up.reachable 7 0x100 = true ∧ (regRow 7 0x100).map (·.fw) = some true := by
  decide +kernel

theorem test_hyps_ReadAnswersAndClears :
    up.reachable 0 0x100 = true ∧ latchOf 0 0x100 = none ∧ up.reachable 0 0x108 = true ∧ latchOf 0 0x108 = none ∧
    up.reachable 0x100 0x134 = true ∧ (regRow 0x100 0x134).map (·.acc) = some .rc ∧ latchOf 0x100 0x134 = none ∧
    up.reachable 0x187 0x134 = false := by
  decide +kernel

theorem test_hyps_LowWordReadLatchesHighWord :
    up.reachable 0 0x110 = true ∧ up.reachable 4 0x120 = true ∧ up.reachable 0 0x1E4 = true := by decide +kernel

theorem test_hyps_PageControlWrites :
    up.accepts (.ctl 0) 4 0x30 = true ∧ bit (1 : Word) 0 = true ∧
    (let s := up.setRegBit 0x40 0xC 0 false
     s.accepts (.ctl 0) 0x40 8 = true ∧ (s.setRegBit 0x40 8 4 false).enabled 0x40 = false ∧
       (s.setRegBit 0x40 8 4 false).busy 0x40 = false ∧ (s.setRegBit 0x40 8 4 false).island 0x40 = 0) ∧
    up.accepts (.ctl 0) 0x100 8 = true ∧ powersIsland 0x100 = true ∧ bit ((up.setRegBit 0x100 8 4 false).reg 0x100 8) 0 = true := by
  decide +kernel

theorem test_hyps_IslandTransitions :
    (let s := up.setIsland 0x40 1
     s.present 0x40 = true ∧ s.island 0x40 = 1 ∧ s.inFlight 0x40 = false) ∧
    (let s := up.setIsland 0x40 3
     s.present 0x40 = true ∧ s.island 0x40 = 3 ∧ bit (s.reg 0x40 8) 0 = true) ∧
    (let s : State := { up.setRegBit 0x40 8 4 true with dev := { up.dev with time := 1000000 } }
     s.power.mod = 2 ∧ s.present 0x40 = true ∧ s.island 0x40 = 0 ∧ bit (s.reg 0x40 8) 4 = true ∧ s.islandIdle 0x40 = true ∧
       Store.get 0 s.busyAt 0x40 + 1000 * (s.reg 4 0x128).toNat ≤ s.dev.time) ∧
    (let s := up.setIsland 0x40 4
     s.power.mod = 2 ∧ s.present 0x40 = true ∧ s.island 0x40 = 4) := by
  decide +kernel
/-! Descriptors and lists. -/

def hurdleState (d : Desc) : State := (listed d).setHurdle 3 { Hurdle.reset with valid := true, cmask := 1 }

/-- The SCH is ON and enabled, with EN set. -/
def schUp (s : State) : State := (powered s pgSch).setRegBit pgSch 0x100 31 true

def hvuUp (s : State) : State := (powered s pHvu).setRegBit pHvu 0x100 31 true

theorem test_hyps_ControlDescriptorsIssue :
    good (listed (desc 0 [])) nopKind (desc 0 []) = true ∧
    good (listed (desc 2 [(64, 5), (80, 7)])) loopKind (desc 2 [(64, 5), (80, 7)]) = true ∧
    good (listed (desc 3 [(64, 1)])) waitKind (desc 3 [(64, 1)]) = true ∧
    good (listed (desc 4 [(64, 0), (72, 2), (80, 9)])) signalKind (desc 4 [(64, 0), (72, 2), (80, 9)]) = true ∧
    good (hurdleState (desc 5 [(64, 3)])) hurdleKind (desc 5 [(64, 3)]) = true ∧
    good (listed (desc 8 [(64, 1), (80, 0xFFFF)])) eventKind (desc 8 [(64, 1), (80, 0xFFFF)]) = true ∧
    good (listed (desc 9 [(64, 15), (69, 1), (80, 0x1FF)])) histCfgKind (desc 9 [(64, 15), (69, 1), (80, 0x1FF)]) = true ∧
    (let d := desc 7 [(64, 63), (128, 5)]
     good ((listed d).setChan 63 { Chan.reset with valid := true }) batonWaitKind d = true) := by
  decide +kernel

theorem test_hyps_HistStoreAndBatonSendIssue :
    (let d := desc 0xA [(64, 15), (128 + 63, 1), (128, 0x17FC00 - 320)]
     good (listed d) histStoreKind d = true ∧ dbit d 0x10 63 = true ∧ dbit d 8 4 = false) ∧
    (let d := desc 6 [(80, 3), (128, 77)]
     good (powered (listed d) pgSch) batonSendKind d = true ∧ dfld d 8 25 24 = 0) ∧
    (let d := desc 6 [(88, 1), (128 + 32, 4)]
     let s : State := { (powered (listed d) pgSch) with runs := [(0, some (run0 fun c => { c with hvu := true, sch := true }))] }
     good ((hvuUp s).setReg pHvu 0x10C 1) batonSendKind d = true ∧ dfld d 8 25 24 = 1) := by
  decide +kernel

theorem test_hyps_HaltEndsList : good (listed (desc 1 [(64, 0xFFFF)])) haltKind (desc 1 [(64, 0xFFFF)]) = true := by decide +kernel

theorem test_hyps_EngineDescriptorsRun :
    issueRow (.accClear 0) = some (0, clearKind) ∧ (runRow (.accClear 0)).isSome ∧
    good (listed (desc 0x15 [(256, 17)])) clearKind (desc 0x15 [(256, 17)]) = true ∧
    (∀ b, clearKind.bank (desc 0x15 [(256, 17)]) = some b → ((listed (desc 0x15 [(256, 17)])).core 0).bankFails b.1 = false) := by
  refine ⟨rfl, rfl, by decide +kernel, fun b hb => ?_⟩
  have : (clearKind.bank (desc 0x15 [(256, 17)])).map (fun b => ((listed (desc 0x15 [(256, 17)])).core 0).bankFails b.1) = some false := by
    decide +kernel
  rw [hb] at this
  exact Option.some.inj this

theorem test_hyps_EngineDescriptorFrame :
    next (exec (.accClear 0) (listed (desc 0x15 []))) (fun t => (t.core 0).seq.serial = 1) = true := by decide +kernel

theorem test_hyps_FaultAtIssueStopsList :
    (let d := desc 0 [(64, 1)]
     (listed d).issuable 0 nopKind = some d ∧ nopKind.faults (listed d) 0 d ≠ []) ∧ up.issuable 0 nopKind = none := by
  decide +kernel

theorem test_hyps_ArrayDescriptorsSpdFrame :
    next (exec (.accClear 0) (listed (desc 0x15 []))) (fun _ => true) = true ∧
    (let d := desc 0x13 []
     (listed d).issuable 0 spillKind = some d ∧ next (exec (.accSpill 0) (listed d)) (fun _ => true) = true) ∧
    up.issuable 0 spillKind = none ∧ dfld (desc 0x13 []) 0x10 20 0 + 49216 ≤ 49216 := by
  decide +kernel

def signalled : State := { up with signals := [⟨0, 0, 15, 0xFFFF, false, none⟩] }

theorem test_hyps_SignalAddsToCounter :
    signalled.signals[0]? = some ⟨0, 0, 15, 0xFFFF, false, none⟩ ∧ signalled.signalFree ⟨0, 0, 15, 0xFFFF, false, none⟩ = true ∧
    signalled.signals.take 0 = [] := by
  decide +kernel

/-- An entry of the window that waits. -/
def entryOf (d : Desc) (st : EntryState) : InFlight := ⟨0, 0, d, 0, 0, [], none, st, [], 0, ⟨0, 0, 0, 0, 0⟩, []⟩

def windowed (e : InFlight) : State :=
  { on0 (listed e.desc) (fun c => { c with seq := { c.seq with serial := 1, window := [e] } }) with dev := { up.dev with time := 10000000000 } }

theorem test_hyps_HurdleOpensOrTimesOut :
    (∀ (ndev : Fin 5) (root : Fin 3),
      let y : Hurdle := { Hurdle.reset with valid := true, cmask := 1, arrived := [0], ndev := ndev.val, root := root.val }
      let s := (powered up pgSch).setHurdle 63 y
      s.power.mod = 2 ∧ s.enabled pgSch = true ∧ s.hurdleOf 63 = y ∧ s.allArrived 63 = true ∧ y.sent = false ∧ s.ownId ∉ y.devices ∧
        (root.val = 0 ↔ y.root = s.ownId)) ∧
    (∀ op, op = 5 ∨ op = 7 →
      let e := entryOf (desc op [(80, 1)]) .wait
      ((windowed e).core 0).seq.entry 0 = some e ∧ e.st = .wait ∧ e.since + (windowed e).waitLimit e.desc ≤ (windowed e).dev.time ∧
        Dsc.opcode e.desc = op) := by
  refine ⟨by decide +kernel, ?_⟩
  rintro op (rfl | rfl) <;> decide +kernel

theorem test_hyps_EntriesCompleteOrFault :
    (let e := entryOf (desc 0 [(21, 1), (24, 15)]) .run
     let q := ((windowed e).core 0).seq
     q.entry 0 = some e ∧ q.mayComplete e = true ∧ e.unit ≠ 4 ∧ e.cls = 0 ∧ Dsc.sen e.desc = true) ∧
    (let e := { entryOf (desc 0x12 []) .run with faults := [.plain .poisonInput] }
     ((windowed e).core 0).seq.entry 0 = some e ∧ e.st = .run ∧ e.faults ≠ []) ∧
    (let s := listed (desc 0xFF [])
     (s.core 0).seq.entry 0 = none ∧ 0 = (s.core 0).seq.serial ∧ (s.cursorFault 0).isSome = true) := by
  decide +kernel

theorem test_hyps_ListsStop :
    (let s := on0 (listed 0) fun c => { c with seq := { c.seq with reqStop := true } }
     let q := (s.core 0).seq
     q.st = .running ∧ q.abandoning = false ∧ q.inflight = 0 ∧ q.reqStop = true ∧ fromFault q.window = []) ∧
    (let e := { entryOf (desc 0x12 []) .faulted with faults := [.plain .poisonInput] }
     let s := on0 (windowed e) fun c => { c with seq := { c.seq with faultStop := true } }
     let q := (s.core 0).seq
     q.st = .running ∧ q.inflight = 0 ∧ q.faultStop = true ∧ fromFault q.window = [e] ∧ s.present (pgCore 0) = true) ∧
    (let s := on0 (listed 0) fun c => { c with seq := { c.seq with abandoning := true } }
     (s.core 0).seq.abandoning = true ∧ (s.core 0).seq.inflight = 0) := by
  decide +kernel

def atState (st : ListState) : State := on0 up fun c => { c with seq := { c.seq with st := st } }

theorem test_hyps_ListCommands :
    up.accepts (.ctl 0) (pgCore 135) 0x110 = false ∧ up.accepts (.ctl 0) (pgCore 131) 0x110 = true ∧
    (∀ st, (atState st).accepts (.ctl 0) (pgCore 0) 0x110 = true ∧ ((atState st).core 0).seq.abandoning = false ∧
      ((atState st).core 0).seq.st = st) ∧
    (∀ i j : Fin 5, bit (BitVec.ofNat 32 (2 ^ i.val)) j.val = true ↔ j = i) := by
  refine ⟨by decide +kernel, by decide +kernel, fun st => ?_, by decide +kernel⟩
  cases st <;> decide +kernel

def looped (n : Nat) : State := on0 up fun c => { c with seq := { c.seq with loops := List.replicate n ⟨1, 1, 1, 0⟩ } }

theorem test_hyps_LoopStackWrites :
    (∀ (ix : Fin 8) (n : Fin 5), (looped n.val).accepts (.ctl 0) (pgCore 0) (0x180 + 4 * ix.val) = true ∧
      ((looped n.val).core 0).seq.st ≠ .running ∧ ((looped n.val).core 0).seq.loops.length = n.val) ∧
    bit (0x80000000 : Word) 31 = true ∧ bit (0 : Word) 31 = false ∧
    (atState .running).accepts (.ctl 0) (pgCore 0) 0x180 = true ∧ ((atState .running).core 0).seq.st = .running := by
  decide +kernel

theorem test_hyps_StartBeginsAtDescriptorZero :
    (atState .halted).accepts (.ctl 0) (pgCore 0) 0x110 = true ∧ ((atState .halted).core 0).seq.st = .halted ∧
      ((atState .halted).core 0).seq.abandoning = false := by
  decide +kernel

/-- Execution of a list of `NOP` and `HALT` (R122, R134): the `NOP` issues, and `HALT` after it has completed. -/
theorem test_halt_waits :
    next (exec (.halt 0) (windowed (entryOf (desc 1 [(64, 7)]) .run))) (fun t => (t.core 0).seq.st = .running) = true ∧
    next (exec (.halt 0) (listed (desc 1 [(64, 7)]))) (fun t => (t.core 0).seq.st = .halted && (t.core 0).seq.haltCode = 7 &&
      t.raised.contains 0) = true := by
  decide +kernel
/-! Streams. -/

/-- A stream descriptor with fields. -/
def sd (fs : List (Nat × Nat)) : StreamDesc := BitVec.ofNat 256 (packed fs)

/-- Two tiles of 512 bytes from the start of the outer tier. -/
def sdLoad : StreamDesc := sd [(96, 8), (144, 8), (172, 2)]

/-- A read ring of three slots of 64 bytes over four tiles. -/
def sdRing : StreamDesc := sd [(96, 1), (128, 1), (144, 1), (172, 4), (252, 2), (255, 1)]

/-- Site 0 runs a list with a descriptor in a run that holds memory, stream context 0 at x. -/
def streamed (d : Desc) (x : StuCtx) : State := (ran (listed d)).setStuCtx 0 0 x

/-- A context whose pass has begun. -/
def begun (d : StreamDesc) : StuCtx := StuCtx.idle.beginPass d

def armOf (d : StreamDesc) : Desc := desc 0x60 [(128, d.toNat)]

theorem test_hyps_StreamDescriptorsIssue :
    (good (streamed (armOf sdLoad) .idle) armKind (armOf sdLoad) = true ∧ armIndir (armOf sdLoad) = false) ∧
    (good (streamed (armOf sdLoad) (begun sdLoad)) armKind (armOf sdLoad) = true ∧ (begun sdLoad).st ≠ .idle ∧
      (begun sdLoad).passDone = false) ∧
    (let d := desc 0x60 [(76, 1), (128 + 28, 1), (128, 1)]
     good (streamed d .idle) armKind d = true ∧ armIndir d = true) ∧
    (let d := desc 0x61 [(80, 2)]
     let s := (streamed d (begun sdLoad)).onCore 0 fun c => c.write 0x17E000 (natLe 32 (packed [(63, 1), (128, 64), (156, 3), (160, 64)]))
     good s (loadKind 0x61 0) d = true ∧ tiPoison (s.core 0) (s.env 0) d [0] = none ∧ (s.core 0).staleTiles 0 = [] ∧
       (begun sdLoad).cur = some sdLoad) ∧
    (let out := sdLoad ||| BitVec.ofNat 256 (2 ^ 62)
     let d := desc 0x62 [(80, 2)]
     let s := (streamed d (begun out)).onCore 0 fun c => c.write 0x17E000 (natLe 32 (packed [(63, 1), (128, 64), (156, 3), (160, 64)]))
     good s (loadKind 0x62 1) d = true ∧ tiPoison (s.core 0) (s.env 0) d [0] = none ∧ (s.core 0).staleTiles 0 = [] ∧
       (begun out).cur = some out) ∧
    (let d := desc 0x63 [(76, 1)]
     good (streamed d { begun sdRing with tail := 1 }) acquireKind d = true) ∧
    (let d := desc 0x64 [(80, 1)]
     good (streamed d { begun sdRing with tail := 1, acq := 1 }) releaseKind d = true) ∧
    (let d := desc 0x65 []
     good (streamed d .idle) disarmKind d = true ∧ good (streamed d (begun sdRing)) disarmKind d = true) := by
  decide +kernel

theorem test_hyps_AcquireWritesTensorEntryOnly :
    let d := desc 0x63 [(76, 1)]
    let s := streamed d { begun sdRing with tail := 1 }
    s.issuable 0 acquireKind = some d ∧ next (exec (.sAcquire 0) s) (fun t => (t.stu 0 0).acq = 1) = true ∧
      0x17E000 + 32 * tensorIndex d (s.env 0).loops 0 + 8 ≤ 0x17E008 := by decide +kernel

/-- A tile of a descriptor in flight. -/
def tileOf (d : StreamDesc) : Tile := ⟨d, 0, 0, 0, false, none, .moving, false, false, true⟩

/-- The descriptor that a fetch from SPD offset 64 brings. -/
def fetched (s : State) (d : StreamDesc) : Bool := match s.fetchSd 0 ⟨true, 64⟩ with | .ok e => e = d | _ => false

theorem test_hyps_StreamEventsTakeEffect :
    (let s := (streamed 0 { StuCtx.idle with st := .active, fetch := some (⟨true, 64⟩, some 0) }).onCore 0 fun c =>
        c.write 64 (natLe 32 sdLoad.toNat)
     fetched s sdLoad = true ∧ s.streamFaults (s.core 0).ctx sdLoad = [] ∧ shadowBad StuCtx.idle.first sdLoad = false ∧
       (s.stu 0 0).st ≠ .disarming) ∧
    (let x := { begun sdLoad with shadowFetch := some (⟨true, 64⟩, 0) }
     let s := (streamed 0 x).onCore 0 fun c => c.write 64 (natLe 32 sdLoad.toNat)
     fetched s sdLoad = true ∧ s.streamFaults (s.core 0).ctx sdLoad = [] ∧ shadowBad x.first sdLoad = false ∧ x.fetch = none ∧
       x.st = .active ∧ x.cur ≠ none) ∧
    (let x := { begun sdLoad with fetch := some (⟨true, 64⟩, none) }
     let s := (streamed 0 x).onCore 0 fun c => c.write 64 (natLe 32 sdLoad.toNat)
     fetched s sdLoad = true ∧ chainBad x.first sdLoad = false ∧ Sd.ring sdLoad = false ∧ x.cur ≠ none) ∧
    (let e := { entryOf (desc 0x64 [(80, 1)]) .wait with unit := 6 }
     let s := windowed e
     (s.core 0).seq.entry 0 = some e ∧ Dsc.opcode e.desc = 0x64 ∧ e.st = .wait ∧
       ((s.core 0).seq.window.all fun v => 0 ≤ v.serial || v.st = .done) = true) ∧
    (let x := { begun sdLoad with tiles := [tileOf sdLoad] }
     let s := streamed 0 x
     x.movingAt 0 = some 0 ∧ x.tiles[0]? = some (tileOf sdLoad) ∧ s.tileEnd 0 0 (tileOf sdLoad) = .ok) ∧
    (let t := { tileOf sdLoad with admitted := false }
     let x := { begun sdLoad with tiles := [t] }
     x.movingAt 0 = some 0 ∧ x.tiles[0]? = some t ∧ ((streamed 0 x).tileEnd 0 0 t matches .fault _)) ∧
    (let x := { begun sdLoad with cur := none }
     x.passDone = true ∧ x.drained = true ∧ x.shadow = none ∧ x.shadowFetch = none ∧ ({ x with shadow := some sdLoad } : StuCtx).passDone = true) ∧
    (let x := { begun sdLoad with st := .disarming, cur := none, disarmer := some 0 }
     x.shedMoved.disarmed = true ∧ x.shedMoved.disarmer = some 0) := by
  decide +kernel
/-! The tiers. -/

/-- Mark a block of the outer tier. -/
def marked (b : Nat) (m : Byte) : State := { up with tiers := up.tiers.setMap b m }

theorem test_hyps_OuterTierStoresBytes :
    (0xFFFFFFFFFE#40).toNat + [1#8, 2].length ≤ outerSize up.dev.variant ∧ up.heldBlock 0xFFFFFFFFFE 2 = none ∧
      up.tiers.partPoison 0xFFFFFFFFFE 2 = false ∧ up.tiers.poisoned 0xFFFFFFFFFE 2 = false ∧
      ((marked 0 (mapByte true false true 8)).heldBlock 0 1).isSome = true := by
  decide +kernel

theorem test_hyps_OuterReadAfterWrite :
    up.heldBlock 4095 2 = none ∧ up.tiers.partPoison 4095 2 = false ∧ ∃ t, exec (.outerWrite .write 4095 [1, 2] SectorFault.none) up = .next t :=
  ⟨by decide +kernel, by decide +kernel, _, rfl⟩

/-- Slot 0 of group 1 repairs a block, with a source in another device named. -/
def repairing (st : Nat) : State := (up.setReg (pgTre 1) 0x20C 0x2000).setSlot 1 0 ⟨st, 16, [], 0⟩

theorem test_hyps_TierServiceAndRepair :
    ((4096 * (0xFFFFFFF#28).toNat + 4096 ≤ outerSize up.dev.variant ∧ mapRepair (up.tiers.mapOf 0xFFFFFFF) = false) ∧ up.power.mod ≠ 3 ∧
    (8 * 805306367 < nearSize ∧ (up.tiers.page (8 * 805306367 / 0x200000)).st ≠ 2 ∧ up.lastOfGroup 0xFFFFFFF = true) ∧
    (let s : State := { up with dev := { up.dev with time := 23760000000001 } }
     10 * Store.get 0 s.flm.scrubAt 4 + 11 * 21600000000000 < 10 * s.dev.time ∧ bit (s.reg pgFlm 0x11C) 8 = false) ∧
    (up.accepts (.ctl 0) (pgTre 3) 0x104 = true ∧ Store.get 15 up.tiers.lost 3 = 15 ∧ fld (8 : Word) 3 0 ≤ 8) ∧
    (up.accepts (.ctl 0) (pgTre 0) 0x100 = true ∧ up.locked (pgTre 0) = false ∧ splitOk 0x00080404 = true ∧ splitOk 0x00090404 = false) ∧
    (up.accepts (.ctl 0) (pgTre 1) 0x20C = true ∧ bit (0x80000000 : Word) 31 = true ∧ ((repairing 1).slotOf 1 0).st = 1 ∧
      ((repairing 2).slotOf 1 0).st = 2) ∧
    (up.accepts (.ctl 0) (pgTre 1) 0x204 = true ∧ ((repairing 1).slotOf 1 0).st ≠ 0) ∧
    (((repairing 2).slotOf 1 0).st = 2 ∧
      (repairing 2).sourceHeld ((repairing 2).repairSource 1 0) = false ∧
      (repairing 2).sourceBlock 1 0 ((repairing 2).repairSource 1 0) none = none) ∧
    (let s : State := { repairing 1 with dev := { up.dev with time := 100000000 } }
     (s.slotOf 1 0).st ≠ 0 ∧ (s.slotOf 1 0).since + s.repairLimit ≤ s.dev.time)) ∧
    (repairing 2).sourceBlock 1 0 ((repairing 2).repairSource 1 0) (some (List.replicate 4096 7)) = some (List.replicate 4096 7) ∧
    (List.replicate 4096 (7 : Byte)).length = 4096 := by
  have h : (repairing 2).repairSource 1 0 = .far 1 0 := by decide +kernel
  refine ⟨by decide +kernel, ?_, List.length_replicate⟩
  rw [h]; rfl

/-- An entry of the tier schedule: 256 bytes of `W` at the start of the outer tier, last use 3. -/
def entry : PacerEntry :=
  ⟨5, BitVec.ofNat 768 (packed [(128, 64), (156, 8), (160, 64), (256 + 32, 3)]), 0, 1, 1, false, false, false, false, false⟩

def pacing (p : Pacer) : State := { up with tiers := { up.tiers with pacer := p }, dev := { up.dev with time := 20000000 } }

def fetching : Txn := ⟨9, .bus, 2048, 0, 64, false, [], [], 0, false, 0, 0⟩

theorem test_hyps_PacerAndHostWindow :
    (let s := pacing { Pacer.reset with promoting := [entry] }
     s.tiers.pacer.promoting = [entry] ∧ entry.idx = (5#16).toNat ∧ ∀ p ∈ homeSpans entry.bits, (s.homeBytes entry.idx p).isSome = true) ∧
    (let s := pacing { Pacer.reset with resident := [entry], cursor := 4 }
     s.tiers.pacer.resident.find? (·.idx = (5#16).toNat) = some entry ∧ s.demotionDue entry = true ∧ s.entryHeld entry = false ∧
       s.homeHeld entry = false) ∧
    (pacing { Pacer.reset with waiting := some (10000000, false) }).tiers.pacer.waiting = some (10000000, false) ∧
    (0x1FFFFFFFFF#37).toNat + 1 ≤ hostSize ∧ hostSize < (0x1FFFFFFFFF#37).toNat + 2 ∧
    (up.accepts (.ctl 0) pgHbr 0x208 = true ∧ bit (5 : Word) 31 = false) ∧
    (let s : State := { up with xlat := { up.xlat with busy := true } }
     s.xlat.busy = true ∧ s.xlat.all = false) ∧
    ({ up with txns := [fetching] } : State).txns.find? (fun t => t.tag = 9 && t.dst = 2048 && !t.done && !t.write) = some fetching := by
  refine ⟨⟨rfl, rfl, ?_⟩, ?_⟩
  · have h : (homeSpans entry.bits).all (fun p =>
        ((pacing { Pacer.reset with promoting := [entry] }).homeBytes entry.idx p).isSome) = true := by decide +kernel
    exact List.all_eq_true.mp h
  · decide +kernel

/-! Batons. -/

/-- A baton of type t in context 0 from device 3. -/
def baton (t : Nat) (seq lap arg : Nat) : Baton :=
  ⟨BitVec.ofNat 8 t, 0, 0, 3, 0, BitVec.ofNat 16 seq, BitVec.ofNat 32 lap, BitVec.ofNat 32 arg, 0⟩

/-- The epoch of context 0 is e. -/
def epoched (e : Nat) : State := (schUp up).setReg pgSch 0x180 (BitVec.ofNat 32 e)

theorem test_hyps_BatonsAreChecked :
    let d := fun (s : State) (b : Baton) => (b.epoch.toNat + 256 - s.ctxEpoch b.ctx.toNat) % 256
    rowBaton (.loss (baton 2 0 0 0)) = some (2, baton 2 0 0 0) ∧
    ((epoched 0).nextBaton (baton 2 0 0 0) = true ∧ d (epoched 0) (baton 2 0 0 0) = 0 ∧ (epoched 0).lap = 0) ∧
    ((epoched 0).nextBaton (baton 1 0 0xFFFFFFFF 0) = true ∧ (baton 1 0 0xFFFFFFFF 0).lap = 0xFFFFFFFF) ∧
    d (epoched 128) (baton 2 0 0 0) = 128 ∧ d (epoched 129) (baton 2 0 0 0) = 127 ∧ d (epoched 255) (baton 2 0 0 0) = 1 ∧
    ((epoched 255).nextBaton (baton 2 0 0 0) = true ∧ (epoched 128).nextBaton (baton 2 0 0 0) = true) ∧
    (baton 2 0 1 0).lap.toNat = (epoched 0).lap + 1 ∧ (epoched 0).lap + 1 < (baton 2 0 2 0).lap.toNat ∧
    (baton 2 0 0 0).lap.toNat < ((epoched 0).setReg pgSch 0x104 1).lap ∧ ((epoched 0).setReg pgSch 0x104 1).nextBaton (baton 2 0 0 0) = true ∧
    (epoched 0).batonRoom (baton 2 0xFFFF 0 0) = true ∧ seqBehind 0 (baton 2 0xFFFF 0 0).seq.toNat = true ∧
    seqBehind 0 (baton 2 1 0 0).seq.toNat = false ∧ (epoched 0).expected 3 = 0 := by
  decide +kernel

theorem test_hyps_BatonsTakeEffect :
    let s0 := hvuUp ((epoched 0).setReg pHvu 0x10C 1)
    let s := (s0.setChan 0 { Chan.reset with valid := true }).setHurdle 0 { Hurdle.reset with valid := true }
    s.nextBaton (baton 1 0 0 0) = true ∧ (baton 1 0 0 0).lap.toNat = s.lap ∧ s.ctxEpoch 0 = 0 ∧
    ((s.chan 0).valid = true ∧ (s.chan 0).ctx = 0) ∧ (s.lapBaton (baton 2 0 0 0) = true ∧ s.sch.losses = []) ∧
    ((s.hurdleOf 0).valid = true ∧ (s.hurdleOf 0).ctx = 0 ∧ (s.hurdleOf 0).root = s.ownId ∧ (s.hurdleOf 0).gen = 0 ∧ (s.hurdleOf 0).devices = []) ∧
    (s.hvuOn = true ∧ fld (baton 5 0 0 0).arg 11 0 < s.bktCount) ∧ s.sch.children = [] ∧
    (s.onSch fun c => { c with lapwait := true }).sch.lapwait = true ∧ s.nextBaton (baton 0xE 0 0 0) = true ∧
    (let t : State := { s.onSch fun c => { c with held := [⟨baton 2 1 0 0, 0, true, false⟩] } with dev := { up.dev with time := 100000 } }
     t.sch.held.any (fun g => g.ahead && !g.gap && g.b.src = (baton 2 1 0 0).src && g.since + 100000 ≤ t.dev.time) = true) := by
  decide +kernel
/-! Laps, buckets and the harvest. -/

/-- The SCH and HVU 0 ON over bucket 0: its record at 0x102000 with n members, one matrix of 64 × 64, two slots from 0x400000,
and its reduction record at 0x104000 with some flags; the lap is 1. -/
def bucketed (n flags : Byte) : State :=
  let s := ((((((((hvuUp (schUp (ran up))).setReg pHvu 0x104 0x102000).setReg pHvu 0x10C 1).setReg pHvu 0x110 0x400000).setReg pHvu 0x118
    0x00020001).setReg pgSch 0x12C 0x104000).setReg pgSch 0x104 1).setReg pgSch 0x134 5).setReg pgSch 0x13C 0x80000000
  { s with tiers := { s.tiers with outer := [(0x100000, 64), (0x100003, 64), (0x10000A, 0x20), (0x100012, 0x30), (0x102006, 127),
      (0x102007, 0x10), (0x10200E, 1), (0x102012, 0x10), (0x102016, 1), (0x10201F, n), (0x102021, 0x10), (0x102022, 0x10),
      (0x104008, flags)] } }

/-- A byte of the outer tier set. -/
def poked (s : State) (a : Nat) (v : Byte) : State := { s with tiers := { s.tiers with outer := Store.set 0 s.tiers.outer a v } }

/-- The bucket with its one matrix of a single element, whose record has `CONTRIB` c. -/
def single (n flags c : Byte) : State :=
  poked (poked (poked (bucketed n flags) 0x100000 1) 0x100003 1) 0x10200C c

def slot0 : SlotRec := ⟨0, 0, 1, 1, 0, 0, 0, false, 0, false, false⟩

def lapping (f : Sch → Sch) : State := (schUp up).onSch fun c => f { c with order := [slot0, slot0], ready := true }

/-- The SCH of a run whose heat 0 has one launch entry in each pass. -/
def heated (f : Sch → Sch) : State :=
  poked (poked (poked ((schUp (ran up)).onSch fun c => f { c with order := [slot0, slot0], ready := true }) 3 1) 14 1) 22 1

theorem test_hyps_LapsAdvance :
    ((powered up pgSch).accepts (.ctl 0) pgSch 0x100 = true ∧ bit ((powered up pgSch).reg pgSch 0x100) 31 = false ∧ bit ((schUp up).reg pgSch 0x100) 31 = true ∧ (schUp up).accepts (.ctl 0) pgSch 0x100 = true) ∧
    (let s := lapping id
     s.schOn = true ∧ s.sch.faulted = false ∧ s.sch.withdrawn = false ∧ s.sch.ready = true ∧ s.sch.begun = false ∧ s.mending = false ∧
       s.hvu.toCompare = [] ∧ s.flm.hold = false ∧ s.sch.order[0]? = some slot0 ∧ s.heatBad (s.heatBits slot0.heat) = true) ∧
    (let s := heated id
     s.schOn = true ∧ s.sch.faulted = false ∧ s.sch.withdrawn = false ∧ s.sch.ready = true ∧ s.sch.begun = false ∧ s.mending = false ∧
       s.hvu.toCompare = [] ∧ s.flm.hold = false ∧ s.sch.order[0]? = some slot0 ∧ s.heatBad (s.heatBits slot0.heat) = false) ∧
    (let s := heated fun c => { c with begun := true }
     s.schOn = true ∧ s.sch.faulted = false ∧ s.sch.withdrawn = false ∧ s.sch.ready = true ∧ s.sch.begun = true ∧ s.slotDone = true ∧
       s.sch.order[s.sch.slot + 1]? = some slot0 ∧ s.heatBad (s.heatBits slot0.heat) = false) ∧
    (let s := powered (lapping fun c => { c with begun := true, isOpen := true, toLaunch := [⟨127, true, 0⟩] }) (pgCore 131)
     s.siteOf 127 = 131 ∧ s.sch.toLaunch.find? (fun l => l.lcore = 127) = some ⟨127, true, 0⟩ ∧ s.sch.order[s.sch.slot]? = some slot0 ∧
       s.schOn = true ∧ s.sch.isOpen = true ∧ s.blockUp (pgCore 131) = true ∧ (s.core 131).seq.st = .idle) ∧
    (∀ (kids : Fin 2) (root wait : Bool),
      let s0 := (lapping fun c => { c with begun := true, slot := 1, children := List.replicate kids.val 5 })
      let s := (s0.setReg pgSch 0x13C (if root then 0x80000000 + BitVec.ofNat 32 kids.val else 0)).onFlm fun f =>
        { f with toRetire := if wait then [7] else [] }
      s.schOn = true ∧ s.sch.faulted = false ∧ s.sch.lapwait = false ∧ s.lapDone = true ∧ s.childrenDone = true ∧
        s.flm.hold = false ∧ bit (s.reg pgSch 0x13C) 31 = root ∧ s.wantsEpoch = wait ∧ (s.sch.children = [] ↔ kids.val = 0)) ∧
    ((schUp up).accepts (.ctl 0) pgSch 0x140 = true ∧ (schUp up).schOn = true ∧ (schUp up).sch.withdrawn = false ∧
      (schUp up).hvuOn = false ∧ (bucketed 1 0).hvuOn = true ∧ (bucketed 1 0).sch.withdrawn = false ∧ (bucketed 1 0).schOn = true) := by
  decide +kernel

theorem test_hyps_BucketsReduce :
    (let s := fun f => (bucketed 2 f).onSch fun c => { c with locals := [(0, 5)] }
     Rd.isLocal ((s 0).red 0) = false ∧ Rd.wd ((s 0).red 0) = false ∧ Rd.closed ((s 0).red 0) = false ∧
     (∀ f ∈ [0, 1, 2, 4], (s f).schOn = true ∧ (s f).hvuOn = true ∧ (s f).sch.locals.contains (0, 5) = true) ∧
     Rd.isLocal ((s 1).red 0) = true ∧ Rd.wd ((s 4).red 0) = true ∧
     (Rd.isLocal ((s 2).red 0) = false ∧ Rd.wd ((s 2).red 0) = false ∧ Rd.closed ((s 2).red 0) = true)) ∧
    (let s := bucketed 2 1
     s.schOn = true ∧ s.hvuOn = true ∧ 0 < s.bktCount ∧ Rd.isLocal (s.red 0) = true ∧ Rd.wd (s.red 0) = false ∧
       (others (s.bucket 0)).contains 1 = true ∧ (s.bkt 0).partSent.contains 1 = false ∧
       s.txns.any (fun t => shardOf 0 1 t && (!t.done || t.status != 0)) = false) ∧
    (let s : State := { (bucketed 2 1).onBkt 0 fun x => { x with start := some 0 } with dev := { up.dev with time := 5000 } }
     (s.bkt 0).start = some 0 ∧ s.schOn = true ∧ s.hvuOn = true ∧ fld (s.reg pgSch 0x134) 23 0 ≠ 0 ∧ Rd.closed (s.red 0) = false ∧
       0 + 1000 * fld (s.reg pgSch 0x134) 23 0 ≤ s.dev.time) ∧
    (let s := (single 2 3 0).onHvu fun h => { h with reduceQ := [0] }
     s.nextPass = some 0 ∧ s.hvuOn = true ∧ s.hvu.seeding = false ∧ s.reduceFault 0 (s.bucket 0) = none ∧
       (s.reduceReads (s.bucket 0) 0).any (fun x => s.tiers.repairing x.1 x.2) = false) ∧
    (let s : State := { (single 2 3 0).onHvu fun h => { h with reduceQ := [0] } with runs := [] }
     s.nextPass = some 0 ∧ s.hvuOn = true ∧ s.hvu.seeding = false ∧ s.reduceFault 0 (s.bucket 0) = some 9 ∧
       (s.reduceReads (s.bucket 0) 0).any (fun x => s.tiers.repairing x.1 x.2) = false) := by
  decide +kernel

theorem test_hyps_HarvestSteps :
    (let s := (bucketed 1 0).setReg pHvu 0x100 0
     s.accepts (.ctl 0) pHvu 0x100 = true ∧ bit (s.reg pHvu 0x100) 31 = false ∧ bit (0x80000000 : Word) 31 = true ∧
       (s.setReg pHvu 0x100 (0x80000000 &&& 0x70000000)).bucketsRefused = false ∧
       ((s.setReg pHvu 0x10C 0).setReg pHvu 0x100 0).bucketsRefused = true) ∧
    (let s := (single 1 0 1).onHvu fun h => { h with queue := [0] }
     s.hvu.job = none ∧ s.hvu.queue = [0] ∧ s.hvuOn = true ∧ s.tablesFault 0 (s.bucket 0) = none ∧ Bk.lap (s.bucket 0) ≠ s.lap ∧
       bit (s.reg pHvu 0x100) 31 = true) ∧
    (∀ c : Fin 2,
      let s := (single 1 0 (BitVec.ofNat 8 c.val)).onHvu fun h => { h with job := some ⟨0, 3, 1, false⟩ }
      s.hvu.job = some ⟨0, 3, 1, false⟩ ∧ s.hvuOn = true ∧ s.updateHeld (s.bucket 0) 1 = false ∧
        s.updateFault 0 (s.bucket 0) 1 = none ∧ (s.passOuts (s.bucket 0)).any (·.2.bad) = decide (c.val = 0)) ∧
    (∀ p : Fin 7, let s := (single 1 0 1).onHvu fun h => { h with job := some ⟨0, p.val, 1, false⟩ }
      s.hvu.job = some ⟨0, p.val, 1, false⟩ ∧ s.hvuOn = true ∧ s.mirroring 0 = false ∧
        s.txns.any (fun t => match t.client with | .gather c _ => c = 0 | _ => false) = false) ∧
    (let s := poked (single 1 0 1) 0x10205F 0x60
     let t := [0x600000, 0x600001, 0x600002, 0x600003].foldl (fun t a => poked t a 0xFF) s
     Bk.state (s.bucket 0) = 6 ∧ s.hvu.job = none ∧ s.hvu.reduceQ.contains 0 = false ∧ s.hvuOn = true ∧
       Bk.state (t.bucket 0) = 6 ∧ t.hvu.job = none ∧ (t.heldSpare 0).isSome = true ∧ t.masterBad 0 = false ∧ t.hvuOn = true) ∧
    (∀ p ∈ [3, 4], let s := (single 1 0 1).onHvu fun h => { h with job := some ⟨0, p, 1, true⟩ }
      s.hvu.job = some ⟨0, p, 1, true⟩ ∧ s.hvuOn = true ∧ s.masterBad 0 = false) ∧
    ((bucketed 1 0).accepts (.ctl 0) pHvu 0x128 = true ∧ fld (0x40000000 : Word) 11 0 < (bucketed 1 0).bktCount ∧
      fld (0x40000000 : Word) 31 30 = 1 ∧ fld (0x80000000 : Word) 31 30 = 2) := by
  decide +kernel
/-! The key-value directory and the input units. -/

/-- The KVD is ON with EN set, at a phase. -/
def kvdUp (f : Kvd → Kvd) : State :=
  (((powered up pgKvd).setRegBit pgKvd 0x100 31 true).setReg pgKvd 0x104 0x00010001).onKvd f

/-- A step of the run of context 0 whose lists are HALTED. -/
def halted (s : State) : State := { s with ctl := { s.ctl with opens := [⟨0, 2, 0, [], some 0⟩] } }

theorem test_hyps_KeyValueDirectory :
    (let s := ((powered up pgKvd).setReg pgKvd 0x104 0x01000020).setReg pgKvd 0x108 0x00010BFF
     s.accepts (.ctl 0) pgKvd 0x100 = true ∧ bit (s.reg pgKvd 0x100) 31 = false ∧
       (s.setReg pgKvd 0x100 (0x80000000 &&& 0x70000000)).kvdRefused = false ∧
       ((s.setReg pgKvd 0x104 0x01000021).setReg pgKvd 0x100 (0x80000000 &&& 0x70000000)).kvdRefused = true) ∧
    (let s := kvdUp id
     bit (s.reg pgKvd 0x100) 31 = true ∧ s.accepts .host pgKvd 0x200 = true ∧ s.accepts (.ctl 0) pgKvd 0x200 = true ∧
       s.accepts (.ctl 4) pgKvd 0x120 = true ∧ s.kvdOn = true ∧ s.kvd.phase = 0 ∧
       (halted s).accepts (.ctl 4) pgKvd 0x120 = true ∧ (halted s).kvdOn = true ∧ (halted s).kvd.phase = 0 ∧ (halted s).stepHalted = true) ∧
    ((kvdUp fun k => { k with clearing := true }).kvdOn = true ∧ (kvdUp fun k => { k with clearing := true }).kvd.clearing = true) ∧
    (let s := halted (kvdUp fun k => { k with phase := 1 })
     s.accepts (.ctl 4) pgKvd 0x120 = true ∧ s.kvdOn = true ∧ s.kvd.phase ≠ 0 ∧ s.stepHalted = true) ∧
     (kvdUp fun k => { k with due := true }).kvd.due = true ∧
    (kvdUp fun k => { k with phase := 3 }).kvd.phase = 3 ∧
    (let s := kvdUp fun k => { k with moves := [⟨0, 0, true, [2]⟩] }
     s.kvd.moves[0]? = some ⟨0, 0, true, [2]⟩ ∧ s.kvdOn = true ∧ s.moveHeld ⟨0, 0, true, [2]⟩ = false) := by
  decide +kernel

/-- A job of one sample of one frame, whose first attempt is in pipe 15. -/
def job : MdeJob := ⟨0, BitVec.ofNat 1024 (packed [(256 + 48, 1), (896 + 32, 1)]), 0, 0, 0, 0, [⟨0, 1, 0, 0xFFFF, 1, false⟩], false⟩

/-- A picture of 2 × 2 without chroma. -/
def picture : MediaHeader := ⟨true, true, true, true, 2, 2, 8, 0⟩

/-- The MDE and the SAU are ON, in a run, with device time t. -/
def inputUp (t : Nat) (f : Input → Input) : State :=
  { ((powered (powered (ran up) pgMde) pgSau).setReg pgMde 0x10C 0x80000000).onInput f with dev := { up.dev with time := t } }

theorem test_hyps_InputUnits :
    (let s := inputUp 0 id
     s.accepts (.ctl 0) pgMde 0x114 = true ∧ s.input.jobs.length < 32 ∧ (s.jobCtx 0 128).isSome = true ∧
       s.accepts (.ctl 0) pgSau 0x114 = true ∧ s.input.sau.length < 32 ∧ (s.jobCtx 0 96).isSome = true ∧ up.jobCtx 0 96 = none ∧
       s.jobCtx 0x3FFFFFF 96 = none) ∧
    32 ≤ (inputUp 0 fun x => { x with jobs := List.replicate 32 job }).input.jobs.length ∧
    (let s := inputUp 0 fun x => { x with jobs := [{ job with atts := [] }] }
     s.power.mod = 2 ∧ s.present pgMde = true ∧ s.enabled pgMde = true ∧ Store.get none s.input.pipes 15 = none ∧
       s.pipeWork 15 = some ({ job with atts := [] }, 0)) ∧
    (let p : MdePipe := ⟨0, 0, 0, 0, picture⟩
     let s := fun t => inputUp t fun x => { x with jobs := [job], pipes := [(15, some p)] }
     (s 0).pipeAttempt 15 = some (p, job, ⟨0, 1, 0, 0xFFFF, 1, false⟩) ∧
       (s 0).decodeLate job p (Sp.cls ((s 0).attemptSample job ⟨0, 1, 0, 0xFFFF, 1, false⟩)) = false ∧
       (Sp.frame0 ((s 0).attemptSample job ⟨0, 1, 0, 0xFFFF, 1, false⟩) + Mr.nfr job.bits) * frameBytes picture ≤ [0#8, 1, 2, 3].length ∧
       (s 1000000000000).decodeLate job p (Sp.cls ((s 0).attemptSample job ⟨0, 1, 0, 0xFFFF, 1, false⟩)) = true) ∧
    (inputUp 0 fun x => { x with sau := [⟨0, 0, none, false⟩] }).input.sau = [⟨0, 0, none, false⟩] ∧
    (let s := fun o r => inputUp 0 fun x => { x with owner := o, releasing := r }
     (s 0 false).accepts (.ctl 0) pgSau 0x100 = true ∧ (s 0 false).accepts (.ctl 0) pgMde 0x100 = true ∧
       (s 2 false).input.owner = 2 ∧ (s 1 false).input.owner = 1 ∧ (s 1 true).input.releasing = true ∧ (s 1 true).stageUsed = false) := by
  decide +kernel

/-! Links. -/

/-- Port 11 in a state. -/
def ported (f : Port → Port) : State := up.setPort 11 (f Port.reset)

/-- A packet of a type on a channel, with a length and data, for this device from device 7, tag 5. -/
def packet (t v l : Nat) (data : List Byte) : Packet :=
  ⟨true, false, false, 0, 0, 0, 0, BitVec.ofNat 5 t, BitVec.ofNat 2 v, false, 0, 7, BitVec.ofNat 6 l, 5, 0, 0, data⟩

/-- A request to device 7 with tag 5. -/
def request (w : Bool) : Txn := { fetching with tag := 5, dst := 7, write := w }

def linked (w : Bool) : State := { ported (fun p => { p with st := 3 }) with txns := [request w] }

/-- What an arrival at port 11 does first. -/
def met (s : State) (k : Packet) : State := (s.stir 11 k).takeCredits 11 k

/-- Port 11 with a request that waits. -/
def waits : State := { linked false with links := { (linked false).links with stalled := [(11, packet 2 0 1 [])] } }

theorem test_hyps_PacketsArrive :
    ((linked false).portActive 11 = true ∧ (linked false).portActive 12 = false ∧
    rowPacket (.rdReq 11 (packet 2 0 1 [])) = some (2, 11, packet 2 0 1 []) ∧
    ({ packet 2 0 1 [] with hcrcOk := false } : Packet).hcrcOk = false ∧ packetAllowed (packet 2 1 1 []) = false ∧
    packetAllowed (packet 1 0 0 []) = true ∧
    (packetAllowed (packet 2 0 1 []) = true ∧ (packet 2 0 1 []).dst.toNat = (met (linked false) (packet 2 0 1 [])).ownId ∧
      ({ packet 2 0 1 [] with dst := 6 } : Packet).dst.toNat ≠ (met (linked false) (packet 2 0 1 [])).ownId) ∧
    ((packet 2 0 1 []).vc = 0 ∧ (packet 2 0 1 []).type ≠ 1 ∧
      (let held := fun (t : State) => t.links.stalled.any (·.1 = 11) || t.responseHeld 7
       held (met (linked false) (packet 2 0 1 [])) = false ∧ held (met waits (packet 2 0 1 [])) = true)) ∧
    (∀ t ∈ [3, 4, 5, 6, 7, 8], packetAllowed (packet t 2 1 [1]) = true) ∧
    (∀ t ∈ [9, 0xA], packetAllowed (packet t 1 0 []) = true) ∧
    (packetAllowed (packet 0xB 0 1 []) = true ∧ packetAllowed (packet 0xC 0 1 [1, 2, 3, 4]) = true ∧
      packetAllowed (packet 0xD 1 1 [1, 2, 3, 4]) = true)) ∧
    (∀ w, (met (linked w) (packet 3 2 1 [1])).asked (packet 3 2 1 [1]) = some (request w)) := by
  exact ⟨by decide +kernel, fun w => by cases w <;> decide +kernel⟩

theorem test_hyps_PortsTrainAndFail :
    (linked false).power.mod = 2 ∧ (linked false).portActive 11 = true ∧
    (up.accepts (.ctl 0) (pgFl 11) 0x104 = true ∧ up.hostPort 11 = false ∧ up.locked (pgFl 11) = false ∧
      bit (up.reg (pgFl 11) 0x104) 31 = false ∧ bit ((up.setRegBit (pgFl 11) 0x104 31 true).reg (pgFl 11) 0x104) 31 = true) ∧
    up.accepts (.ctl 0) pgRoute 0x100 = true ∧ up.flaip 11 = true ∧
    (let s : State := { (ported fun p => { p with st := 1 }).setRegBit (pgFl 11) 0x104 31 true with dev := { up.dev with time := 1000000000 } }
     (s.port 11).st = 1 ∧ bit (s.reg (pgFl 11) 0x104) 31 = true ∧ (s.port 11).since + 1000000000 ≤ s.dev.time) ∧
    (let s : State := { ported (fun p => { p with st := 2, step := 1 }) with dev := { up.dev with time := 100000000 } }
     (s.port 11).st = 2 ∧ (s.port 11).step = 1 ∧ (s.port 11).since + 100000000 ≤ s.dev.time) ∧
    (∀ k ∈ [2, 3, 4, 5], ((ported fun p => { p with st := 2, step := k }).port 11).step = k) ∧
    (let l := fun (a : BitVec 4) => Nat.land (Nat.land a.toNat (up.lanesOn 11)) 15
     laneCount (l 8) < 2 ∧ 2 ≤ laneCount (l 9)) ∧
    (let both := fun (a : BitVec 4) => Nat.land ((ported fun p => { p with st := 2, step := 4, lanes := 15 }).port 11).lanes a.toNat
     laneCount (both 8) < 2 ∧ 2 ≤ laneCount (both 9)) ∧
    ((ported fun p => { p with st := 4 }).port 11).st = 4 ∧
    (let s : State := { ported (fun p => { p with st := 3, relay := [⟨0, 0, packet 1 0 0 []⟩] }) with dev := { up.dev with time := 50000 } }
     (s.port 11).st = 3 ∧ (s.port 11).relay ≠ [] ∧ (s.port 11).since + 50000 ≤ s.dev.time) ∧
    (let s : State := { linked true with dev := { up.dev with time := 10000000 } }
     s.txn 5 = some (request true) ∧ (request true).done = false ∧ (request true).dst ≠ 2048 ∧
       (request true).since + 10000000 ≤ s.dev.time) := by
  decide +kernel
/-! Events. -/

/-- Source registers, pending sources and stacks of the event hubs. -/
def eventing (f : Evh → Evh) (s : State) : State := { s with evh := f s.evh }

/-- Sources 5 and 6 enabled with priority 7 for target 0, both pending, over source 9 of priority 6 in service. -/
def claiming : State :=
  eventing (fun e => { e with pend := [5, 6], serving := [(0, [(9, 6)])] })
    (((up.setReg 1 (evSrc 5) 0x83800000).setReg 1 (evSrc 6) 0x83800000).setReg 1 (evSrc 9) 0x83000000)

theorem test_hyps_ClaimTakesHighestPriority :
    claiming.reachable 1 0x400 = true ∧ claiming.hubUp 0 = true ∧ claiming.isFrozen 0 = false ∧ claiming.evh.pend.Pairwise (· < ·) ∧
    claiming.claimable 0 5 = true ∧
    (∀ m ∈ claiming.evh.pend, claiming.claimable 0 m = true → m ≠ 5 →
      claiming.srcPrio m < claiming.srcPrio 5 ∨ (claiming.srcPrio m = claiming.srcPrio 5 ∧ 5 < m)) ∧
    (∀ n ∈ up.evh.pend, up.claimable 0 n = false) ∧ up.reachable 2 0x480 = true ∧ up.hubUp (hubOf 8) = true ∧ up.dev.anchor = true := by
  decide +kernel

theorem test_hyps_EventHubs :
    (let s := fun (v : Word) (p : List Nat) => eventing (fun e => { e with pend := p }) { (up.setReg 1 (evSrc 1023) v) with raised := [1023] }
     (s 0 []).power.mod = 2 ∧ (s 0 []).raised.contains 1023 = true ∧ bit ((s 0 []).src 1023) 31 = false ∧
       bit ((s 0x80000000 []).src 1023) 31 = true ∧ Store.get false (s 0x80000000 []).evh.frost 0 = false ∧
       (s 0x80000000 []).evh.pend.contains 1023 = false ∧ (s 0x80000000 []).inService 1023 = false ∧
       (s 0x80000000 [1023]).evh.pend.contains 1023 = true) ∧
    (claiming.accepts (.ctl 0) 1 0x404 = true ∧ claiming.isFrozen 0 = false ∧ claiming.stack 0 = (9, 6) :: [] ∧
      fld (9 : Word) 9 0 = 9 ∧ fld (8 : Word) 9 0 ≠ 9) ∧
    up.accepts (.ctl 0) 1 0x40C = true ∧ up.accepts (.ctl 0) 2 0x48C = true ∧
    (up.accepts (.ctl 0) 1 (evSrc 1023) = true ∧ fld (0xB8004000 : Word) 30 27 < 8 ∧ bit (0xB8004000 : Word) 31 = true ∧
      bit (0xB8004000 : Word) 14 = true) ∧
    (up.accepts .host 1 (evSrc 0) = true ∧ fld (up.src 0) 30 27 ≠ 8) ∧
    (let s := up.setReg (tmrPage 7) (tmrOff 7) 0x80000000
     s.accepts .host (tmrPage 7) (tmrOff 7) = true ∧ s.tmrForeign 7 (writeOwner .host 0) = true ∧ up.tmrForeign 7 (writeOwner (.ctl 0) 15) = false ∧
       up.accepts (.ctl 0) (tmrPage 7) (tmrOff 7) = true ∧ bit (0x80000000 : Word) 30 = false ∧ bit (up.reg (tmrPage 7) (tmrOff 7)) 31 = false ∧
       bit (up.reg (tmrPage 7) (tmrOff 7)) 25 = false ∧ s.tmrDue 7 = true ∧ bit (s.reg (tmrPage 7) (tmrOff 7)) 30 = false) ∧
    (let s := up.setRegBit 2 8 4 true
     s.power.mod = 2 ∧ bit (s.reg 2 8) 4 = true ∧ Store.get false s.evh.frost 1 = false) ∧
    (let s := eventing (fun e => { e with frost := [(1, true)], thaw := [(1, true)] }) up
     Store.get false s.evh.frost 1 = true ∧ Store.get false s.evh.thaw 1 = true) ∧
    (up.accepts .host 0x31 (msixOff 63 3) = true ∧
      (up.setRegBit 0x31 (msixOff 63 3) 0 false).msixPending 63 = false ∧
      (((up.setReg 0x31 0x9004 0x80000000).setRegBit 0x31 (msixOff 63 3) 0 false).msixPending 63 = true)) := by
  decide +kernel
/-! Runs. -/

/-- List 0 with 16 entries at 0, served, over some bytes of the outer tier. -/
def posted (bs : List (Nat × Byte)) : State :=
  let s := up.setReg 0 (subqOff 0 2) 0x80000010
  { s with ctl := { s.ctl with released := true }, tiers := { s.tiers with outer := bs } }

def checkOf (s : State) (h : Header) : Checked :=
  (s.consume 0).checkRun none 0 (s.entryAddr 0 (s.nextEntry 0)) h (s.items (s.entryAddr 0 (s.nextEntry 0)) h)

def headerOf (fs : List (Nat × Nat)) : Header := BitVec.ofNat 512 (packed fs)

theorem test_hyps_RunEntriesAreCheckedAndSetUp :
    (up.accepts (.ctl 0) 0 (subqOff 7 2) = true ∧ up.accepts .host 0 (subqOff 7 2) = true ∧ up.dev.anchor = true ∧ up.subqOn 7 = false ∧
      (posted []).subqOn 0 = true ∧ bit (0x80000010 : Word) 31 = true ∧ up.subqBase 7 + 512 * 4096 ≤ outerSize up.dev.variant ∧
      [16, 32, 64, 128, 256, 512, 1024, 2048, 4096].contains (fld (0x80000010 : Word) 12 0) = true ∧
      [16, 32, 64, 128, 256, 512, 1024, 2048, 4096].contains (fld (0x80000011 : Word) 12 0) = false) ∧
    ({ up with ctl := { up.ctl with watch := [7] } } : State).ctl.watch.contains 7 = true ∧ up.header 0 = none ∧
    (posted [(7, 5)]).header 0 = some (headerOf [(56, 5)]) ∧ 4 < Hd.kind (headerOf [(56, 5)]) ∧
    (posted [(6, 29), (7, 1)]).header 0 = some (headerOf [(56, 1), (48, 29)]) ∧ Hd.kind (headerOf [(56, 1), (48, 29)]) = 1 ∧
    (posted [(6, 29), (7, 1)]).headerBad (headerOf [(56, 1), (48, 29)]) = true ∧
    (let h := headerOf [(56, 1)]
     let s := posted [(7, 1)]
     s.header 0 = some h ∧ Hd.kind h = 1 ∧ s.headerBad h = false ∧ s.dev.anchor = true ∧ s.items 0 h = [] ∧
       (match checkOf s h with | .ok _ u => u.dev.anchor | _ => false) = true) ∧
    (let h := headerOf [(56, 1), (128, 1)]
     (posted [(7, 1), (16, 1)]).header 0 = some h ∧ (match checkOf (posted [(7, 1), (16, 1)]) h with | .refuse .. => true | _ => false) = true) ∧
    (let h := headerOf [(56, 1), (48, 1)]
     let s := posted [(6, 1), (7, 1), (64, 16), (71, 8)]
     s.header 0 = some h ∧ (s.items 0 h).any (fun x => x.type = 0x0F) = false ∧
       (match checkOf s h with | .power _ => true | _ => false) = true) := by
  decide +kernel

/-- List 0 with a STEP entry for the run of context 0, which holds the KVD, at a state of the unit. -/
def stepping (f : Kvd → Kvd) : State :=
  let s := posted [(7, 2)]
  { s with regs := s.regs ++ (kvdUp id).regs, islands := (kvdUp id).islands, kvd := f s.kvd,
           runs := Store.set none [] 0 (some (run0 fun c => { c with kvd := true })) }

theorem test_hyps_StepsAndEndsOfRuns :
    (posted []).power.mod = 2 ∧ (posted []).ctl.released = true ∧
    (let h := headerOf [(56, 2)]
     let s := ran (posted [(7, 2)])
     let u := s.closeSteps
     u.header 0 = some h ∧ Hd.kind h = 2 ∧ u.headerBad h = false ∧ (posted [(7, 2)]).closeSteps.namedRun h = none ∧
       u.namedRun h = some (0, run0 id) ∧ u.items 0 h = [] ∧ (run0 id).claims.kvd = false ∧ (run0 id).claims.kv = [] ∧ (run0 id).ending ≠ 2 ∧
       (posted []).closeSteps.header 0 = none) ∧
    ([3, 4].all fun k =>
      let h := headerOf [(56, k)]
      let s := ran (posted [(7, BitVec.ofNat 8 k)])
      s.header 0 = some h && Hd.kind h = k && !s.headerBad h && s.items 0 h = [] && (posted [(7, BitVec.ofNat 8 k)]).namedRun h = none &&
        s.namedRun h = some (0, run0 id)) = true ∧ (run0 id).ending = 0 ∧
    (let r := { run0 id with ending := 1 }
     let s : State := { posted [(7, 3)] with runs := Store.set none [] 0 (some r) }
     s.namedRun (headerOf [(56, 3)]) = some (0, r) ∧ s.run 0 = some r ∧ s.regsUp = true ∧ r.ending ≠ 0 ∧ s.runQuiet r = true ∧
       s.streamsLeft r = false ∧ r.claims.pacer = false ∧ (s.lapseGrants 0).kvdHeld 0 = false ∧ (s.lapseGrants 0).pagesHeld 0 1 = false ∧
       (s.lapseGrants 0).grantsBusy 0 = false) ∧
    (let r := { run0 fun c => { c with kvd := true } with ending := 1 }
     let s : State := { stepping fun k => { k with moves := [⟨0, 0, true, [2]⟩] } with runs := Store.set none [] 0 (some r) }
     s.run 0 = some r ∧ s.regsUp = true ∧ r.ending ≠ 0 ∧ s.runQuiet r = true ∧ s.streamsLeft r = false ∧ r.claims.pacer = false ∧
       (s.lapseGrants 0).kvdHeld 0 = true) ∧
    ([0, 3].all fun p =>
      let h := headerOf [(56, 2)]
      let s := stepping fun k => { k with phase := p }
      let u := s.closeSteps
      s.power.mod = 2 && s.ctl.released && u.header 0 = some h && Hd.kind h = 2 && !u.headerBad h && u.items 0 h = [] &&
        u.namedRun h = some (0, run0 fun c => { c with kvd := true }) && u.kvdOn && u.kvdStepping 0 = decide (p = 3)) = true ∧
    (let r : Run := { run0 id with accepted := false, parts := [⟨9, 0, none⟩] }
     let s : State := { up with runs := Store.set none [] 7 (some r), dev := { up.dev with time := 100000000 } }
     s.run 7 = some r ∧ s.regsUp = true ∧ r.accepted = false ∧ r.since + 100000000 ≤ s.dev.time ∧
       (r.parts.any fun p => p.device = (9#11).toNat && p.answer.isNone) = true) := by
  decide +kernel

/-- Site 0 stopped in a run by a fault of a code at device 70, the run with or without an SCH. -/
def stopped (code : Nat) (sch : Bool) : State :=
  let s := on0 { up with runs := Store.set none [] 0 (some (run0 fun c => { c with sch := sch })), ctl := { up.ctl with released := true } }
    fun c => { c with ctxValid := true, seq := { c.seq with st := .stoppedFault, frec := { FaultRec.clear with code := code, addr := 70 * 2 ^ 45 } } }
  { s with dev := { s.dev with group := 1 } }

theorem test_hyps_FaultsAreAnswered :
    up.regsUp = true ∧ ({ up with ctl := { up.ctl with released := true } } : State).ctl.released = true ∧ (up.core 0).seq.st ≠ .stoppedFault ∧
    ([1, 5, 6, 10, 12].all fun code => [false, true].all fun b =>
      (stopped code b).regsUp && (stopped code b).ctl.released && ((stopped code b).core 0).seq.st = .stoppedFault &&
        ((stopped code b).core 0).ctxValid && (stopped code b).runLive 0 && ((stopped code b).core 0).seq.frec.code = code &&
        ((stopped code b).claims 0).sch = b && ((stopped code b).stu 0 0).shadow.isNone &&
        ((stopped code b).stu 0 0).shadowFetch.isNone) = true ∧
    (let s := stopped 12 true
     s.isLost 70 = false ∧ gDev (s.core 0).seq.frec.addr = 70 ∧ (s.setReg pgFlm 0x118 0x80000046).isLost 70 = true ∧
       s.listedPort 70 = none ∧ (s.setReg pgRoute 0x418 0x90000000).listedPort 70 = some 0) := by
  decide +kernel
/-! Start-up and the bridge. -/

/-- Changes of the module's power state. -/
def inMod (f : Power → Power) (s : State) : State := { s with power := f s.power }

/-- STANDBY with power good, from reset. -/
def ready : State := inMod (fun p => { p with mod := 1, good := true }) State.reset

theorem test_hyps_StartUpSteps :
    (let s := inMod (fun p => { p with mod := 0, standby := false }) up
     s.power.mod = 0 ∧ s.power.standby = false ∧ 58000 < 58001 ∧ s.power.resetLow = false) ∧
    (let s := inMod (fun p => { p with standby := true, resetLow := true }) up
     s.power.resetLow = true ∧ s.power.standby = true) ∧
    (ready.power.mod = 1 ∧ ready.power.good = true ∧ ready.power.resetLow = false ∧ ready.power.stopping = false ∧
      ready.trb.booted = false ∧ ready.trb.noImage = false) ∧
    (64 ≤ ((ready.riseActive []).goodSites 0).length ∧ 64 ≤ ((ready.riseActive []).goodSites 1).length) ∧
    (let s : State := { up with trb := { up.trb with booted := true } }
     s.power.mod = 2 ∧ s.trb.booted = true ∧ s.ctl.released = false ∧ s.outOfService = false ∧ s.dev.strapSlot = 0) ∧
    (let s : State := { up.setReg 0 0x180 0x40000000 with ctl := { up.ctl with released := true } }
     s.regsUp = true ∧ s.ctl.released = true ∧ fld (s.reg 0 0x180) 31 28 = 4 ∧ s.portsSettled = true ∧ s.dev.anchor = true) ∧
    (let rs : List DeviceReport := [⟨5, true, false⟩, ⟨70, true, true⟩, ⟨6, false, false⟩]
     let here := rs.filter fun d => d.reachedBy && !(d.interGroup && d.id.toNat / 64 != up.dev.group.toNat)
     (here.filterMap fun d => (up.leftOut here d).map fun c => (d.id.toNat, c)) = []) ∧
    (let s := up.setReg 0 0x180 0x60200001
     s.regsUp = true ∧ s.dev.anchor = true ∧ bit (s.reg 0 0x180) 21 = true ∧ s.runActive = false ∧ (63#11).toNat / 64 = s.dev.group.toNat ∧
       (63#11).toNat ≠ s.ownId ∧ bit (s.routeEntry false ((63#11).toNat % 64)) 31 = false) := by
  refine ⟨by decide +kernel, by decide +kernel, by decide +kernel, ?_, by decide +kernel, by decide +kernel, by decide +kernel,
    by decide +kernel⟩
  unfold State.goodSites
  rw [State.riseActive_sites]
  decide +kernel

/-- The bridge selects slot 9, which port 11 reaches. -/
def bridged : State :=
  (((ported fun p => { p with st := 3 }).setReg pgRoute 0x424 0x90000B00).setReg pgHbr 0x100 0x80000009).setReg pgHbr 0x120 3

theorem test_hyps_HostReachesThroughTheBridge :
    bridged.bridgeUp = true ∧ bit (up.reg pgHbr 0x100) 31 = false ∧ bit (bridged.reg pgHbr 0x100) 31 = true ∧
    (0x3FFFFFC#26).toNat % 4 = 0 ∧ (0x3FFFFFE#26).toNat % 4 ≠ 0 ∧
    (let slot := fun (s : State) => s.dev.group.toNat * 64 + fld (s.reg pgHbr 0x100) 5 0
     slot bridged ≠ bridged.ownId ∧ bridged.reaches (slot bridged) = true ∧
       slot (bridged.setReg pgHbr 0x100 0x80000000) = (bridged.setReg pgHbr 0x100 0x80000000).ownId ∧
       (bridged.setReg pgHbr 0x100 0x8000003F).reaches 63 = false) ∧
    (bridged.awaken.barTarget 0x200000000 64 false = none ∧ bridged.awaken.barTarget 0x1FFFFFFC0 64 false = some 0x1FFFFFFC0 ∧
      bridged.awaken.target 0x1FFFFFFC0 64 = .outer 0x1FFFFFFC0 ∧ bridged.awaken.barTarget 0x1FFFFFFC0 64 true = some 0x1FFFFFFC0) ∧
    (let s := bridged.setReg pgHbr 0x124 0x12000
     s.awaken.barTarget 0 4 true = some 0x1200000000000 ∧ s.awaken.target 0x1200000000000 4 = .far 9 0 ∧ s.awaken.reaches 9 = true ∧ 0 + 4 ≤ nearBase) ∧
    (let s := bridged.setReg pgHbr 0x124 0x7E000
     s.awaken.barTarget 0 4 true = some 0x7E00000000000 ∧ s.awaken.target 0x7E00000000000 4 = .far 63 0 ∧ s.awaken.reaches 63 = false) ∧
    (up.dev.anchor = true ∧ up.regsUp = true ∧ up.power.perst = false ∧ up.power.resetLow = false ∧ (inMod (fun p => { p with good := true }) up).power.good = true) ∧
    State.reset.regsUp = false := by
  decide +kernel
/-! Power, the module and the pins. -/

/-- Change the power state of an ACTIVE device. -/
def powerOf (f : Power → Power) : State := inMod f up

theorem test_hyps_CapAndThermalLoops :
    (up.accepts .mgc 4 0x100 = true ∧ up.accepts (.ctl 0) 4 0x100 = true ∧ fld (599 : Word) 11 0 < 600 ∧ 1800 < fld (1801 : Word) 11 0 ∧
      fld (600 : Word) 11 0 = 600 ∧ fld (1800 : Word) 11 0 = 1800) ∧
    (up.accepts (.ctl 0) 6 0x100 = true ∧ fld (1900 : Word) 11 0 = 1900 ∧ up.power.calDefault = false ∧ 1900 < fld (1901 : Word) 11 0) ∧
    up.regsUp = true ∧
    (let s := (powerOf fun p => { p with capActive := true, points := [(0, 5)] }).onCore 0 fun c => { c with seq := { c.seq with window := [{ entryOf (desc 0x10 []) .run with cls := 1 }] } }
     (s.sawPower 65535).effCap < 65535 ∧ (s.sawPower 65535).atFloor = false ∧ s.power.capActive = true) ∧
    (let s := powerOf fun p => { p with fast := true }
     s.power.fast = true ∧ s.power.fastUntil ≤ s.dev.time) ∧
    (up.power.lowv = false ∧ (powerOf fun p => { p with lowv := true }).power.lowv = true) ∧
    (List.replicate 180 (⟨true, 0⟩ : SensorReading)).length = 180 := by
  decide +kernel

theorem test_hyps_RegulatorsKeepTheirTrim :
    up.regsUp = true ∧ up.power.shed.contains (3, 11) = false ∧ up.power.shed.contains (0, 5) = false ∧ up.present (pgCore 131) = true ∧
    (let s := powerOf fun p => { p with droops := [(0, 1000), (1, 1000)] }
     Store.get 0 s.power.droops (halfOf (pgCore 131)) + 1 = 1001) ∧
    max (Store.get 0 up.power.margins (pgCore 131)) (5 * 5) < 30 ∧ 0 < 1 := by
  decide +kernel

theorem test_hyps_ModuleStatesFollowSupplyAndReset :
    (let s := powerOf fun p => { p with standby := true }
     s.power.standby = true ∧ s.power.mod ≠ 0) ∧
    up.regsUp = true ∧ ((powerOf fun p => { p with mod := 1 }).power.mod = 1 ∧ (powerOf fun p => { p with mod := 1 }).power.stopping = false) ∧
    (powerOf fun p => { p with stopping := true }).power.stopping = true ∧
    (let s := powerOf fun p => { p with mod := 3, wake := true }
     s.power.mod = 3 ∧ s.power.wake = true) ∧
    (up.power.shed = [] ∧ (powerOf fun p => { p with shed := [(0, 1)] }).power.shed ≠ []) ∧
    (up.accepts (.ctl 0) 4 0x110 = true ∧ bit (1 : Word) 0 = true ∧ up.runActive = false ∧
      (ran up).accepts (.ctl 0) 4 0x110 = true ∧ (ran up).runActive = true) := by
  decide +kernel

/-- Pin 7 has a function for firmware. -/
def taken (f : Nat) : State := up.setReg 0 (gpxOff 7) (BitVec.ofNat 32 (packed [(31, 1), (28, f), (24, 8)]))

theorem test_hyps_GpxPinsServeTheirFunction :
    (up.accepts .host 0 (gpxOff 7) = true ∧ up.accepts (.ctl 0) 0 (gpxOff 7) = true ∧ bit (up.reg 0 (gpxOff 7)) 31 = false ∧
      bit (0xD0000000 : Word) 31 = true ∧ fld (0xD0000000 : Word) 30 28 = 5 ∧ up.gpxUnitHeld 7 5 = false) ∧
    (bit ((taken 2).reg 0 (gpxOff 7)) 31 = true ∧ fld ((taken 2).reg 0 (gpxOff 7)) 27 24 = 8) ∧
    (6 ≤ fld (0xE0000000 : Word) 30 28 ∧ (taken 2).gpxUnitHeld 0 2 = true ∧ bit ((taken 2).reg 0 (gpxOff 0)) 31 = false) ∧
    (up.regsUp = true ∧ (taken 2).gpxHas 7 2 = true ∧ (taken 3).gpxHas 7 3 = true ∧ (taken 4).gpxHas 7 4 = true ∧ up.gpxHas 7 2 = false ∧
      up.gpxHas 7 3 = false ∧ up.gpxHas 7 4 = false) ∧
    (bit ((taken 3).reg 0 0x1EC) 1 = false ∧ bit (((taken 3).setReg 0 0x1EC 2).reg 0 0x1EC) 1 = true) := by
  decide +kernel

/-! The fault manager. -/

/-- The thresholds of every kind ask for n further events. -/
def strict (n : Word) (s : State) : State :=
  [0, 1, 2, 3, 4, 5, 6, 7].foldl (fun s k => s.setReg pgFlm (0x200 + 8 * k) (n <<< 20)) s

theorem test_hyps_FaultManagerCountsAndActs :
    up.regsUp = true ∧
    (let s := strict 1 up
     s.flmResource 0 786431 = true ∧ (s.flmCount 0 786431).1 = false) ∧
    (let s := strict 0 up
     fld (s.reg pgFlm 0x238) 31 20 = 0 ∧ s.flmResource 7 2047 = true ∧ (s.flmCount 7 2047).1 = true ∧
       s.flmResource 2 135 = true ∧ (s.flmCount 2 135).1 = true ∧ s.flmResource 4 11 = true ∧ (s.flmCount 4 11).1 = true ∧
       ((s.flmCount 4 11).2.flmDeclare 4 11).schOn = false) ∧
    (let s := strict 0 (schUp up)
     (s.flmCount 4 11).1 = true ∧ ((s.flmCount 4 11).2.flmDeclare 4 11).schOn = true) ∧
    ((up.core (up.siteOf 127)).seq.st ≠ .running ∧ 135 / 68 = 127 / 64 ∧ 135 ∈ up.freeSites 1 ∧ up.siteOf 127 ∉ up.flm.toRetire ∧
      up.heldBySch (up.siteOf 127) = false ∧ up.siteSpoiled 127 = false) ∧
    (let s := up.onCore (up.siteOf 127) fun c => { c with seq := { c.seq with st := .running } }
     (s.core (s.siteOf 127)).seq.st = .running ∧ s.heldBySch (s.siteOf 127) = false ∧ 135 ∈ s.freeSites 1) ∧
    (let s := (schUp (ran up)).onCore (up.siteOf 127) fun c => { c with ctxValid := true, ctx := 0 }
     s.regsUp = true ∧ s.heldBySch (s.siteOf 127) = true ∧ s.atBoundary = false ∧ 135 ∈ s.freeSites 1 ∧
       (s.onSch fun c => { c with fresh := true }).atBoundary = true) ∧
    (let s : State := { strict 0 up with ctl := { up.ctl with released := true } }
     s.ctl.released = true ∧ 7 ∉ s.ctl.failed ∧ s.watchers 7 = [4, 5, 6] ∧ 7 ∉ (((strict 1 s).raise (pgCtl 4) 1).flmEvent 6 7).ctl.failed) ∧
    up.power.mod = 2 := by
  decide +kernel

/-- Where the threshold asks for no further event, core 7 is declared failed at once. -/
theorem test_hyps_FaultManagerCountsAndActs_takeover :
    let s : State := { strict 0 up with ctl := { up.ctl with released := true } }
    7 ∉ s.ctl.failed ∧ 7 ∈ ((s.raise (pgCtl 4) 1).flmEvent 6 7).ctl.failed := by
  intro s
  refine ⟨by decide +kernel, ?_⟩
  have h := State.flmEvent_core (s.raise (pgCtl 4) 1) 7 (by decide +kernel) (by decide +kernel)
  rw [h, State.takeOver_failed _ 7 4 [5, 6] (by decide +kernel) (by decide +kernel)]
  exact List.mem_append_right _ (List.mem_singleton.mpr rfl)

/-- Device 9 is lost, with a restart mode, for a run that holds the SCH and perhaps the HVUs. -/
def losing (w : Word) (hvu : Bool) : State :=
  { (up.setReg pgFlm 0x104 w).setReg pgFlm 0x118 0x80000009 with
    runs := Store.set none [] 0 (some { run0 fun c => { c with sch := true, hvu := hvu } with parts := [⟨9, 0, none⟩] }) }

/-- The same device where it is the spare of the run. -/
def sparing (w : Word) : State := { losing w true with
  runs := Store.set none [] 0 (some { run0 fun c => { c with cores := [] } with parts := [⟨9, 0, none⟩] }) }

theorem test_hyps_LostDevicesAreAnswered :
    (let s := (lapping fun c => { c with begun := true, slot := 1 }).setReg pgSch 0x13C 1
     s.schOn = true ∧ s.lapDone = true ∧ s.childrenDone = false ∧ 9 ∉ s.sch.children) ∧
    (up.regsUp = true ∧ fld (up.reg pgFlm 0x104) 31 30 = 0) ∧
    (let s := fun (w : Word) (b : Bool) => losing w b
     ([0x80000001, 0x40000001, 0x80000000].all fun w => fld ((s w true).reg pgFlm 0x104) 31 30 != 0) = true ∧
     (s 0x80000001 true).flm.restore = none ∧ ((s 0x80000001 true).lossRun.map fun x => (x.1, x.2.claims.hvu)) = some (0, true) ∧
       ((s 0x80000001 false).lossRun.map fun x => (x.1, x.2.claims.hvu)) = some (0, false) ∧ (s 0x80000001 true).dev.anchor = true ∧
       (s 0x80000001 true).isLost 9 = true ∧ 9 ≠ (s 0x80000001 true).ownId ∧ fld ((s 0x80000000 true).reg pgFlm 0x104) 5 0 = 0 ∧
       fld ((s 0x80000001 true).reg pgFlm 0x104) 5 0 ≠ 0 ∧ fld ((s 0x80000001 true).reg pgFlm 0x104) 31 30 = 2 ∧
       fld ((s 0x40000001 true).reg pgFlm 0x104) 31 30 ≠ 2 ∧ (s 0x40000001 true).hvu.job = none) ∧
    (let s := sparing 0x40000001
     s.regsUp = true ∧ fld (s.reg pgFlm 0x104) 31 30 ≠ 0 ∧ fld (s.reg pgFlm 0x104) 5 0 ≤ 1 ∧ s.flm.restore = none ∧
       (s.lossRun.map fun x => (x.1, x.2.spare)) = some (0, true) ∧ ((losing 0x40000001 true).lossRun.map (·.2.spare)) = some false ∧
       s.dev.anchor = true ∧ s.isLost 9 = true ∧ 9 ≠ s.ownId) ∧
    (let s : State := { losing 0x40000001 true with flm := { up.flm with restore := some ⟨9, 0, 0, none⟩ } }
     (s.flm.restore.map (·.device)) = some 9 ∧ s.regsUp = true) ∧
    (up.accepts (.ctl 0) pgFlm 0x10C = true ∧ up.flm.hold = false ∧ ({ up with flm := { up.flm with hold := true } } : State).flm.hold = true) := by
  decide +kernel

/-! Management. -/

/-- The MGC runs slot A on standby power. -/
def managed (f : Mgc → Mgc) : State :=
  let s := powerOf fun p => { p with standby := true }
  { s with mgc := f { s.mgc with running := some false } }

/-- Whether the repository holds a record (R505) is a free constant of the part, so no state shows either answer. -/
theorem test_hyps_MctpAndMonitoringAnswer :
    let s := managed id
    let t := s.awaken.countReg 9 0x108 1
    s.mgcUp = true ∧ t.inStandby = false ∧ bit ((t.setReg 7 0x6CC 0x80000000).reg 7 (0x400 + 4 * (0x1B3 - 0x100))) 31 = true ∧
      bit (t.reg 7 0x400) 31 = false := by
  decide +kernel

/-- Whether an image or a token is valid rests on free constants where its form is right (log 16); of the other form each is
refused. -/
theorem test_hyps_FirmwareUpdateSteps :
    (∀ n : Fin 6, (managed fun m => { m with update := n.val }).mgcUp = true ∧ (managed fun m => { m with update := n.val }).mgc.update = n.val) ∧
    (managed fun m => { m with listed := [3] }).mgc.listed.contains 3 = true ∧
    (managed fun m => { m with update := 2, size := 4, drawn := 4 }).mgc.size ≤ (managed fun m => { m with update := 2, size := 4, drawn := 4 }).mgc.drawn ∧
    (managed fun m => { m with update := 3, comp := 3, size := calSize + 1 }).awaken.stagedOk = false ∧
    (managed fun m => { m with update := 4, verified := true }).mgc.verified = true := by
  decide +kernel

theorem test_hyps_VendorMessagesAnswer :
    let s := managed id
    let t := s.awaken.countReg 9 0x108 1
    let low := inMod (fun p => { p with mod := 1 }) (managed id)
    s.mgcUp = true ∧ low.mgcUp = true ∧ (low.awaken.countReg 9 0x108 1).inStandby = true ∧ t.inStandby = false ∧
      t.tokenOk (List.replicate 256 0) = false ∧ (List.replicate 256 (0 : Byte)).length = 256 ∧
      pageAssigned 0 = true ∧ t.present 0 = true ∧ (regRow 0 0x100).map (·.acc) = some .ro ∧ (regRow 0 0xFFF0).isNone = true ∧
      (let u : State := { t with flm := { t.flm with telemetry := List.replicate 4096 0 } }
       u.flm.telemetry.isEmpty = false) ∧
      (t.flm.log.find? fun e => leNat ((e.drop 8).take 4) = 0 % 2 ^ 32) = none ∧
      ((t.flmLog 1 2 0 0).flm.log.find? fun e => leNat ((e.drop 8).take 4) = 0 % 2 ^ 32).isSome = true := by
  decide +kernel

theorem test_hyps_BoundaryScanIsAlwaysOffered :
    State.reset.trb.debug = false ∧ (powerOf fun p => { p with standby := true }).power.standby = true ∧
      ({ up with trb := { up.trb with debug := true } } : State).trb.debug = true := by
  decide +kernel
/-! Well-formedness: each check refuses an ill-formed term, and takes one at the edge. -/

theorem test_wf_accesses :
    (Instr.registerWrite .host 0 3 0).wf = false ∧ (Instr.registerWrite .host 0 8 0).wf = true ∧
    (Instr.readClear .host 0 0).wf = false ∧ (Instr.readClear .host 0 1).wf = true ∧
    (Instr.hostBar0Window 0 16 none).wf = false ∧ (Instr.hostBar0Window 0 2 none).wf = true ∧
    (Instr.hostBar2Read 0 0).wf = false ∧ (Instr.hostBar2Read 0 1).wf = true ∧
    (Instr.hostBar2Write 0 []).wf = false ∧ (Instr.hostBar2Write 0 [0]).wf = true := by decide

theorem test_wf_memory :
    (Instr.outerRead .read 0 0 SectorFault.none).wf = false ∧ (Instr.outerRead .read 0xFFFFFFFFFF 1 SectorFault.none).wf = true ∧
    (Instr.outerRead .read 0xFFFFFFFFFF 2 SectorFault.none).wf = false ∧ (Instr.outerWrite .write 0 [] SectorFault.none).wf = false ∧
    (Instr.outerWrite .write 0xFFFFFFFFFF [1, 2] SectorFault.none).wf = false ∧ (Instr.outerWrite .write 0xFFFFFFFFFF [1] SectorFault.none).wf = true ∧
    (Instr.nearScrub 805306368 0).wf = false ∧ (Instr.nearScrub 805306367 0).wf = true ∧
    (Instr.repairBlockArrive 0 0 (some [1]) false false).wf = false ∧ (Instr.repairBlockArrive 0 0 none false false).wf = true ∧
    (Instr.hostWindowAccess 0 0 none none).wf = false ∧ (Instr.hostWindowAccess 0x1FFFFFFFFF 2 none none).wf = false ∧
    (Instr.hostWindowAccess 0 1 (some []) none).wf = false ∧ (Instr.hostWindowAccess 0x1FFFFFFFFF 1 (some [7]) none).wf = true := by
  decide

theorem test_wf_batons :
    (Instr.verdict (baton 8 0 0 0)).wf = false ∧ (Instr.verdict (baton 9 0 0 0)).wf = true ∧
    (Instr.digest (baton 9 0 0 0)).wf = false ∧ (Instr.user (baton 2 0 0 0)).wf = false ∧ (Instr.loss (baton 1 0 0 0)).wf = false ∧
    (Instr.hurdleArrive (baton 4 0 0 0)).wf = false ∧ (Instr.hurdleRelease (baton 3 0 0 0)).wf = false ∧
    (Instr.bktPart (baton 6 0 0 0)).wf = false ∧ (Instr.bktAck (baton 5 0 0 0)).wf = false ∧ (Instr.bktClosed (baton 8 0 0 0)).wf = false ∧
    (Instr.bktGather (baton 7 0 0 0)).wf = false ∧ (Instr.withdraw (baton 12 0 0 0)).wf = false ∧ (Instr.lapDone (baton 12 0 0 0)).wf = false ∧
    (Instr.lapGo (baton 11 0 0 0)).wf = false ∧ (Instr.batonInvalid (baton 13 0 0 0)).wf = false ∧
    (Instr.batonInvalid (baton 0 0 0 0)).wf = true ∧ (Instr.batonInvalid (baton 14 0 0 0)).wf = true := by decide

theorem test_wf_packets :
    (Instr.credit 0 (packet 2 0 0 [])).wf = false ∧ (Instr.rdReq 0 (packet 3 0 0 [])).wf = false ∧
    (Instr.rdData 0 (packet 3 2 1 [])).wf = false ∧ (Instr.rdData 0 (packet 3 2 6 (List.replicate 385 0))).wf = false ∧
    (Instr.rdData 0 (packet 3 2 6 (List.replicate 384 0))).wf = true ∧ (Instr.crdData 0 (packet 3 2 1 [1])).wf = false ∧
    (Instr.wrData 0 (packet 6 2 1 [1])).wf = false ∧ (Instr.wrLast 0 (packet 5 2 1 [1])).wf = false ∧
    (Instr.cwrData 0 (packet 8 2 1 [1])).wf = false ∧ (Instr.cwrLast 0 (packet 7 2 1 [1])).wf = false ∧
    (Instr.wrAck 0 (packet 10 1 0 [])).wf = false ∧ (Instr.rdErr 0 (packet 9 1 0 [])).wf = false ∧ (Instr.regRd 0 (packet 12 0 1 [])).wf = false ∧
    (Instr.regWr 0 (packet 11 0 1 [])).wf = false ∧ (Instr.regData 0 (packet 12 1 1 [])).wf = false ∧
    (Instr.frameReceive 0 ⟨0, .idle, 0, 0, 0, false, [], 0, []⟩).wf = false := by decide +kernel

theorem test_wf_module :
    (Instr.evhTmrCtrlWrite .host 0 10 0).wf = false ∧ (Instr.evhTmrCtrlWrite .host 0 9 0).wf = true ∧
    (Instr.v72Rise 58000).wf = false ∧ (Instr.v72Rise 58001).wf = true ∧ (Instr.undervoltageLockout 56000).wf = false ∧
    (Instr.overvoltageShutdown 83999).wf = false ∧ (Instr.overvoltageShutdown 84000).wf = true ∧ (Instr.phaseShed 0 6).wf = false ∧
    (Instr.phaseShed 3 12).wf = false ∧ (Instr.phaseShed 4 0).wf = false ∧ (Instr.phaseShed 1 15).wf = true ∧ (Instr.droop 1024).wf = false ∧
    (Instr.regulatorRetrim 1024).wf = false ∧ (Instr.ageingMeasure 1024 0).wf = false ∧ (Instr.sensorRead []).wf = false ∧
    (Instr.thermalTrip 180).wf = false ∧ (Instr.thermalTrip 179).wf = true ∧
    (Instr.groupDiscovery (List.replicate 2049 ⟨0, false, false⟩)).wf = false ∧
    (Instr.hbrLinkStateChange true 4 1 false).wf = false ∧ (Instr.hbrLinkStateChange true 16 0 false).wf = false ∧
    (Instr.hbrLinkStateChange true 16 3 false).wf = true := by decide +kernel

theorem test_wf_management :
    (Instr.pldmInvalidType 2).wf = false ∧ (Instr.pldmInvalidType 5).wf = false ∧ (Instr.pldmInvalidType 3).wf = true ∧
    (Instr.passComponentTable 0).wf = false ∧ (Instr.updateComponent 1 0).wf = false ∧ (Instr.requestFirmwareData 0 []).wf = false ∧
    (Instr.certs (2 ^ 32)).wf = false ∧ (Instr.debugUnlock []).wf = false ∧ (Instr.telemetry (2 ^ 16) 0).wf = false ∧
    (Instr.telemetry 0 (2 ^ 16)).wf = false ∧ (Instr.faultLog (2 ^ 32)).wf = false ∧ (Instr.calRead (2 ^ 32)).wf = false ∧
    (Instr.calRead (2 ^ 32 - 1)).wf = true := by decide

/-! The tables of worked examples in 02_number_formats.md (R41-R43). -/

theorem test_ties :
    (convert .fp32 .bf16 0 0 0 0x3F818000).code = 0x3F82 ∧ (convert .fp32 .bf16 1 0 0 0x3F818000).code = 0x3F81 ∧
    (convert .fp32 .bf16 2 0 0x7FF 0x3F818000).code = 0x3F81 ∧ (convert .fp32 .bf16 2 0 0x800 0x3F818000).code = 0x3F82 ∧
    (convert .fp32 .bf16 0 0 0 0x3F808000).code = 0x3F80 ∧ (convert .fp32 .e2m1 0 0 0 0x40A00000).code = 0x6 ∧
    (convert .fp32 .int8 0 0 0 0x42FD0000).code = 0x7E := by decide +kernel

theorem test_overflow :
    (∀ o : Fin 3, (convert .fp32 .e4m3 0 o.val 0 0x43E60000).code = 0x7E ∧ (convert .fp16 .e5m2 0 o.val 0 0x7B7F).code = 0x7B) ∧
    (convert .fp32 .e4m3 0 0 0 0x43E80000).code = 0x7E ∧ (convert .fp32 .e4m3 0 1 0 0x43E80000).code = 0x7F ∧
    (convert .fp16 .e5m2 0 0 0 0x7B80).code = 0x7B ∧ (convert .fp16 .e5m2 0 1 0 0x7B80).code = 0x7C ∧
    (convert .fp32 .int8 0 1 0 0xC3008000).code = 0x80 := by decide +kernel

end Sys2Proof.Tests
end

/-!
PROOFS. The list state of a core: its end at HALT (R134) and its beginning at START (R149).
-/
namespace Sys2Proof.Machine

/-! When a descriptor may issue (R122). -/

theorem State.mayIssue_eq_false {s : State} {n : Nat} (h : (s.core n).seq.st ≠ .running) : s.mayIssue n = false := by
  simp [State.mayIssue, h]

theorem State.issuable_eq_none {s : State} {n : Nat} (k : Kind) (h : s.mayIssue n = false) : s.issuable n k = none := by
  simp [State.issuable, h]

/-- A descriptor that may issue has all that its kind waits for. -/
theorem State.ready_of_issuable {s : State} {n : Nat} {k : Kind} {d : Desc} (h : s.issuable n k = some d) :
    k.ready s n d = true := by
  simp only [State.issuable] at h
  split at h
  · contradiction
  · split at h
    · contradiction
    · split at h
      next hc =>
        cases h
        exact (Bool.and_eq_true_iff.mp hc).2
      next => contradiction

theorem Core.inflight_eq_zero {c : Core} (h : c.allEnded = true) : c.seq.inflight = 0 := by
  simpa [Core.allEnded, Sequencer.inflight] using h

/-! HALT (R134). -/

/-- A core on which HALT has issued: `SEN` counts, the code is copied, and the list is over. -/
def Core.haltBy (c : Core) (d : Desc) : Core :=
  { (if Dsc.sen d then c.addDep (Dsc.sctr d) 1 else c) with
    seq := { c.seq with haltCode := dfld d 8 15 0, st := .halted, window := [], walk := [], serial := c.seq.serial + 1 } }

/-- The state in which HALT has issued at core n: list-done is raised. -/
def State.haltBy (s : State) (n : Nat) (d : Desc) : State := (s.setCore n ((s.core n).haltBy d)).raise (pgCore n) 0

/-- A HALT that may issue and shows no fault ends the list; that `SEN` counts touches no field of the sequencer. -/
theorem State.issueHalt_eq_haltBy {s : State} {n : Nat} {d : Desc} (h : s.issuable n haltKind = some d)
    (hf : haltKind.faults s n d = []) : s.issueHalt n = s.haltBy n d := by
  unfold State.issueHalt
  rw [h]
  dsimp only
  rw [if_neg (by simp [hf])]
  unfold State.haltBy Core.haltBy State.onCore
  cases Dsc.sen d <;> rfl

@[simp] theorem State.core_raise (s : State) (p i n : Nat) : (s.raise p i).core n = s.core n := by
  simp [State.core]

theorem State.haltBy_st (s : State) (n : Nat) (d : Desc) : ((s.haltBy n d).core n).seq.st = .halted := by
  simp [State.haltBy, Core.haltBy]

theorem State.issuable_haltBy (s : State) (n : Nat) (d : Desc) (k : Kind) : (s.haltBy n d).issuable n k = none :=
  State.issuable_eq_none k (State.mayIssue_eq_false (by simp [State.haltBy_st]))

/-- Settles O16: HALT waits until every entry of the window has ended, and a list that is HALTED issues nothing. -/
theorem haltEndsList : Obligations.HaltEndsList := by
  intro x d s n c t hd
  refine ⟨Core.inflight_eq_zero (State.ready_of_issuable hd), fun hf => ⟨?_, State.issuable_haltBy s n d⟩⟩
  exact congrArg Host.Outcome.next (State.issueHalt_eq_haltBy hd hf)

/-! START (R149). -/

@[simp] theorem State.core_forgetLate (s : State) (n m : Nat) : (s.forgetLate n).core m = s.core m := by
  unfold State.forgetLate
  split <;> rfl

/-- The core of a list that is started: only its sequencer is set anew. -/
theorem State.core_startList (s : State) (n : Nat) : (s.startList n).core n = { s.core n with seq := { (s.core n).seq with
    st := .running, cursor := 0, faultStop := false, reqStop := false, abandoning := false, window := [], walk := [],
    loops := [], spare := [], frec := FaultRec.clear } } := by
  simp [State.startList]

/-- A list command in which `START` alone is set starts a list that is IDLE or HALTED (R148). -/
theorem State.listCtrl_start {s : State} {n : Nat} {v : Word} (hv : fld v 4 0 ≠ 0)
    (hb : bit v 4 = false ∧ bit v 1 = false ∧ bit v 3 = false ∧ bit v 2 = false)
    (hst : (s.core n).seq.st = .idle ∨ (s.core n).seq.st = .halted) (ha : (s.core n).seq.abandoning = false) :
    s.listCtrl n v = s.startList n := by
  obtain ⟨habandon, hstop, hskip, hresume⟩ := hb
  simp [State.listCtrl, hv, habandon, hstop, hskip, hresume, ha, hst]

theorem exec_start {r : Requester} {x : Fin 136} {s : State} (v : Word) (h : s.accepts r (pgCore x.val) 0x110 = true) :
    exec (.start r x v) s = .next (s.listCtrl x.val v) :=
  congrArg Host.Outcome.next (State.onWrite_accepts _ h)

/-- Settles O30: the write is accepted and the list is not running, so its sequencer, and nothing else of the core, is set
anew. -/
theorem startBeginsAtDescriptorZero : Obligations.StartBeginsAtDescriptorZero := by
  intro r x s hacc c hst ha
  refine ⟨s.startList x.val, ?_, ?_⟩
  · rw [exec_start 1 hacc, State.listCtrl_start (by decide) (by decide) hst ha]
  · rw [State.core_startList]
    exact ⟨rfl, rfl, rfl, rfl, rfl, rfl, rfl, rfl, rfl⟩

end Sys2Proof.Machine

/-!
PROOFS. The anti-rollback fuses over every step, and what a commit does to them (R498).
-/
namespace Sys2Proof.Machine

/-! The commit. -/

/-- The key slots whose revocation fuse a commit blows: those that the running image's `REVOKE` names, its own `KSLOT` apart. -/
def State.toRevoke (s : State) : List Nat := (List.range 4).filter fun k => s.trb.revoke.testBit k && k != s.trb.kslot

theorem State.mem_toRevoke {s : State} {k : Nat} :
    k ∈ s.toRevoke ↔ k < 4 ∧ s.trb.revoke.testBit k = true ∧ k ≠ s.trb.kslot := by
  simp [State.toRevoke]

/-- A commit that is taken changes of the trust block F and the revoked slots alone. -/
theorem State.svnCommit_trb {s : State} (hf : s.trb.fallback = false) (hlt : s.trb.fuseF < s.trb.svn) :
    s.svnCommit.trb = { s.trb with fuseF := s.trb.svn, revoked := (s.trb.revoked ++ s.toRevoke).eraseDups } := by
  unfold State.svnCommit
  dsimp only
  rw [if_neg (by simp [hf, hlt]), State.raise_trb]
  rfl

theorem State.mem_revoked_svnCommit {s : State} (hf : s.trb.fallback = false) (hlt : s.trb.fuseF < s.trb.svn) {k : Nat} :
    k ∈ s.svnCommit.trb.revoked ↔ k ∈ s.trb.revoked ∨ (k < 4 ∧ s.trb.revoke.testBit k = true ∧ k ≠ s.trb.kslot) := by
  rw [State.svnCommit_trb hf hlt, List.mem_eraseDups, List.mem_append, State.mem_toRevoke]

/-- A commit is refused after a fallback, and where the image's `SVN` does not exceed F. -/
theorem State.svnCommit_refused {s : State} (h : s.trb.fallback = true ∨ s.trb.svn ≤ s.trb.fuseF) :
    s.svnCommit = s.errSet pgTrb 3 := by
  unfold State.svnCommit
  exact if_pos (by simpa using h)

/-- An accepted write of `COMMIT` is the commit. -/
theorem exec_trbSvnCommit {r : Requester} {v : Word} {s : State} (ha : s.accepts r pgTrb 0x108 = true) (hv : bit v 0 = true) :
    exec (.trbSvnCommit r v) s = .next s.svnCommit :=
  congrArg Host.Outcome.next ((State.onWrite_accepts _ ha).trans (if_pos hv))

/-! The commit of an `ActivateFirmware` (R506). -/

@[simp] theorem State.awaken_booted (s : State) : s.awaken.trb.booted = s.trb.booted := by
  unfold State.awaken
  split
  · exact (congrArg Trb.booted (State.raise_trb ..)).trans (by unfold State.platformEvent; split <;> rfl)
  · rfl

@[simp] theorem State.awaken_update (s : State) : s.awaken.mgc.update = s.mgc.update := by
  unfold State.awaken
  split
  · exact (congrArg Mgc.update (State.raise_mgc ..)).trans (by unfold State.platformEvent; split <;> rfl)
  · rfl

@[simp] theorem State.pickApplied_booted (s : State) (c : Nat) : (s.pickApplied c).trb.booted = s.trb.booted := by
  unfold State.pickApplied
  split <;> rfl

/-- The state in which an `ActivateFirmware` comes to its commit: the request is counted and the applied slots are selected. -/
def State.activating (s : State) : State := ((s.awaken.countReg 9 0x108 1).pickApplied 1).pickApplied 2

@[simp] theorem State.activating_vault (s : State) : s.activating.vault = s.vault := by simp [State.activating]

/-- An activation that asks for the commit, of a device that has booted: the commit, and the end of the update. -/
theorem exec_activateFirmware_true {s : State} (hup : s.mgcUp = true) (hu : s.mgc.update = 5) (hb : s.trb.booted = true) :
    exec (.activateFirmware true) s = .next ((s.activating.svnCommit.setUpdate 0).mgmtOk [0, 0]) := by
  refine congrArg Host.Outcome.next ((if_pos hup).trans ?_)
  refine (if_neg (by simp [hu])).trans ((if_neg (by simp [hu])).trans ?_)
  exact congrArg (fun t : State => (t.setUpdate 0).mgmtOk [0, 0]) (if_pos (by simp [hb]))

/-! What a command may do to the fuses. -/

/-- Whatever state a command is answered with, it keeps what `Kept` says. -/
def Keeps (s : State) (o : Host.Outcome State Fault Refusal) : Prop := ∀ t, o = .next t → Kept s t

theorem Keeps.next {s u : State} (h : Kept s u) : Keeps s (.next u) := by
  rintro t ⟨⟩
  exact h

/-- An operation that leaves the vault as it was. -/
theorem Keeps.vault {s u : State} (h : u.vault = s.vault) : Keeps s (.next u) := .next (.of_vault h)

/-- An operation under which the running image stays. -/
theorem Keeps.steady {s u : State} (h : Steady s u) : Keeps s (.next u) := .next h.kept

/-! Commands that may commit: those that write a register, and the activation. -/

theorem execRegisterWrite_keeps (r : Requester) (a : BitVec 26) (width : Nat) (v : Quad) (s : State) :
    Keeps s (execRegisterWrite r a width v s) := by
  refine .steady (.ite (.refl s) (.ite (.of_vault (by simp)) (.ite ?_ (State.writeReg_steady ..))))
  exact (State.writeReg_steady ..).trans (State.writeReg_steady ..)

theorem execTrbSvnCommit_keeps (r : Requester) (v : Word) (s : State) : Keeps s (execTrbSvnCommit r v s) :=
  .steady (State.onWrite_steady _ _ _ _ _ fun u => .ite (State.svnCommit_steady u) (.refl u))

theorem execFrameReceive_keeps (p : Fin 16) (f : Frame) (s : State) : Keeps s (execFrameReceive p f s) := by
  refine .steady (.ite (Steady.trans ?_ (.of_vault (State.admitWaiting_vault ..))) (.refl s))
  exact (State.takeFrame_steady ..).trans (State.serveReady_steady _)

theorem execHostBar0Window_keeps (off : BitVec 26) (width : Nat) (data : Option Word) (s : State) :
    Keeps s (execHostBar0Window off width data s) := by
  refine .steady (.ite (.refl s) (.ite (.of_vault (by simp)) (.ite (.of_vault (by simp)) (.ite ?_
    (.ite (.of_vault (by simp)) (.of_vault (by simp)))))))
  cases data with
  | some v => exact State.writeReg_steady ..
  | none => exact .of_vault (by simp)

theorem State.mgcServe_steady (s : State) (f : State → State) (h : ∀ u, Steady u (f u)) : Steady s (s.mgcServe f) :=
  .ite ((Steady.of_vault (by simp)).trans (h _)) (.refl s)

theorem execActivateFirmware_keeps (commit : Bool) (s : State) : Keeps s (execActivateFirmware commit s) := by
  refine .steady (State.mgcServe_steady _ _ fun u => .ite (.of_vault (by simp)) (.ite (.of_vault (by simp)) ?_))
  have hpick : Steady u ((u.pickApplied 1).pickApplied 2) := .of_vault (by simp)
  refine Steady.trans ?_ (.of_vault ((State.mgmtOk_vault ..).trans (State.setUpdate_vault ..)))
  exact hpick.trans (.ite (State.svnCommit_steady _) (.refl _))

/-! Commands that lose or load the running image: power, reset and boot. The fuses stay. -/

theorem execModPwrEnFall_keeps (s : State) : Keeps s (execModPwrEnFall s) :=
  .next (.ite (.of_vault rfl) (.ite ((State.dropRails_kept s 1).then_vault rfl) (.of_vault rfl)))

theorem execShutdownDone_keeps (s : State) : Keeps s (execShutdownDone s) :=
  .next (.ite ((State.dropRails_kept s 1).then_vault (State.moduleEvent_vault _)) (.refl s))

theorem execThermalTrip_keeps (sensor : Nat) (s : State) : Keeps s (execThermalTrip sensor s) := by
  refine .next (.ite (Kept.after_vault (t := s.flmLog 0x16 3 sensor 0) (by simp) ?_) (.refl s))
  exact (State.dropRails_kept _ 1).then_vault (State.moduleEvent_vault _)

theorem State.riseActive_kept (s : State) (failed : List (Fin 4 × Fin 9)) : Kept s (s.riseActive failed) :=
  (State.romBoot_kept s).then_vault (by simp [State.riseActive, vault_fold])

theorem execTrbBoot_keeps (failed : List (Fin 4 × Fin 9)) (s : State) : Keeps s (execTrbBoot failed s) :=
  .next (.ite (.refl s) ((State.riseActive_kept s failed).then_vault (by simp)))

/-! A read of the fault log, and a boundary scan where it is not refused, leave the vault as it was. -/

theorem execFaultLog_keeps (n : Nat) (s : State) : Keeps s (execFaultLog n s) :=
  .vault (State.mgcServe_vault _ _ fun u => by split <;> simp)

theorem execBoundaryScan_keeps (ir dr : Nat) (s : State) : Keeps s (execBoundaryScan ir dr s) := by
  unfold execBoundaryScan
  dsimp only
  split
  · exact .vault rfl
  · split
    · rintro t ⟨⟩
    · exact .vault (by simp)

/-! Every command, and every step. -/

/-- What may happen to the vault, command by command: first the commands that may commit, then those that lose or load the running
image. Every command of the last two alternatives is made of operations that leave the vault alone, each by its own lemma. -/
theorem exec_keeps (c : Instr) (s : State) : Keeps s (exec c s) := by
  cases c with
  | registerWrite r a width v => exact execRegisterWrite_keeps r a width v s
  | trbSvnCommit r v => exact execTrbSvnCommit_keeps r v s
  | frameReceive p f => exact execFrameReceive_keeps p f s
  | credit p k | rdReq p k | rdData p k | crdData p k | wrData p k | wrLast p k | cwrData p k | cwrLast p k | wrAck p k | rdErr p k
  | regRd p k | regWr p k | regData p k => exact .steady (State.packetRow_steady ..)
  | hostBar0Window off width data => exact execHostBar0Window_keeps off width data s
  | activateFirmware commit => exact execActivateFirmware_keeps commit s
  | undervoltageLockout mv | overvoltageShutdown mv => exact .next (.ite (State.cutPower_kept ..) (.refl s))
  | modResetAssert => exact .next (State.holdReset_kept s)
  | modPwrEnFall => exact execModPwrEnFall_keeps s
  | shutdownDone => exact execShutdownDone_keeps s
  | thermalTrip sensor => exact execThermalTrip_keeps sensor s
  | trbBoot failed => exact execTrbBoot_keeps failed s
  | faultLog n => exact execFaultLog_keeps n s
  | boundaryScan ir dr => exact execBoundaryScan_keeps ir dr s
  | signalDelivery | hurdleTimeout | descriptorComplete | descriptorFault | coreLaunch
  | sArmFetchDone | releaseEffect | disarmDone | tileComplete | tileFault | chainFetchDone | passComplete
  | repairBlockArrive | promotionComplete | pacerDemote | pacerStall | hostWindowAccess | hostReadCompletion | linkReqTimeout
  | hvuVerdictStart | hvuPasses | hvuCommit | hvuDone | reduceDeadline | reducePassDone | kvdMoveDone
  | mdeDecodeStart | mdeDecodeDone | mdeDecodeTimeout | mdeCommit | sauAlign | linkctl
  | run | groupPartTimeout | step | endRun | abort | runEnd | siblingWatchdog | deviceLoss =>
    refine .vault ?_
    repeat' split
    all_goals simp [vault_fold]
  | _ => exact .vault (by simp [vault_fold])

/-- Over a step the fuses stay or take a commit, whether a command is served or 1 ns passes. -/
theorem step_fusesTo {s t : State} (h : step s = .next t) : s.fusesTo t := by
  unfold step at h
  split at h
  · cases h
    exact (Kept.of_vault s.tick_vault).fuses
  · exact (exec_keeps _ _ t h).fuses

/-- Settles O5: every command keeps the fuses or lets them take a commit, a taken commit blows what R498 names, and a write of
`COMMIT` (log 37) and an activation that asks for it by its self-contained flag (log 38) are commits. -/
theorem fusesOnlyTakeCommits : Obligations.FusesOnlyTakeCommits := by
  refine ⟨fun s t => step_fusesTo, fun s hf hlt => ?_, fun s => State.svnCommit_refused, fun v s => exec_trbSvnCommit,
    fun s hup hu hb => ⟨s.activating, ?_, exec_activateFirmware_true hup hu hb⟩⟩
  · exact ⟨congrArg Trb.fuseF (State.svnCommit_trb hf hlt), fun k => State.mem_revoked_svnCommit hf hlt⟩
  · have h := s.activating_vault
    simp only [State.vault, Prod.mk.injEq] at h
    obtain ⟨-, -, hfuse, hrevoked, hsvn, hfallback, hkslot, hrevoke⟩ := h
    exact ⟨hfuse, hsvn, hrevoked, hfallback, hrevoke, hkslot⟩

end Sys2Proof.Machine

/-!
PROOFS. What every command keeps: the bound on `F` and `SVN` (R496), the queue's rest and the order number; and that every
command but a boundary scan of a debug path completes.
-/
namespace Sys2Proof.Machine

/-- Over a step the bound of R496 stays, whether a command is served or 1 ns passes. -/
theorem step_svnFits {s t : State} (hs : s.svnFits) (h : step s = .next t) : t.svnFits := by
  unfold step at h
  split at h
  · cases h
    exact (Kept.of_vault s.tick_vault).fits hs
  · exact (exec_keeps _ _ t h).fits hs

/-- Settles O6: the fuses only take the `SVN` that runs, and an image boots only where its `SVN` is at most 64. -/
theorem securityVersionBounded : Obligations.SecurityVersionBounded := fun _ _ => step_svnFits

/-- Settles O7: both are 0 after reset. -/
theorem securityVersionBoundedAtReset : Obligations.SecurityVersionBoundedAtReset := by
  unfold Obligations.SecurityVersionBoundedAtReset
  decide

/-- Settles O3: the queue and the variant are parts of the vault, which no command changes in them. -/
theorem commandLeavesQueueRestAndVariant : Obligations.CommandLeavesQueueRestAndVariant := fun c s t h =>
  ⟨(exec_keeps c s t h).pending, (exec_keeps c s t h).variant⟩

/-- A command that is no boundary scan is answered with a next state. -/
theorem exec_next (c : Instr) (s : State) (h : ∀ ir dr, c ≠ .boundaryScan ir dr) : ∃ t, exec c s = .next t := by
  cases c with
  | boundaryScan ir dr => exact absurd rfl (h ir dr)
  | _ => exact ⟨_, rfl⟩

/-- Settles O4: the answer of each command is a next state, which keeps the queue and the variant. -/
theorem everyCommandCompletes : Obligations.EveryCommandCompletes := by
  intro c s h
  obtain ⟨t, ht⟩ := exec_next c s h
  exact ⟨t, ht, commandLeavesQueueRestAndVariant c s t ht⟩

/-- Settles O1: a step with a command waiting is that command on the queue's rest. -/
theorem stepTakesFrontCommand : Obligations.StepTakesFrontCommand := by
  intro c rest s h
  unfold step
  rw [h]

/-! BOUNDARY_SCAN (R502). -/

/-- A scan with standby power: it is refused where debug is unlocked and the free bit says a debug path, and else shifts out
free bits. -/
theorem exec_boundaryScan (ir dr : Nat) {s : State} (h : s.power.standby = true) :
    exec (.boundaryScan ir dr) s =
      if s.trb.debug && bit (s.draw.1.truncate 32) 31 then .refused .debugPathUnspecified
      else .next (s.draw.2.emit (.tdo (s.draw.1.toNat % 2 ^ 31))) := by
  show execBoundaryScan ir dr s = _
  unfold execBoundaryScan
  rw [h]
  rfl

/-- Settles O60: the scan ends in one of the two ways, and the refusal needs debug unlocked. -/
theorem boundaryScanIsAlwaysOffered : Obligations.BoundaryScanIsAlwaysOffered := by
  intro ir dr s h
  rw [exec_boundaryScan ir dr h]
  refine ⟨fun hd => ⟨_, by rw [hd]; rfl⟩, fun f => ?_, fun f => ?_⟩
  · split <;> exact nofun
  · split
    next hc =>
      rintro ⟨⟩
      exact ⟨rfl, (Bool.and_eq_true_iff.mp hc).1⟩
    next => exact nofun

end Sys2Proof.Machine

/-!
PROOFS. Writes and reads of the outer tier (R254-R258): a write is a fold over the blocks of its span, block by block.
-/
namespace Sys2Proof.Machine

/-! Blocks of a span. -/

theorem mem_blocksOf {a n b : Nat} (hn : 0 < n) : b ∈ blocksOf a n ↔ a / 4096 ≤ b ∧ b ≤ (a + n - 1) / 4096 := by
  unfold blocksOf
  rw [if_neg (by omega)]
  simp only [List.mem_map, List.mem_range]
  constructor
  · rintro ⟨i, hi, rfl⟩
    omega
  · intro h
    exact ⟨b - a / 4096, by omega, by omega⟩

theorem nodup_blocksOf (a n : Nat) : (blocksOf a n).Nodup := by
  unfold blocksOf
  split
  · exact List.nodup_nil
  · exact List.nodup_range.map fun _ _ h => Nat.add_left_cancel h

/-- The piece of a span of bytes at `a` that lies in block b: its address and its bytes. -/
def pieceOf (a : Nat) (bs : List Byte) (b : Nat) : Nat × List Byte :=
  let lo := max a (4096 * b)
  (lo, (bs.drop (lo - a)).take (min (a + bs.length) (4096 * b + 4096) - lo))

theorem splitBlocks_eq (a : Nat) (bs : List Byte) :
    splitBlocks a bs = (blocksOf a bs.length).map fun b => (b, pieceOf a bs b) := rfl

theorem length_pieceOf (a : Nat) (bs : List Byte) (b : Nat) :
    (pieceOf a bs b).2.length = min (a + bs.length) (4096 * b + 4096) - max a (4096 * b) := by
  simp only [pieceOf, List.length_take, List.length_drop]
  omega

/-- An address lies in the piece of block b where it lies in the span and in the block. -/
theorem mem_pieceOf {a b k : Nat} {bs : List Byte} :
    ((pieceOf a bs b).1 ≤ k ∧ k < (pieceOf a bs b).1 + (pieceOf a bs b).2.length) ↔
      a ≤ k ∧ k < a + bs.length ∧ k / 4096 = b := by
  rw [length_pieceOf]
  simp only [pieceOf]
  omega

theorem getD_pieceOf {a b k : Nat} {bs : List Byte} (h : a ≤ k ∧ k < a + bs.length ∧ k / 4096 = b) :
    (pieceOf a bs b).2.getD (k - (pieceOf a bs b).1) 0 = bs.getD (k - a) 0 := by
  simp only [pieceOf, List.getD_eq_getElem?_getD]
  rw [List.getElem?_take_of_lt (by omega), List.getElem?_drop]
  congr 2
  omega

/-! One block (R258). -/

/-- What a write of the outer tier leaves as it was: the cores, what was sent, the device, and the near tier. -/
def State.besideOuter (s : State) : Store Core × List Sent × Dev × Store Byte × Store Bool :=
  (s.cores, s.sent, s.dev, s.tiers.near, s.tiers.nearPoison)

@[simp] theorem State.charge_besideOuter (s : State) (c : TierClass) (b n : Nat) :
    (s.charge c b n).besideOuter = s.besideOuter := by
  unfold State.charge
  split <;> rfl

@[simp] theorem State.watchWrite_besideOuter (s : State) (a n : Nat) : (s.watchWrite a n).besideOuter = s.besideOuter := by
  unfold State.watchWrite
  dsimp only
  split
  · rfl
  · split <;> rfl

theorem State.writeBlock_besideOuter (s : State) (c : TierClass) (b a : Nat) (bs : List Byte) :
    (s.writeBlock c b a bs).1.besideOuter = s.besideOuter := by
  unfold State.writeBlock
  dsimp only
  split
  · rfl
  · refine (State.watchWrite_besideOuter ..).trans ((State.charge_besideOuter ..).trans ?_)
    split
    · exact State.charge_besideOuter ..
    · rfl

/-- A write that is not a partial one of a poisoned block stores its bytes, and the block is then written, not under repair and
not poisoned. -/
theorem State.writeBlock_clean {s : State} (c : TierClass) {b a : Nat} {bs : List Byte}
    (h : mapPoison (s.tiers.mapOf b) = true → bs.length = 4096) : (s.writeBlock c b a bs).2 = false ∧
      ∃ n, (s.writeBlock c b a bs).1.tiers = (s.tiers.putOuter a bs).setMap b (mapByte false false true n) := by
  unfold State.writeBlock
  rw [if_neg (by simpa using h)]
  refine ⟨rfl, ?_⟩
  rw [State.watchWrite_tiers, State.charge_tiers]
  split
  · exact ⟨_, by rw [State.charge_tiers]⟩
  · exact ⟨_, rfl⟩

theorem mapByte_clean (n : Nat) : mapPoison (mapByte false false true n) = false ∧ mapRepair (mapByte false false true n) = false := by
  have h : (n - 1) % 16 < 16 := by omega
  simp only [mapPoison, mapRepair, mapByte]
  generalize (n - 1) % 16 = m at h
  revert m
  decide

theorem Tiers.mapOf_setMap (t : Tiers) (b k : Nat) (m : Byte) : (t.setMap b m).mapOf k = if k = b then m else t.mapOf k :=
  Store.get_set ..

/-! A span: the fold over its blocks. -/

/-- The write of the pieces of some blocks, one after another. -/
def State.writePieces (c : TierClass) (a : Nat) (bs : List Byte) (l : List Nat) (x : State × Bool) : State × Bool :=
  l.foldl (fun x b => ((x.1.writeBlock c b (pieceOf a bs b).1 (pieceOf a bs b).2).1,
    x.2 || (x.1.writeBlock c b (pieceOf a bs b).1 (pieceOf a bs b).2).2)) x

theorem State.writeOuter_eq (s : State) (c : TierClass) (a : Nat) (bs : List Byte) :
    s.writeOuter c a bs = State.writePieces c a bs (blocksOf a bs.length) (s, false) := by
  unfold State.writeOuter State.writePieces
  rw [splitBlocks_eq, List.foldl_map]

theorem State.writePieces_besideOuter (c : TierClass) (a : Nat) (bs : List Byte) (l : List Nat) (x : State × Bool) :
    (State.writePieces c a bs l x).1.besideOuter = x.1.besideOuter := by
  induction l generalizing x with
  | nil => rfl
  | cons b l ih => exact (ih _).trans (State.writeBlock_besideOuter ..)

/-- What a clean write of the pieces of some blocks of a span does: no block refuses it, the bytes of the span in those blocks are
stored, those blocks are neither poisoned nor under repair, and the map of the others stays. -/
theorem State.writePieces_clean (c : TierClass) (a : Nat) (bs : List Byte) (l : List Nat) (s : State) (hl : l.Nodup)
    (h : ∀ b ∈ l, mapPoison (s.tiers.mapOf b) = true → (pieceOf a bs b).2.length = 4096) :
    let x := State.writePieces c a bs l (s, false)
    x.2 = false ∧
      (∀ k, Store.get 0 x.1.tiers.outer k =
        if a ≤ k ∧ k < a + bs.length ∧ k / 4096 ∈ l then bs.getD (k - a) 0 else Store.get 0 s.tiers.outer k) ∧
      (∀ b, b ∉ l → x.1.tiers.mapOf b = s.tiers.mapOf b) ∧
      ∀ b ∈ l, mapPoison (x.1.tiers.mapOf b) = false ∧ mapRepair (x.1.tiers.mapOf b) = false := by
  induction l generalizing s with
  | nil => simp [State.writePieces]
  | cons b l ih =>
    obtain ⟨hb, hl⟩ := List.nodup_cons.mp hl
    obtain ⟨hok, n, htiers⟩ := State.writeBlock_clean c (h b (by simp)) (a := (pieceOf a bs b).1)
    generalize hu : (s.writeBlock c b (pieceOf a bs b).1 (pieceOf a bs b).2).1 = u at htiers
    have hmap : ∀ k, u.tiers.mapOf k = if k = b then mapByte false false true n else s.tiers.mapOf k := fun k => by
      rw [htiers]
      exact Tiers.mapOf_setMap ..
    have hstep : State.writePieces c a bs (b :: l) (s, false) = State.writePieces c a bs l (u, false) := by
      simp [State.writePieces, List.foldl_cons, hok, hu]
    have hrest : ∀ k ∈ l, mapPoison (u.tiers.mapOf k) = true → (pieceOf a bs k).2.length = 4096 := fun k hk => by
      rw [hmap, if_neg (fun e : k = b => hb (e ▸ hk))]
      exact h k (by simp [hk])
    obtain ⟨hx, hbytes, hout, hin⟩ := ih u hl hrest
    dsimp only
    rw [hstep]
    refine ⟨hx, fun k => ?_, fun k hk => ?_, fun k hk => ?_⟩
    · have hbyte : Store.get 0 u.tiers.outer k =
          if a ≤ k ∧ k < a + bs.length ∧ k / 4096 = b then bs.getD (k - a) 0 else Store.get 0 s.tiers.outer k := by
        rw [htiers]
        refine (get_putBytes ..).trans ?_
        by_cases hk : a ≤ k ∧ k < a + bs.length ∧ k / 4096 = b
        · rw [if_pos hk, if_pos (mem_pieceOf.mpr hk), getD_pieceOf hk]
        · rw [if_neg hk, if_neg (fun e => hk (mem_pieceOf.mp e))]
      rw [hbytes, hbyte]
      simp only [List.mem_cons]
      grind
    · rw [List.mem_cons, not_or] at hk
      rw [hout k hk.2, hmap, if_neg hk.1]
    · by_cases hkl : k ∈ l
      · exact hin k hkl
      · rw [hout k hkl, hmap, if_pos ((List.mem_cons.mp hk).resolve_right hkl)]
        exact mapByte_clean n

theorem State.partPoison_length {t : Tiers} {a b : Nat} {bs : List Byte} (h : t.partPoison a bs.length = false)
    (hb : b ∈ blocksOf a bs.length) (hp : mapPoison (t.mapOf b) = true) : (pieceOf a bs b).2.length = 4096 := by
  unfold Tiers.partPoison at h
  have hw := List.any_eq_false.mp h b hb
  simp only [hp, Bool.true_and, Bool.not_eq_true', Bool.not_eq_false, Bool.and_eq_true, decide_eq_true_eq] at hw
  rw [length_pieceOf]
  omega

/-- A write of a span in which no poisoned block is written in part stores exactly its bytes, and its blocks are then clean. -/
theorem State.writeOuter_clean {s : State} (c : TierClass) {a : Nat} {bs : List Byte} (hn : 0 < bs.length)
    (h : s.tiers.partPoison a bs.length = false) : (s.writeOuter c a bs).2 = false ∧
      (∀ k, Store.get 0 (s.writeOuter c a bs).1.tiers.outer k =
        if a ≤ k ∧ k < a + bs.length then bs.getD (k - a) 0 else Store.get 0 s.tiers.outer k) ∧
      ∀ b ∈ blocksOf a bs.length, mapPoison ((s.writeOuter c a bs).1.tiers.mapOf b) = false ∧
        mapRepair ((s.writeOuter c a bs).1.tiers.mapOf b) = false := by
  obtain ⟨hx, hbytes, -, hin⟩ := State.writePieces_clean c a bs _ s (nodup_blocksOf a bs.length)
    fun b hb => State.partPoison_length h hb
  rw [State.writeOuter_eq]
  refine ⟨hx, fun k => (hbytes k).trans ?_, hin⟩
  congr 1
  rw [mem_blocksOf hn]
  exact propext ⟨fun e => ⟨e.1, e.2.1⟩, fun e => ⟨e.1, e.2, by omega, by omega⟩⟩

/-! Accesses that no package fault meets (R254-R258). -/

theorem State.openBlock_none (s : State) (b : Nat) : s.openBlock b SectorFault.none = (.good, s) := by
  simp [State.openBlock, State.decodeSector, SectorFault.none]

theorem State.access_none {s : State} {h : HeldAccess} (hfit : h.addr + h.len ≤ outerSize s.dev.variant)
    (hheld : s.heldBlock h.addr h.len = none) : s.access h SectorFault.none = s.serve h false := by
  unfold State.access
  rw [if_neg (by omega), hheld]
  dsimp only
  cases s.meets h SectorFault.none with
  | none => rfl
  | some b => simp [State.openBlock_none]

theorem State.heldBlock_eq_none {s : State} {a n : Nat} (h : ∀ b ∈ blocksOf a n, mapRepair (s.tiers.mapOf b) = false) :
    s.heldBlock a n = none := by
  unfold State.heldBlock
  exact List.find?_eq_none.mpr fun b hb => by simp [h b hb]

theorem Tiers.poisoned_eq_false {t : Tiers} {a n : Nat} (h : ∀ b ∈ blocksOf a n, mapPoison (t.mapOf b) = false) :
    t.poisoned a n = false := by
  unfold Tiers.poisoned
  rw [List.any_eq_false.mpr fun b hb => by simp [h b hb], Bool.and_false]

/-- Waking the TREs of a span changes the islands and the wake of the hubs alone. -/
theorem State.thawBlocks_eq (s : State) (a n : Nat) :
    s.thawBlocks a n = { s with islands := (s.thawBlocks a n).islands, evh := (s.thawBlocks a n).evh } := by
  unfold State.thawBlocks
  generalize blocksOf a n = l
  induction l generalizing s with
  | nil => rfl
  | cons b l ih =>
    have hstep : ∀ p, s.thawPage p = { s with islands := (s.thawPage p).islands, evh := (s.thawPage p).evh } := fun p => by
      unfold State.thawPage
      dsimp only
      split <;> split <;> rfl
    rw [List.foldl_cons, ih (s.thawPage _), hstep]

@[simp] theorem State.thawBlocks_tiers (s : State) (a n : Nat) : (s.thawBlocks a n).tiers = s.tiers := by
  rw [State.thawBlocks_eq]

@[simp] theorem State.thawBlocks_besideOuter (s : State) (a n : Nat) : (s.thawBlocks a n).besideOuter = s.besideOuter := by
  rw [State.thawBlocks_eq]
  rfl

theorem State.chargeRead_besideOuter (s : State) (c : TierClass) (a n : Nat) :
    (s.chargeRead c a n).besideOuter = s.besideOuter := by
  unfold State.chargeRead
  generalize blocksOf a n = l
  induction l generalizing s with
  | nil => rfl
  | cons b l ih => exact (ih _).trans (State.charge_besideOuter ..)

/-- OUTER_WRITE without a fault: its bytes are written, and the bus is answered with no fault. -/
theorem exec_outerWrite {c : TierClass} {a : BitVec 40} {bs : List Byte} {s : State} (hbs : bs ≠ [])
    (hfit : a.toNat + bs.length ≤ outerSize s.dev.variant) (hheld : s.heldBlock a.toNat bs.length = none)
    (hpart : s.tiers.partPoison a.toNat bs.length = false) : exec (.outerWrite c a bs SectorFault.none) s =
      .next (((s.thawBlocks a.toNat bs.length).writeOuter c a.toNat bs).1.emit (.readReply [] 0)) := by
  refine congrArg Host.Outcome.next ((if_neg hbs).trans ((State.access_none hfit hheld).trans ?_))
  obtain ⟨hx, -, -⟩ := State.writeOuter_clean (s := s.thawBlocks a.toNat bs.length) c (List.length_pos_iff.mpr hbs)
    (by simpa using hpart)
  simp [State.serve, State.answer, hx]

/-- OUTER_READ without a fault: the sectors are charged, and the bus is answered with the bytes. -/
theorem exec_outerRead {c : TierClass} {a : BitVec 40} {n : Nat} {s : State} (hn : n ≠ 0)
    (hfit : a.toNat + n ≤ outerSize s.dev.variant) (hheld : s.heldBlock a.toNat n = none)
    (hp : s.tiers.poisoned a.toNat n = false) : exec (.outerRead c a n SectorFault.none) s =
      .next (((s.thawBlocks a.toNat n).chargeRead c a.toNat n).emit (.readReply (s.tiers.outerBytes a.toNat n) 0)) := by
  refine congrArg Host.Outcome.next ((if_neg hn).trans ((State.access_none hfit hheld).trans ?_))
  simp [State.serve, State.readOuter, State.answer, hp]

/-- Settles O31: the write is the fold of its blocks, the read answers the bytes of its span. -/
theorem outerTierStoresBytes : Obligations.OuterTierStoresBytes := by
  intro c a bs n s
  refine ⟨fun hbs hfit hheld hpart => ⟨_, exec_outerWrite hbs hfit hheld hpart, ?_⟩, exec_outerRead⟩
  generalize hw : (s.thawBlocks a.toNat bs.length).writeOuter c a.toNat bs = w
  have hbeside : w.1.besideOuter = s.besideOuter := by
    rw [← hw, State.writeOuter_eq, State.writePieces_besideOuter, State.thawBlocks_besideOuter]
  obtain ⟨-, hbytes, -⟩ := State.writeOuter_clean (s := s.thawBlocks a.toNat bs.length) c (List.length_pos_iff.mpr hbs)
    (by simpa using hpart)
  rw [hw, State.thawBlocks_tiers] at hbytes
  simp only [State.besideOuter, Prod.mk.injEq] at hbeside
  obtain ⟨hcores, hsent, -, hnear, hpoison⟩ := hbeside
  exact ⟨hbytes, hnear, hpoison, hcores, congrArg (· ++ [Sent.readReply [] 0]) hsent⟩

theorem Tiers.outerBytes_eq {t : Tiers} {a : Nat} {bs : List Byte}
    (h : ∀ k, a ≤ k ∧ k < a + bs.length → Store.get 0 t.outer k = bs.getD (k - a) 0) : t.outerBytes a bs.length = bs := by
  refine List.ext_getElem (by simp [Tiers.outerBytes]) fun i _ hi => ?_
  have hbyte := h (a + i) (by omega)
  rw [Nat.add_sub_cancel_left, List.getD_eq_getElem _ _ hi] at hbyte
  simpa [Tiers.outerBytes] using hbyte

/-- Settles O32: after the write every block of the span is neither poisoned nor under repair, so the read of it is answered
with its bytes, which are those written. -/
theorem outerReadAfterWrite : Obligations.OuterReadAfterWrite := by
  intro c1 c2 a bs s t hbs hfit hheld hpart ht
  rw [exec_outerWrite hbs hfit hheld hpart] at ht
  cases ht
  obtain ⟨-, hbytes, hclean⟩ := State.writeOuter_clean (s := s.thawBlocks a.toNat bs.length) c1
    (List.length_pos_iff.mpr hbs) (by simpa using hpart)
  generalize hw : (s.thawBlocks a.toNat bs.length).writeOuter c1 a.toNat bs = w at hbytes hclean
  have hbeside : w.1.besideOuter = s.besideOuter := by
    rw [← hw, State.writeOuter_eq, State.writePieces_besideOuter, State.thawBlocks_besideOuter]
  simp only [State.besideOuter, Prod.mk.injEq] at hbeside
  obtain ⟨-, -, hdev, -⟩ := hbeside
  refine ⟨_, exec_outerRead (by simpa using hbs) ?_ (State.heldBlock_eq_none fun b hb => (hclean b hb).2)
    (Tiers.poisoned_eq_false fun b hb => (hclean b hb).1), ?_⟩
  · rw [State.emit_dev, hdev]
    exact hfit
  · generalize hy : w.1.emit (.readReply [] 0) = y
    have hread : y.tiers.outerBytes a.toNat bs.length = bs := by
      subst hy
      exact Tiers.outerBytes_eq fun k hk => (hbytes k).trans (if_pos hk)
    have hsent : ((y.thawBlocks a.toNat bs.length).chargeRead c2 a.toNat bs.length).besideOuter = y.besideOuter := by
      rw [State.chargeRead_besideOuter, State.thawBlocks_besideOuter]
    rw [hread]
    exact congrArg (· ++ [Sent.readReply bs 0]) (congrArg (fun x => x.2.1) hsent)

end Sys2Proof.Machine

/-!
PROOFS. Issue of descriptors (R122, R142): what the control, matrix, vector and row descriptors do as they issue, and what the
array descriptors leave of SPD.
-/
namespace Sys2Proof.Machine

/-! The three ways in which an issue command ends. -/

theorem State.issue_none {s : State} {n : Nat} {k : Kind} (push : Desc → Nat → Option LoopLevel)
    (h : s.issuable n k = none) : s.issue n k push = s := by
  unfold State.issue
  rw [h]

theorem State.issue_faulted {s : State} {n : Nat} {k : Kind} {d : Desc} (push : Desc → Nat → Option LoopLevel)
    (h : s.issuable n k = some d) (hf : k.faults s n d ≠ []) : s.issue n k push = s.onCore n fun c =>
      let c1 := c.pushEntry (s.entryOf n k d .faulted (k.faults s n d))
      { c1 with seq := { c1.seq with faultStop := true } } := by
  unfold State.issue
  rw [h]
  exact if_pos (by simpa using hf)

theorem State.issue_clean {s : State} {n : Nat} {k : Kind} {d : Desc} (push : Desc → Nat → Option LoopLevel)
    (h : s.issuable n k = some d) (hf : k.faults s n d = []) : s.issue n k push =
      let r := k.act s n (s.core n).seq.serial d
      let t := s.afterIssue r.1 n k d r.2.1 r.2.2 (push d (s.core n).seq.cursor)
      if k.cls = 0 then t else t.rebalance (n / 4) := by
  unfold State.issue
  rw [h]
  exact if_neg (by simp [hf])

/-! Control descriptors. -/

/-- Settles O14: each of the control descriptors issues with the act of its kind. -/
theorem controlDescriptorsIssue : Obligations.ControlDescriptorsIssue := by
  intro x d s n c
  have issued : ∀ (k : Kind) (push : Desc → Nat → Option LoopLevel), k.cls = 0 → s.issuable n k = some d →
      k.faults s n d = [] → Host.Outcome.next (φ := Fault) (ρ := Refusal) (s.issue n k push) =
        .next (s.afterIssue (k.act s n c.seq.serial d).1 n k d (k.act s n c.seq.serial d).2.1 (k.act s n c.seq.serial d).2.2
          (push d c.seq.cursor)) := fun k push hk hd hf =>
    congrArg Host.Outcome.next ((State.issue_clean push hd hf).trans (if_pos hk))
  exact ⟨issued nopKind noPush rfl, issued loopKind _ rfl, issued waitKind noPush rfl, issued signalKind noPush rfl,
    issued hurdleKind noPush rfl, issued eventKind noPush rfl, issued histCfgKind noPush rfl, issued batonWaitKind noPush rfl⟩

theorem histStoreAct_spd {s : State} {n q : Nat} {d : Desc} (hspd : dbit d 0x10 63 = true) (hmerge : dbit d 8 4 = false) :
    histStoreAct s n q d = (s.setCore n ((histTake (s.core n) d).2.write (dfld d 0x10 55 0) (histTake (s.core n) d).1),
      .run, []) := by
  unfold histStoreAct
  simp [histDest, hspd, hmerge]

/-- Settles O15: what the acts of the two kinds do for these forms. -/
theorem histStoreAndBatonSendIssue : Obligations.HistStoreAndBatonSendIssue := by
  intro x d s n c k
  refine ⟨fun hd hf hspd hmerge => ?_, fun hd hf hkind => ?_, fun hd hf hkind => ?_⟩
  · refine congrArg Host.Outcome.next ((State.issue_clean noPush hd hf).trans ((if_pos rfl).trans ?_))
    rw [show histStoreKind.act = histStoreAct from rfl, histStoreAct_spd hspd hmerge]
    rfl
  · refine congrArg Host.Outcome.next ((State.issue_clean noPush hd hf).trans ((if_pos rfl).trans ?_))
    simp only [batonSendKind, hkind]
    rfl
  · refine congrArg Host.Outcome.next ((State.issue_clean noPush hd hf).trans ((if_pos rfl).trans ?_))
    simp only [batonSendKind, hkind]
    rfl

/-! Matrix, vector and row descriptors. -/

/-- A command that issues a control, matrix, vector or row descriptor is the issue of its kind. -/
theorem exec_issueRow {i : Instr} {n : Nat} {k : Kind} (h : issueRow i = some (n, k)) :
    ∃ push, ∀ s, exec i s = .next (s.issue n k push) := by
  cases i <;> cases h <;> exact ⟨_, fun _ => rfl⟩

/-- A matrix, vector or row descriptor is of an engine's kind: it pushes no loop level and acts by its run. -/
theorem runRow_kind {i : Instr} {n : Nat} {k : Kind} {run : Core → Env → Desc → RunRes} (h : issueRow i = some (n, k))
    (hr : runRow i = some run) :
    k.cls = 1 ∧ k.act = engineAct run k.bank ∧ ∀ s, exec i s = .next (s.issue n k noPush) := by
  cases i <;> cases h <;> cases hr <;> exact ⟨rfl, rfl, fun _ => rfl⟩

/-- A descriptor that no fault on its bank cancels runs on its core. -/
theorem engineAct_run {run : Core → Env → Desc → RunRes} {bank : Desc → Option (Nat × Nat)} {s : State} {n : Nat} (q : Nat)
    {d : Desc} (h : ∀ b, bank d = some b → (s.core n).bankFails b.1 = false) : engineAct run bank s n q d =
      let r := run (s.core n) (s.env n) d
      ({ s.setCore n r.core with free := s.free + r.drawn }, .run, r.faults) := by
  refine if_neg ?_
  cases hb : bank d with
  | none => simp
  | some b => simp [h b hb]

/-- A descriptor of an engine is cancelled, and then only foretells its bank, or runs. -/
theorem engineAct_cancelled_or_run (run : Core → Env → Desc → RunRes) (bank : Desc → Option (Nat × Nat)) (s : State) (n q : Nat)
    (d : Desc) :
    (∃ b x, engineAct run bank s n q d = (s.setCore n ((s.core n).expectBank b x), .cancelled, [])) ∨
      engineAct run bank s n q d =
        ({ s.setCore n (run (s.core n) (s.env n) d).core with free := s.free + (run (s.core n) (s.env n) d).drawn }, .run,
          (run (s.core n) (s.env n) d).faults) :=
  (ite_eq_or_eq _ _ _).imp (fun h => ⟨_, _, h⟩) id

/-- Settles O17: an engine's descriptor that nothing cancels acts by its run. -/
theorem engineDescriptorsRun : Obligations.EngineDescriptorsRun := by
  intro i n k run d s hi hr hd hf hb r
  obtain ⟨hcls, hact, hexec⟩ := runRow_kind hi hr
  rw [hexec, State.issue_clean noPush hd hf, hact, engineAct_run _ hb]
  exact congrArg Host.Outcome.next (if_neg (by omega))

/-- Settles O19: with a fault at issue the entry joins the window as faulted, and a command that may not issue does nothing. -/
theorem faultAtIssueStopsList : Obligations.FaultAtIssueStopsList := by
  intro i n k s hi
  obtain ⟨push, hexec⟩ := exec_issueRow hi
  rw [hexec]
  exact ⟨fun d hd hf => congrArg Host.Outcome.next (State.issue_faulted push hd hf),
    fun h => congrArg Host.Outcome.next (State.issue_none push h)⟩

/-! SPD over an issue. -/

theorem Core.byte_eq {c e : Core} (h : c.spd = e.spd) (a : Nat) : c.byte a = e.byte a := by
  unfold Core.byte
  rw [h]

@[simp] theorem State.setPoint_cores (s : State) (n p : Nat) : (s.setPoint n p).cores = s.cores := rfl

theorem foldl_cores {α : Type} {f : State → α → State} (h : ∀ s a, (f s a).cores = s.cores) (l : List α) (s : State) :
    (l.foldl f s).cores = s.cores := by
  induction l generalizing s with
  | nil => rfl
  | cons a l ih => exact (ih _).trans (h s a)

@[simp] theorem State.rebalance_cores (s : State) (j : Nat) : (s.rebalance j).cores = s.cores := by
  unfold State.rebalance
  refine (State.setReg_cores ..).trans ((foldl_cores (fun _ _ => State.setPoint_cores ..) ..).trans ?_)
  exact foldl_cores (fun _ _ => State.setPoint_cores ..) ..

@[simp] theorem State.core_rebalance (s : State) (j n : Nat) : (s.rebalance j).core n = s.core n :=
  congrArg (Store.get Core.reset · n) (State.rebalance_cores s j)

@[simp] theorem State.walkOn_spd (s : State) (f : Nat) (c : Core) : (s.walkOn f c).spd = c.spd := by
  induction f generalizing c with
  | zero => rfl
  | succ f ih =>
    unfold State.walkOn
    split
    · exact ih _
    · rfl

/-- The bytes of SPD of an issued descriptor's core are those that it left. -/
theorem State.spd_afterIssue (s u : State) (n : Nat) (k : Kind) (d : Desc) (st : EntryState) (fs : List FaultAt)
    (push : Option LoopLevel) : ((s.afterIssue u n k d st fs push).core n).spd = (u.core n).spd := by
  unfold State.afterIssue State.moveOn
  rw [State.core_onCore, State.walkOn_spd, State.core_onCore]
  rfl

/-- A byte of SPD that the act of a kind leaves, the issue leaves too. -/
theorem State.byte_issue {s : State} {n a : Nat} {k : Kind} (push : Desc → Nat → Option LoopLevel)
    (h : ∀ d, s.issuable n k = some d → ((k.act s n (s.core n).seq.serial d).1.core n).byte a = (s.core n).byte a) :
    ((s.issue n k push).core n).byte a = (s.core n).byte a := by
  cases hd : s.issuable n k with
  | none => rw [State.issue_none push hd]
  | some d =>
    by_cases hf : k.faults s n d = []
    · rw [State.issue_clean push hd hf, ← h d hd]
      refine Core.byte_eq ?_ a
      dsimp only
      split
      · exact State.spd_afterIssue ..
      · rw [State.core_rebalance]
        exact State.spd_afterIssue ..
    · rw [State.issue_faulted push hd hf, State.core_onCore]
      rfl

@[simp] theorem Core.setBank_spd (c : Core) (b : Nat) (x : Bank) : (c.setBank b x).spd = c.spd := by
  unfold Core.setBank
  split <;> rfl

@[simp] theorem Core.countSerial_spd (c : Core) (unit b : Nat) (late : Bool) : (c.countSerial unit b late).spd = c.spd := by
  unfold Core.countSerial
  split <;> rfl

/-- A byte that an engine's run leaves stays as its descriptor acts, also where the descriptor is cancelled. -/
theorem byte_engineAct {run : Core → Env → Desc → RunRes} (bank : Desc → Option (Nat × Nat)) {s : State} {n a : Nat} (q : Nat)
    {d : Desc} (h : (run (s.core n) (s.env n) d).core.byte a = (s.core n).byte a) :
    ((engineAct run bank s n q d).1.core n).byte a = (s.core n).byte a := by
  obtain ⟨b, x, hact⟩ | hact := engineAct_cancelled_or_run run bank s n q d <;> rw [hact]
  · rw [State.core_setCore]
    exact Core.byte_eq (Core.setBank_spd ..) a
  · exact (congrArg (Core.byte · a) (State.core_setCore s n _)).trans h

theorem State.byte_issueEngine {s : State} {n a : Nat} {k : Kind} {run : Core → Env → Desc → RunRes}
    (hk : k.act = engineAct run k.bank) (push : Desc → Nat → Option LoopLevel)
    (h : ∀ d, s.issuable n k = some d → (run (s.core n) (s.env n) d).core.byte a = (s.core n).byte a) :
    ((s.issue n k push).core n).byte a = (s.core n).byte a :=
  State.byte_issue push fun d hd => by
    rw [hk]
    exact byte_engineAct _ _ (h d hd)

theorem mmRun_spd (c : Core) (e : Env) (d : Desc) : (mmRun c e d).core.spd = c.spd := by
  unfold mmRun
  dsimp only
  split <;> simp [RunRes.ok, Core.countWrap]

theorem accResumeRun_spd (c : Core) (e : Env) (d : Desc) : (accResumeRun c e d).core.spd = c.spd := by
  unfold accResumeRun
  dsimp only
  split <;> simp [RunRes.ok]

theorem accClearRun_spd (c : Core) (e : Env) (d : Desc) : (accClearRun c e d).core.spd = c.spd := by
  simp [accClearRun, RunRes.ok]

theorem length_flatten_map {α : Type} (f : Nat → List α) (k n : Nat) (h : ∀ i, (f i).length = k) :
    ((List.range n).map f).flatten.length = n * k := by
  simp [List.length_flatten, Function.comp_def, h]

@[simp] theorem length_natLe (n v : Nat) : (natLe n v).length = n := by
  induction n generalizing v with
  | zero => rfl
  | succ n ih => simp [natLe, ih]

theorem length_spillImage (b : Bank) : (spillImage b).length = spillSize := by
  unfold spillImage
  dsimp only
  simp only [List.length_append, length_natLe, List.length_replicate]
  rw [length_flatten_map _ 8 _ (fun i => by simp), length_flatten_map _ 4 _ (fun i => by simp)]
  rfl

theorem byte_accSpillRun (c : Core) (e : Env) {d : Desc} {a : Nat}
    (h : a < dfld d 0x10 20 0 ∨ dfld d 0x10 20 0 + spillSize ≤ a) : (accSpillRun c e d).core.byte a = c.byte a := by
  unfold accSpillRun
  dsimp only
  rw [RunRes.ok, Core.byte_eq (Core.setBank_spd ..), Core.write_byte, length_spillImage, if_neg (by omega)]
  exact Core.byte_eq (Core.countSerial_spd ..) a

/-- Settles O20: the runs of the four write no SPD, and ACC_SPILL writes the image of its bank to its buffer. -/
theorem arrayDescriptorsSpdFrame : Obligations.ArrayDescriptorsSpdFrame := by
  intro x a s t n
  refine ⟨?_, fun d hd ht ha => ?_, fun hd ht => ?_⟩
  · rintro (ht | ht | ht | ht) <;> cases ht
    · exact State.byte_issueEngine rfl noPush fun d _ => Core.byte_eq (mmRun_spd ..) a
    · exact State.byte_issueEngine rfl noPush fun d _ => Core.byte_eq (mmRun_spd ..) a
    · exact State.byte_issueEngine rfl noPush fun d _ => Core.byte_eq (accResumeRun_spd ..) a
    · exact State.byte_issueEngine rfl noPush fun d _ => Core.byte_eq (accClearRun_spd ..) a
  · cases ht
    refine State.byte_issueEngine rfl noPush fun d' hd' => byte_accSpillRun _ _ ?_
    cases hd.symm.trans hd'
    exact ha
  · cases ht
    rw [State.issue_none noPush hd]

end Sys2Proof.Machine

/-!
PROOFS. The stream descriptors as they issue, and what happens in a stream context (R228-R247).
-/
namespace Sys2Proof.Machine

/-! Asking for a tile sends, and leaves the cores as they were. -/

theorem foldl_cores_snd {α β : Type} {f : β × State → α → β × State} (h : ∀ x a, (f x a).2.cores = x.2.cores) (l : List α)
    (x : β × State) : (l.foldl f x).2.cores = x.2.cores := by
  induction l generalizing x with
  | nil => rfl
  | cons a l ih => exact (ih _).trans (h x a)

@[simp] theorem State.drainPort_cores (s : State) (p : Nat) : (s.drainPort p).cores = s.cores := by
  unfold State.drainPort
  dsimp only
  split <;> rfl

@[simp] theorem State.toPort_cores (s : State) (p : Nat) (k : Packet) : (s.toPort p k).cores = s.cores :=
  (State.drainPort_cores ..).trans rfl

@[simp] theorem State.sendOwn_cores (s : State) (k : Packet) : (s.sendOwn k).cores = s.cores := by
  unfold State.sendOwn
  split
  · rfl
  · exact State.toPort_cores ..

@[simp] theorem State.sendAll_cores (s : State) (ks : List Packet) : (s.sendAll ks).cores = s.cores :=
  foldl_cores State.sendOwn_cores ks s

theorem State.xlatEntry_cores (s : State) (i : Nat) : (s.xlatEntry i).2.cores = s.cores := by
  unfold State.xlatEntry
  split <;> rfl

@[simp] theorem State.translate_cores (s : State) (off n : Nat) (write : Bool) : (s.translate off n write).2.cores = s.cores := by
  unfold State.translate
  split
  · rfl
  · exact foldl_cores_snd (by exact fun _ _ => State.xlatEntry_cores ..) _ _

@[simp] theorem State.hostPost_cores (s : State) (a : Nat) (bs : List Byte) : (s.hostPost a bs).cores = s.cores :=
  foldl_cores (fun s (p : Nat × List Byte) => State.emit_cores s (.hostWrite p.1 p.2)) _ s

@[simp] theorem State.request_cores (s : State) (cl : Client) (ctx dst addr len : Nat) (write : Option (List Byte)) :
    (s.request cl ctx dst addr len write).cores = s.cores := by
  unfold State.request
  dsimp only
  split
  · split
    · exact State.translate_cores ..
    · exact (foldl_cores (fun s (p : Nat × Nat × Nat) => State.emit_cores s (.hostRead _ p.1 p.2.2)) _ _).trans (State.translate_cores ..)
    · exact (foldl_cores (fun _ _ => State.hostPost_cores ..) _ _).trans (State.translate_cores ..)
  · generalize s.stampFor cl _ = ks
    split
    · rfl
    · exact State.sendAll_cores ..

@[simp] theorem State.requestAt_cores (s : State) (cl : Client) (ctx : Nat) (t : Target) (len : Nat)
    (write : Option (List Byte)) : (s.requestAt cl ctx t len write).cores = s.cores := by
  unfold State.requestAt
  repeat' split
  all_goals simp

theorem State.core_askTile (s : State) (n k m : Nat) (t : Tile) : (s.askTile n k t).core m = s.core m :=
  congrArg (Store.get Core.reset · m) (State.requestAt_cores ..)

/-! Starting tiles changes of a core its stream contexts alone. -/

/-- The SPD and the sequencer of a core, which no start of a tile touches. -/
def State.spdSeq (s : State) (n : Nat) : Store Byte × Sequencer := ((s.core n).spd, (s.core n).seq)

theorem State.setStuCtx_spdSeq (s : State) (n k : Nat) (x : StuCtx) : (s.setStuCtx n k x).spdSeq n = s.spdSeq n := by
  unfold State.spdSeq State.setStuCtx
  rw [State.core_onCore]
  rfl

theorem State.askTile_spdSeq (s : State) (n k : Nat) (t : Tile) : (s.askTile n k t).spdSeq n = s.spdSeq n := by
  unfold State.spdSeq
  rw [State.core_askTile]

theorem State.startRing_spdSeq (s : State) (n k f : Nat) : (s.startRing n k f).spdSeq n = s.spdSeq n := by
  induction f generalizing s with
  | zero => rfl
  | succ f ih =>
    unfold State.startRing
    split
    · rfl
    · split
      · rfl
      · exact (ih _).trans ((State.askTile_spdSeq ..).trans (State.setStuCtx_spdSeq ..))

theorem State.startLoad_spdSeq (s : State) (n k serial f : Nat) : (s.startLoad n k serial f).spdSeq n = s.spdSeq n := by
  induction f generalizing s with
  | zero => rfl
  | succ f ih =>
    unfold State.startLoad
    dsimp only
    split
    · rfl
    · split
      · rfl
      · exact (ih _).trans ((State.askTile_spdSeq ..).trans (State.setStuCtx_spdSeq ..))

@[simp] theorem State.startTiles_spdSeq (s : State) (n k : Nat) : (s.startTiles n k).spdSeq n = s.spdSeq n := by
  unfold State.startTiles
  dsimp only
  split
  · exact State.startRing_spdSeq ..
  · split
    · exact State.startRing_spdSeq ..
    · exact (State.startLoad_spdSeq ..).trans (State.startRing_spdSeq ..)

theorem State.byte_of_spdSeq {s t : State} {n : Nat} (h : t.spdSeq n = s.spdSeq n) (a : Nat) :
    (t.core n).byte a = (s.core n).byte a := Core.byte_eq (congrArg Prod.fst h) a

/-! Issue of a stream descriptor. -/

theorem State.not_faultStop_of_issuable {s : State} {n : Nat} {k : Kind} {d : Desc} (h : s.issuable n k = some d) :
    (s.core n).seq.faultStop = false := by
  have hm : s.mayIssue n = true := by
    by_contra hm
    simp [State.issuable, hm] at h
  simp only [State.mayIssue, Bool.and_eq_true, Bool.not_eq_true'] at hm
  exact hm.1.1.2

@[simp] theorem State.walkOn_faultStop (s : State) (f : Nat) (c : Core) : (s.walkOn f c).seq.faultStop = c.seq.faultStop := by
  induction f generalizing c with
  | zero => rfl
  | succ f ih =>
    unfold State.walkOn
    split
    · exact ih _
    · rfl

theorem State.faultStop_afterIssue (s u : State) (n : Nat) (k : Kind) (d : Desc) (st : EntryState) (fs : List FaultAt)
    (push : Option LoopLevel) : ((s.afterIssue u n k d st fs push).core n).seq.faultStop = (u.core n).seq.faultStop := by
  unfold State.afterIssue State.moveOn
  rw [State.core_onCore, State.walkOn_faultStop, State.core_onCore]
  rfl

/-- A stream descriptor that shows no fault issues with its act, and then what may start in its context starts. The two kinds
that may receive the fault of a tile must not stop their list by their act. -/
theorem State.issueStream_clean {s t : State} {n : Nat} {k : Kind} {d : Desc} {st : EntryState}
    (hd : s.issuable n k = some d) (hf : k.faults s n d = []) (hact : k.act s n (s.core n).seq.serial d = (t, st, []))
    (hstop : k.code = 0x63 ∨ k.code = 0x65 → (t.core n).seq.faultStop = (s.core n).seq.faultStop) :
    s.issueStream n k =
      (if k.cls = 0 then s.afterIssue t n k d st [] none
        else (s.afterIssue t n k d st [] none).rebalance (n / 4)).startTiles n (scx d) := by
  have hgo : k.code = 0x63 ∨ k.code = 0x65 → ((s.afterIssue t n k d st [] none).core n).seq.faultStop = false := fun h => by
    rw [State.faultStop_afterIssue, hstop h, State.not_faultStop_of_issuable hd]
  unfold State.issueStream
  rw [hd]
  dsimp only
  rw [State.issue_clean noPush hd hf, hact]
  dsimp only [noPush]
  refine if_neg fun hc => ?_
  simp only [Bool.and_eq_true, Bool.or_eq_true, decide_eq_true_eq] at hc
  obtain ⟨hstopped, hcode⟩ := hc
  rw [apply_ite (fun u : State => (u.core n).seq.faultStop), State.core_rebalance, ite_self, hgo hcode] at hstopped
  exact absurd hstopped (by decide)

theorem Core.putBytes_seq (c : Core) (a : Nat) (bs : List Byte) : (c.putBytes a bs).seq = c.seq := by
  induction bs generalizing c a with
  | nil => rfl
  | cons b bs ih => exact ih _ _

@[simp] theorem Core.write_seq (c : Core) (a : Nat) (bs : List Byte) : (c.write a bs).seq = c.seq := by
  unfold Core.write Core.cleanWords
  split <;> exact Core.putBytes_seq ..

/-- The first eight bytes of a tensor entry at e that is moved to the offset `off` of SPD (R235). -/
def rebasedEntry (c : Core) (e off : Nat) : List Byte := natLe 8 (2 ^ 63 + c.num e 8 / 2 ^ 56 % 128 * 2 ^ 56 + off)

theorem length_rebasedEntry (c : Core) (e off : Nat) : (rebasedEntry c e off).length = 8 := length_natLe ..

/-- S_ACQUIRE changes a context of its core, and with `REBASE` writes eight bytes at the start of its tensor entry. -/
theorem core_acquireAct (s : State) (n q : Nat) (d : Desc) : ∃ c : Core, c.spd = (s.core n).spd ∧ c.seq = (s.core n).seq ∧
    ((acquireAct s n q d).1.core n = c ∧ dbit d 8 12 = false ∨ dbit d 8 12 = true ∧ ∃ off, (acquireAct s n q d).1.core n =
      c.write (0x17E000 + 32 * tensorIndex d (s.env n).loops 0)
        (rebasedEntry c (0x17E000 + 32 * tensorIndex d (s.env n).loops 0) off)) := by
  refine ⟨(s.setStuCtx n (scx d) { s.stu n (scx d) with acq := (s.stu n (scx d)).acq + 1 }).core n,
    congrArg Prod.fst (State.setStuCtx_spdSeq ..), congrArg Prod.snd (State.setStuCtx_spdSeq ..), ?_⟩
  let x := s.stu n (scx d)
  unfold acquireAct rebasedEntry
  cases h : dbit d 8 12 with
  | false => exact .inl ⟨rfl, rfl⟩
  | true =>
    refine .inr ⟨rfl, Sd.spdOff x.first + 64 * (x.acq % Sd.slots x.first * Sd.spitch x.first), ?_⟩
    dsimp only
    rw [if_pos rfl, State.core_onCore]

theorem acquireAct_faultStop (s : State) (n q : Nat) (d : Desc) :
    ((acquireAct s n q d).1.core n).seq.faultStop = (s.core n).seq.faultStop := by
  obtain ⟨c, -, hseq, ⟨hcore, -⟩ | ⟨-, off, hcore⟩⟩ := core_acquireAct s n q d <;> rw [hcore]
  · rw [hseq]
  · rw [Core.write_seq, hseq]

/-- Settles O24: the act writes eight bytes of the tensor entry or none, and what then starts writes no SPD. -/
theorem acquireWritesTensorEntryOnly : Obligations.AcquireWritesTensorEntryOnly := by
  intro x d a s t n e hd ht ha
  cases ht
  have hact : ∀ d', s.issuable n acquireKind = some d' →
      ((acquireKind.act s n (s.core n).seq.serial d').1.core n).byte a = (s.core n).byte a := fun d' hd' => by
    cases hd.symm.trans hd'
    obtain ⟨c, hspd, -, ⟨hcore, -⟩ | ⟨hrebase, off, hcore⟩⟩ := core_acquireAct s n (s.core n).seq.serial d <;>
      rw [show acquireKind.act = acquireAct from rfl, hcore, ← Core.byte_eq hspd a]
    replace ha : a < e ∨ e + 8 ≤ a := ha.resolve_left (by simp [hrebase])
    rw [Core.write_byte, length_rebasedEntry, if_neg (by omega)]
  unfold State.issueStream
  rw [hd]
  dsimp only
  split
  · exact (State.byte_of_spdSeq (State.setStuCtx_spdSeq ..) a).trans (State.byte_issue noPush hact)
  · exact (State.byte_of_spdSeq (State.startTiles_spdSeq ..) a).trans (State.byte_issue noPush hact)

/-! What the acts of the stream descriptors do. -/

/-- A count of the core page leaves its stream contexts. -/
theorem State.stu_countSat (s : State) (n k off m : Nat) : (s.onCore n fun c => c.countSat off m).stu n k = s.stu n k := by
  unfold State.stu
  rw [State.core_onCore]
  rfl

theorem armAct_begins {s : State} {n q : Nat} {d : Desc} (hd : armIndir d = false) (hst : (s.stu n (scx d)).st = .idle) :
    armAct s n q d = ((s.setStuCtx n (scx d) ((s.stu n (scx d)).beginPass (armDesc d))).startTiles n (scx d), .run, []) := by
  simp [armAct, State.placeStream, hd, hst]

theorem armAct_shadow {s : State} {n q : Nat} {d : Desc} (hd : armIndir d = false) (hst : (s.stu n (scx d)).st ≠ .idle)
    (hp : (s.stu n (scx d)).passDone = false) : let busy := s.onCore n fun c => c.countSat 0x508 1
    armAct s n q d = (busy.setStuCtx n (scx d) { busy.stu n (scx d) with shadow := some (armDesc d) }, .run, []) := by
  simp [armAct, State.placeStream, hd, hst, State.stu_countSat, hp]

theorem armAct_fetch {s : State} {n q : Nat} {d : Desc} (hd : armIndir d = true) (hst : (s.stu n (scx d)).st = .idle) :
    armAct s n q d = (s.setStuCtx n (scx d)
      { s.stu n (scx d) with st := .active, fetch := some (armLoc d, some q) }, .wait, []) := by
  simp [armAct, hd, hst]

theorem loadAct_queues {s : State} {n q : Nat} {d : Desc} {sd : StreamDesc}
    (hp : tiPoison (s.core n) (s.env n) d [0] = none) (hs : (s.core n).staleTiles (scx d) = [])
    (hcur : (s.stu n (scx d)).cur = some sd) : let u := s.stu n (scx d)
    loadAct s n q d = (s.setStuCtx n (scx d) { u.step sd (ldCnt d) with
      started := u.started + ldCnt d,
      tiles := u.tiles ++ (List.range (ldCnt d)).map fun i =>
        ⟨sd, u.pos + i, u.started + i, ((s.core n).ti (s.env n) d 0).base + i * Sd.bytes sd, dbit d 8 11, some q, .queued,
          false, false, false⟩ }, .wait, []) := by
  unfold loadAct
  dsimp only
  rw [hp, hs]
  dsimp only
  rw [show ((s.core n).stuCtx (scx d)).cur = some sd from hcur]
  rfl

/-- That a context is disarmed does not stop its list. -/
theorem disarmed_faultStop (s : State) (n k : Nat) (x : StuCtx) (b : Bool) :
    ((if b = true then ((s.setStuCtx n k x).onStu n k (StuCtx.disarm false)).startTiles n k else s.setStuCtx n k x).core
      n).seq.faultStop = (s.core n).seq.faultStop := by
  refine congrArg (fun x : Store Byte × Sequencer => x.2.faultStop) (?_ : State.spdSeq _ n = s.spdSeq n)
  split
  · exact (State.startTiles_spdSeq ..).trans ((State.setStuCtx_spdSeq ..).trans (State.setStuCtx_spdSeq ..))
  · exact State.setStuCtx_spdSeq ..

/-- Settles O23: each stream descriptor issues with the act of its kind, and its context starts what may start. -/
theorem streamDescriptorsIssue : Obligations.StreamDescriptorsIssue := by
  intro x d s n k u c after busy
  have issued : ∀ {kind : Kind} {t : State} {st : EntryState}, s.issuable n kind = some d → kind.faults s n d = [] →
      kind.act s n c.seq.serial d = (t, st, []) →
      (kind.code = 0x63 ∨ kind.code = 0x65 → (t.core n).seq.faultStop = c.seq.faultStop) → kind.cls = 0 →
      Host.Outcome.next (φ := Fault) (ρ := Refusal) (s.issueStream n kind) = .next (after t kind st) :=
    fun hd hf hact hstop hcls => by rw [State.issueStream_clean hd hf hact hstop, if_pos hcls]
  refine ⟨fun hd hf hi hst => ?_, fun hd hf hi hst hp => ?_, fun hd hf hi hst => ?_, fun code dir sd hc hd hf hp hs hcur => ?_,
    fun hd hf => ?_, fun hd hf => ?_, fun hd hf hst => ?_, fun hd hf hst => ?_⟩
  · exact issued hd hf (armAct_begins hi hst) nofun rfl
  · exact issued hd hf (armAct_shadow hi hst hp) nofun rfl
  · exact issued hd hf (armAct_fetch hi hst) nofun rfl
  · have hact := loadAct_queues (q := c.seq.serial) hp hs hcur
    rcases List.mem_cons.mp hc with h | h
    · cases h
      exact congrArg Host.Outcome.next (State.issueStream_clean hd hf hact nofun)
    · cases List.mem_singleton.mp h
      exact congrArg Host.Outcome.next (State.issueStream_clean hd hf hact nofun)
  · exact issued hd hf rfl (fun _ => acquireAct_faultStop ..) rfl
  · exact issued hd hf rfl nofun rfl
  · exact issued hd hf (if_pos hst) (fun _ => rfl) rfl
  · exact issued hd hf (if_neg hst) (fun _ => disarmed_faultStop ..) rfl

end Sys2Proof.Machine

/-!
PROOFS. What happens in a stream context (R228-R247).
-/
namespace Sys2Proof.Machine

/-! What happens in a stream context. -/

theorem State.armFetched_ok {s : State} {n k serial : Nat} {l : StreamLoc} {d : StreamDesc} (shadow : Bool)
    (hd : s.fetchSd n l = .ok d) (hf : s.streamFaults (s.core n).ctx d = []) (hb : shadowBad (s.stu n k).first d = false) :
    s.armFetched n k serial l shadow = (((s.fetchTouch l).setStuCtx n k ((s.stu n k).armed d shadow)).onCore n
      fun c => c.readyEntry serial).startTiles n k := by
  simp [State.armFetched, hd, hf, hb, faultIf]

theorem StuCtx.armed_begins {u : StuCtx} {d : StreamDesc} (h : u.st ≠ .disarming) :
    u.armed d false = { u with fetch := none }.beginPass d := by
  simp [StuCtx.armed, h]

theorem StuCtx.armed_shadow {u : StuCtx} {d : StreamDesc} (h : u.st = .active) (hcur : u.cur ≠ none) :
    u.armed d true = { u with shadowFetch := none, shadow := some d } := by
  simp [StuCtx.armed, h, StuCtx.passDone, StuCtx.noTileLeft, hcur]

theorem State.chainFetched_ahead {s : State} {n k : Nat} {l : StreamLoc} {d : StreamDesc} (hd : s.fetchSd n l = .ok d)
    (hf : s.streamFaults (s.core n).ctx d = []) (hb : chainBad (s.stu n k).first d = false) (hr : Sd.ring d = false)
    (hcur : (s.stu n k).cur ≠ none) : s.chainFetched n k l =
      ((s.fetchTouch l).setStuCtx n k { s.stu n k with fetch := none, ahead := some d }).startTiles n k := by
  simp [State.chainFetched, hd, hf, hb, hr, faultIf, firstFault, hcur]

theorem StuCtx.shedMoved_toIdle (u : StuCtx) : u.shedMoved.toIdle = u.toIdle := by
  unfold StuCtx.shedMoved
  split <;> rfl

/-- Settles O25: in each case the command's branch is the one that the state of the context and of its tile select. -/
theorem streamEventsTakeEffect : Obligations.StreamEventsTakeEffect := by
  intro x c i serial p l d t e f s
  dsimp only
  refine ⟨fun hfetch hd hf hb hst => congrArg Host.Outcome.next ?_, fun hfetch hsf hd hf hb hst hcur => congrArg Host.Outcome.next ?_,
    fun hfetch hd hf hb hr hcur => congrArg Host.Outcome.next ?_, fun he hop hst hunit hall => congrArg Host.Outcome.next ?_,
    fun hp ht hend => congrArg Host.Outcome.next ?_, fun hp ht hend => congrArg Host.Outcome.next ?_,
    fun hp hsh => congrArg Host.Outcome.next ?_, fun hp hsh hsf hdr => congrArg Host.Outcome.next ?_,
    fun hdis hser => congrArg Host.Outcome.next ?_⟩
  · simp only [hfetch]
    rw [State.armFetched_ok false hd hf hb, StuCtx.armed_begins hst]
  · simp only [hfetch, hsf]
    rw [State.armFetched_ok true hd hf hb, StuCtx.armed_shadow hst hcur]
    simp only [hfetch]
  · simp only [hfetch]
    rw [State.chainFetched_ahead hd hf hb hr hcur]
  · simp only [he]
    have hbefore : ((s.core x.val).seq.window.all fun v => serial ≤ v.serial || v.st = .done ||
        ((s.core x.val).seq.abandoning && v.st = .cancelled)) = true :=
      List.all_eq_true.mpr fun v hv => Bool.or_eq_true_iff.mpr (.inl (List.all_eq_true.mp hall v hv))
    rw [if_pos (by simp [hop, hst, hbefore])]
    simp only [hunit]
    rfl
  · simp only [hp, ht, hend]
  · simp only [hp, ht, hend]
  · simp only [hp, hsh]
    rfl
  · simp only [hp, hsh, hsf, hdr]
    rfl
  · simp only [hdis, hser, StuCtx.shedMoved_toIdle]
    rfl

end Sys2Proof.Machine

/-!
PROOFS. Batons: the checks of an arriving one (R323-R326), and what an accepted one of each type does.
-/
namespace Sys2Proof.Machine

/-! The row of a baton. -/

theorem exec_rowBaton {i : Instr} {k : Nat} {b : Baton} (h : rowBaton i = some (k, b)) :
    1 ≤ k ∧ k ≤ 13 ∧ ∀ s, exec i s = .next (s.batonRow k b) := by
  cases i <;> cases h <;> exact ⟨by decide, by decide, fun _ => rfl⟩

theorem State.receiveBaton_room {s : State} {b : Baton} (hm : s.power.mod = 2) (he : s.enabled pgSch = true)
    (hr : s.batonRoom b = true) : s.receiveBaton b = s.acceptBaton b := by
  simp [State.receiveBaton, State.regsUp_active s hm, he, hr]

/-- The next baton of its source is settled, and then held batons that it has freed are taken up. -/
theorem State.receiveBaton_next {s : State} {b : Baton} (h : s.nextBaton b = true) :
    s.receiveBaton b = ((s.expectNext b).settleBaton b).takeFreed b := by
  simp only [State.nextBaton, Bool.and_eq_true, decide_eq_true_eq] at h
  obtain ⟨⟨⟨hm, he⟩, hr⟩, hseq⟩ := h
  rw [State.receiveBaton_room hm he hr]
  exact if_pos hseq

theorem State.batonRow_self (s : State) (b : Baton) : s.batonRow b.type.toNat b = s.receiveBaton b := if_pos rfl

/-! What the checks make of a baton. -/

/-- The state in which the next baton of its source is acted on: its successor is expected, and the SCH is awake (R461). -/
def State.acceptedBy (s : State) (b : Baton) : State := (s.expectNext b).thawPage pgSch

/-- Accepting a baton changes the expected number of its source and the island of the SCH alone. -/
theorem State.acceptedBy_eq (s : State) (b : Baton) : s.acceptedBy b = { s with
    sch := { s.sch with expectNo := Store.set 0 s.sch.expectNo b.src.toNat ((s.expected b.src.toNat + 1) % 65536) }
    islands := (s.acceptedBy b).islands } := by
  unfold State.acceptedBy
  rw [State.thawPage_rest _ (by decide) (by decide)]
  rfl

theorem State.fate_acceptedBy (s : State) (b c : Baton) : (s.acceptedBy b).fate c = s.fate c := by
  rw [State.acceptedBy_eq]
  rfl

/-- How far the epoch of a baton lies ahead of its context's, modulo 256. -/
def State.epochAhead (s : State) (b : Baton) : Nat := (b.epoch.toNat + 256 - s.ctxEpoch b.ctx.toNat) % 256

theorem State.fate_unassigned {s : State} {b : Baton} (h : b.type = 0 ∨ 0xD < b.type.toNat) : s.fate b = .drop 0x158 :=
  if_pos (by simpa using h)

/-- The checks of epoch and lap of a baton whose type is assigned (R325). -/
theorem State.fate_assigned {s : State} {b : Baton} (h1 : 1 ≤ b.type.toNat) (h13 : b.type.toNat ≤ 13) : s.fate b =
    if 128 ≤ s.epochAhead b then .drop 0x150
    else if 0 < s.epochAhead b then .hold
    else if b.lap = 0xFFFFFFFF ∨ b.lap.toNat = s.lap then .act
    else if b.lap.toNat = s.lap + 1 then .hold
    else if b.lap.toNat < s.lap then (if b.type = 5 then .late else .drop 0x154)
    else .drop 0x158 := by
  have h0 : b.type ≠ 0 := fun e => by simp [e] at h1
  have hassigned : ¬ (decide (b.type = 0) || decide (0xD < b.type.toNat)) = true := by
    rw [Bool.or_eq_true, decide_eq_true_eq, decide_eq_true_eq]
    exact not_or.mpr ⟨h0, by omega⟩
  refine (if_neg hassigned).trans ?_
  simp only [Bool.or_eq_true, decide_eq_true_eq]
  rfl

/-! Settling the next baton of its source. -/

theorem State.settle_act {s : State} {b : Baton} (h : s.fate b = .act) :
    (s.expectNext b).settleBaton b = (s.acceptedBy b).act b := by
  rw [← State.fate_acceptedBy s b] at h
  unfold State.acceptedBy at h ⊢
  simp only [State.settleBaton, h]

theorem State.settle_drop {s : State} {b : Baton} {k : Nat} (h : s.fate b = .drop k) :
    (s.expectNext b).settleBaton b = (s.acceptedBy b).countReg pgSch k 1 := by
  rw [← State.fate_acceptedBy s b] at h
  unfold State.acceptedBy at h ⊢
  simp only [State.settleBaton, h]

theorem State.settle_hold {s : State} {b : Baton} (h : s.fate b = .hold) : (s.expectNext b).settleBaton b =
    (s.acceptedBy b).onSch fun c => { c with held := c.held ++ [⟨b, s.dev.time, false, false⟩] } := by
  have htime : (s.acceptedBy b).dev.time = s.dev.time := by rw [State.acceptedBy_eq]
  rw [← State.fate_acceptedBy s b] at h
  unfold State.acceptedBy at h htime ⊢
  simp only [State.settleBaton, h, htime]

/-- Settles O35: each check gives the baton its fate, and the fate is carried out. -/
theorem batonsAreChecked : Obligations.BatonsAreChecked := by
  intro i b s hi
  dsimp only
  rw [← State.epochAhead]
  obtain ⟨h1, h13, hexec⟩ := exec_rowBaton hi
  have fate := State.fate_assigned (s := s) h1 h13
  have settled : ∀ {t : State}, s.nextBaton b = true → (s.expectNext b).settleBaton b = t →
      exec i s = .next (t.takeFreed b) := fun hn ht => by
    rw [hexec, State.batonRow_self, State.receiveBaton_next hn, ht]
  have received : ∀ {t : State}, s.power.mod = 2 → s.enabled pgSch = true → s.batonRoom b = true → s.acceptBaton b = t →
      exec i s = .next t := fun hm he hr ht => by
    rw [hexec, State.batonRow_self, State.receiveBaton_room hm he hr, ht]
  refine ⟨fun hn hd hl => settled hn (State.settle_act ?_), fun hn hd => settled hn (State.settle_drop ?_),
    fun hn hd hd' => settled hn (State.settle_hold ?_), fun hn hd hne hl => settled hn (State.settle_hold ?_),
    fun hn hd hne hl h5 => settled hn (State.settle_drop ?_), fun hn hd hne hl => settled hn (State.settle_drop ?_),
    fun hm he hr hs => received hm he hr ?_, fun hm he hr hne hs => received hm he hr ?_⟩
  · rw [fate, if_neg (by omega), if_neg (by omega), if_pos hl]
  · rw [fate, if_pos hd]
  · rw [fate, if_neg (by omega), if_pos hd]
  · rw [fate, if_neg (by omega), if_neg (by omega), if_neg (not_or.mpr ⟨hne, by omega⟩), if_pos hl]
  · rw [fate, if_neg (by omega), if_neg (by omega), if_neg (not_or.mpr ⟨hne, by omega⟩), if_neg (by omega), if_pos hl, if_neg h5]
  · rw [fate, if_neg (by omega), if_neg (by omega), if_neg (not_or.mpr ⟨hne, by omega⟩), if_neg (by omega), if_neg (by omega)]
  · have hne : b.seq.toNat ≠ s.expected b.src.toNat := fun e => by simp [seqBehind, e] at hs
    exact (if_neg hne).trans (if_pos hs)
  · exact (if_neg hne).trans (if_neg (by simp [hs]))

end Sys2Proof.Machine

/-!
PROOFS. What an accepted baton of each type does (R294, R306, R327-R340).
-/
namespace Sys2Proof.Machine

/-! The act of a baton, type by type. -/

theorem State.act_user {s : State} {b : Baton} (h : b.type = 1) : s.act b = s.takeUser b := by simp [State.act, h]

theorem State.act_arrive {s : State} {b : Baton} (h : b.type = 3) : s.act b = s.takeArrive b := by simp [State.act, h]

theorem State.act_release {s : State} {b : Baton} (h : b.type = 4) : s.act b = s.takeRelease b := by simp [State.act, h]

theorem State.act_loss {s : State} {b : Baton} (h : b.type = 2) (hl : s.lapBaton b = true) : s.act b = s.takeLoss b := by
  simp [State.act, h, hl]

theorem State.act_lapDone {s : State} {b : Baton} (h : b.type = 0xB) (hl : s.lapBaton b = true)
    (hc : s.sch.children.contains b.src.toNat = false) :
    s.act b = s.onSch fun c => { c with children := c.children ++ [b.src.toNat] } := by
  have hc' : b.src.toNat ∉ s.sch.children := by simpa using hc
  simp [State.act, h, hl, hc']

theorem State.act_lapGo {s : State} {b : Baton} (h : b.type = 0xC) (hl : s.lapBaton b = true) (hw : s.sch.lapwait = true) :
    s.act b = s.lapGo (fld b.pay 7 0) := by
  simp [State.act, h, hl, hw]

theorem State.act_withdraw {s : State} {b : Baton} (h : b.type = 0xD) (hl : s.lapBaton b = true) : s.act b = s.withdraw := by
  simp [State.act, h, hl]

/-- A baton of a bucket that the HVUs hold acts on it by its type. -/
theorem State.act_bucket {s : State} {b : Baton} (hl : s.lapBaton b = true) (hh : s.hvuOn = true)
    (hb : fld b.arg 11 0 < s.bktCount) :
    (b.type = 5 → s.act b = s.takePart b) ∧ (b.type = 6 → s.act b = s.takeAck b) ∧ (b.type = 7 → s.act b = s.takeClosed b) ∧
      (b.type = 8 → s.act b = s.takeGather b) ∧ (b.type = 9 → s.act b = s.takeVerdict b) ∧
      (b.type = 0xA → s.act b = s.takeDigest b) := by
  have hin : ¬ s.bktCount ≤ fld b.arg 11 0 := by omega
  refine ⟨fun h => ?_, fun h => ?_, fun h => ?_, fun h => ?_, fun h => ?_, fun h => ?_⟩ <;> simp [State.act, h, hl, hh, hin]

/-! Accepting a baton leaves what its act reads. -/

theorem State.acceptedBy_lapBaton (s : State) (b : Baton) : (s.acceptedBy b).lapBaton b = s.lapBaton b := by
  rw [State.acceptedBy_eq]
  rfl

theorem State.acceptedBy_hvuOn (s : State) (b : Baton) : (s.acceptedBy b).hvuOn = s.hvuOn := by
  rw [State.acceptedBy_eq]
  rfl

theorem State.acceptedBy_bktCount (s : State) (b : Baton) : (s.acceptedBy b).bktCount = s.bktCount := by
  rw [State.acceptedBy_eq]
  rfl

theorem State.acceptedBy_ownId (s : State) (b : Baton) : (s.acceptedBy b).ownId = s.ownId := by
  rw [State.acceptedBy_eq]
  rfl

theorem State.acceptedBy_chan (s : State) (b : Baton) (k : Nat) : (s.acceptedBy b).chan k = s.chan k := by
  rw [State.acceptedBy_eq]
  rfl

theorem State.acceptedBy_hurdleOf (s : State) (b : Baton) (h : Nat) : (s.acceptedBy b).hurdleOf h = s.hurdleOf h := by
  rw [State.acceptedBy_eq]
  rfl

theorem State.acceptedBy_children (s : State) (b : Baton) : (s.acceptedBy b).sch.children = s.sch.children := by
  rw [State.acceptedBy_eq]

theorem State.acceptedBy_lapwait (s : State) (b : Baton) : (s.acceptedBy b).sch.lapwait = s.sch.lapwait := by
  rw [State.acceptedBy_eq]

theorem State.acceptedBy_losses (s : State) (b : Baton) : (s.acceptedBy b).sch.losses = s.sch.losses := by
  rw [State.acceptedBy_eq]

/-- Settles O36: the baton is accepted, and its type acts. -/
theorem batonsTakeEffect : Obligations.BatonsTakeEffect := by
  intro b s
  dsimp only
  rw [← State.epochAhead, ← State.acceptedBy]
  have acted : ∀ {i : Instr} {k : Nat} {t : State}, rowBaton i = some (k, b) → b.type.toNat = k → s.nextBaton b = true →
      s.epochAhead b = 0 ∧ (b.lap = 0xFFFFFFFF ∨ b.lap.toNat = s.lap) → (s.acceptedBy b).act b = t →
      exec i s = .next (t.takeFreed b) := fun hi hk hn hnow ht => by
    obtain ⟨h1, h13, hexec⟩ := exec_rowBaton hi
    subst hk
    have hfate := State.fate_assigned (s := s) h1 h13
    rw [if_neg (by omega), if_neg (by omega), if_pos hnow.2] at hfate
    rw [hexec, State.batonRow_self, State.receiveBaton_next hn, State.settle_act hfate, ht]
  have lap : s.lapBaton b = true → (s.acceptedBy b).lapBaton b = true := (State.acceptedBy_lapBaton s b).trans
  refine ⟨fun hn hnow h hv hc => acted rfl (by simp [h]) hn hnow ?_, fun hn hnow h hl ha => acted rfl (by simp [h]) hn hnow ?_,
    fun hn hnow h hv hc hr hg hd => acted rfl (by simp [h]) hn hnow ?_, fun hn hnow h hv hc hg => acted rfl (by simp [h]) hn hnow ?_,
    fun hn hnow hbkt => ?_, fun hn hnow h hl hc => acted rfl (by simp [h]) hn hnow ?_,
    fun hn hnow h hl hw => acted rfl (by simp [h]) hn hnow ?_, fun hn hnow h hl => acted rfl (by simp [h]) hn hnow ?_,
    fun hn h => ?_, fun h => ?_⟩
  · rw [State.act_user h]
    unfold State.takeUser
    dsimp only
    rw [State.acceptedBy_chan]
    exact if_pos (by simp [hv, hc])
  · rw [State.act_loss h (lap hl)]
    exact if_neg (by rw [State.acceptedBy_losses, ha]; decide)
  · rw [State.act_arrive h]
    unfold State.takeArrive
    dsimp only
    rw [State.acceptedBy_hurdleOf, State.acceptedBy_ownId, if_pos (by simp [hv, hc, hr, hg])]
    exact if_neg (by simpa using hd)
  · rw [State.act_release h]
    unfold State.takeRelease
    dsimp only
    rw [State.acceptedBy_hurdleOf]
    exact if_pos (by simp [hv, hc, hg])
  · obtain ⟨hl, hh, hb⟩ := hbkt
    obtain ⟨h5, h6, h7, h8, h9, hA⟩ := State.act_bucket (lap hl) ((State.acceptedBy_hvuOn s b).trans hh)
      (by rw [State.acceptedBy_bktCount]; exact hb)
    exact ⟨fun h => acted rfl (by simp [h]) hn hnow (h5 h), fun h => acted rfl (by simp [h]) hn hnow (h6 h),
      fun h => acted rfl (by simp [h]) hn hnow (h7 h), fun h => acted rfl (by simp [h]) hn hnow (h8 h),
      fun h => acted rfl (by simp [h]) hn hnow (h9 h), fun h => acted rfl (by simp [h]) hn hnow (hA h)⟩
  · exact State.act_lapDone h (lap hl) (by rw [State.acceptedBy_children]; exact hc)
  · exact State.act_lapGo h (lap hl) (by rw [State.acceptedBy_lapwait]; exact hw)
  · exact State.act_withdraw h (lap hl)
  · refine congrArg Host.Outcome.next ((if_pos (by simpa using h)).trans ?_)
    rw [State.receiveBaton_next hn, State.settle_drop (State.fate_unassigned h)]
  · exact congrArg Host.Outcome.next (if_pos h)

end Sys2Proof.Machine

/-!
PROOFS. The event hubs: claims, completions, sources, comparators, frost and vectors (R433-R442).
-/
namespace Sys2Proof.Machine

/-! The best claim (R435). -/

/-- One source of the pending list against the best claim so far. -/
def State.betterClaim (s : State) (t : Nat) (best : Option Nat) (n : Nat) : Option Nat :=
  if s.claimable t n then
    match best with
    | none => some n
    | some m => if s.srcPrio m < s.srcPrio n then some n else best
  else best

theorem State.bestClaim_eq (s : State) (t : Nat) : s.bestClaim t = s.evh.pend.foldl (s.betterClaim t) none := rfl

theorem State.betterClaim_not {s : State} {t n : Nat} (best : Option Nat) (h : s.claimable t n = false) :
    s.betterClaim t best n = best := by simp [State.betterClaim, h]

theorem State.betterClaim_none {s : State} {t n : Nat} (h : s.claimable t n = true) : s.betterClaim t none n = some n := by
  simp [State.betterClaim, h]

theorem State.betterClaim_some {s : State} {t n m : Nat} (h : s.claimable t n = true) :
    s.betterClaim t (some m) n = if s.srcPrio m < s.srcPrio n then some n else some m := by simp [State.betterClaim, h]

/-- A source that none of the rest exceeds stays the best. -/
theorem State.foldl_betterClaim_keeps {s : State} {t n : Nat} (l : List Nat)
    (h : ∀ m ∈ l, s.claimable t m = true → s.srcPrio m ≤ s.srcPrio n) : l.foldl (s.betterClaim t) (some n) = some n := by
  induction l with
  | nil => rfl
  | cons a l ih =>
    have hl := ih fun m hm => h m (.tail _ hm)
    rw [List.foldl_cons]
    cases ha : s.claimable t a with
    | false => rw [State.betterClaim_not _ ha, hl]
    | true => rw [State.betterClaim_some ha, if_neg (by have := h a (.head _) ha; omega), hl]

theorem State.foldl_betterClaim_none {s : State} {t : Nat} (l : List Nat) (h : ∀ n ∈ l, s.claimable t n = false) :
    l.foldl (s.betterClaim t) none = none := by
  induction l with
  | nil => rfl
  | cons a l ih => rw [List.foldl_cons, State.betterClaim_not _ (h a (.head _)), ih fun n hn => h n (.tail _ hn)]

/-- In a rising list the source of highest priority, the lowest number on a tie, becomes the best, whatever lesser one was so
before. -/
theorem State.foldl_betterClaim_max {s : State} {t n : Nat} (l : List Nat) (best : Option Nat) (hl : l.Pairwise (· < ·))
    (hb : ∀ m, best = some m → s.srcPrio m < s.srcPrio n) (hn : n ∈ l) (hc : s.claimable t n = true)
    (hmax : ∀ m ∈ l, s.claimable t m = true → m ≠ n →
      s.srcPrio m < s.srcPrio n ∨ (s.srcPrio m = s.srcPrio n ∧ n < m)) : l.foldl (s.betterClaim t) best = some n := by
  induction l generalizing best with
  | nil => cases hn
  | cons a l ih =>
    rw [List.pairwise_cons] at hl
    rw [List.foldl_cons]
    by_cases han : a = n
    · subst han
      have hstep : s.betterClaim t best a = some a := by
        cases best with
        | none => exact State.betterClaim_none hc
        | some m => rw [State.betterClaim_some hc, if_pos (hb m rfl)]
      rw [hstep]
      refine State.foldl_betterClaim_keeps l fun m hm hmc => ?_
      have := hl.1 m hm
      have := hmax m (.tail _ hm) hmc (by omega)
      omega
    · have hnl : n ∈ l := (List.mem_cons.mp hn).resolve_left (Ne.symm han)
      refine ih _ hl.2 (fun m hm => ?_) hnl fun m hm => hmax m (.tail _ hm)
      cases ha : s.claimable t a with
      | false => exact hb m (by rwa [State.betterClaim_not _ ha] at hm)
      | true =>
        have hlow : s.srcPrio a < s.srcPrio n := by
          have := hl.1 n hnl
          have := hmax a (.head _) ha han
          omega
        cases best with
        | none => rw [State.betterClaim_none ha] at hm; cases hm; exact hlow
        | some b =>
          rw [State.betterClaim_some ha] at hm
          split at hm
          · cases hm; exact hlow
          · exact hb m hm

/-- Each target has its registers on the page of its hub. -/
theorem targetPage_own (t : Fin 9) : (decide (1 + hubOf t.val = 1) != decide (t.val < 4)) = false := by
  revert t
  decide

/-- A claim register of a target that may claim gives the best claim (R435). -/
theorem State.claimRead_up {s : State} {t : Fin 9} (hup : s.hubUp (hubOf t.val) = true) (hf : s.isFrozen t.val = false)
    (ha : t.val = 8 → s.dev.anchor = true) :
    s.claimRead (1 + hubOf t.val) t.val = match s.bestClaim t.val with
      | none => (0, s)
      | some n => (BitVec.ofNat 32 (2 ^ 31 + s.srcPrio n * 2 ^ 16 + n),
          ({ s with evh := { s.evh with pend := s.evh.pend.filter (· != n), told := s.evh.told.filter (· != n) } } :
            State).setStack t.val ((n, s.srcPrio n) :: s.stack t.val)) := by
  have hfree : (decide (t.val = 8) && !s.dev.anchor) = false := by
    by_cases h : t.val = 8
    · simp [h, ha h]
    · simp [h]
  unfold State.claimRead
  rw [targetPage_own, hup, hf, hfree]
  rfl

/-- Settles O44: the fold over the rising pending list ends at the highest claimable source. -/
theorem claimTakesHighestPriority : Obligations.ClaimTakesHighestPriority := by
  intro r t s hr hup hf ha hsort
  have hexec : exec (.claim r t) s = .next ((s.claimRead (1 + hubOf t.val) t.val).2.reply r
      (some (s.claimRead (1 + hubOf t.val) t.val).1)) := congrArg Host.Outcome.next (State.onRead_reachable _ hr)
  rw [State.claimRead_up hup hf ha, State.bestClaim_eq] at hexec
  refine ⟨fun n hn hc hmax => ?_, fun hnone => ?_⟩
  · rwa [State.foldl_betterClaim_max _ none hsort (fun _ h => by cases h) hn hc hmax] at hexec
  · rwa [State.foldl_betterClaim_none _ hnone] at hexec

/-! Events, completions and comparators. -/

/-- The state that the hub finds: the event is no longer on its way. -/
def State.delivered (s : State) (n : Nat) : State := { s with raised := s.raised.erase n }

/-- A delivered event is taken into its hub (R434). -/
theorem exec_eventDeliver {n : Fin 1024} {s : State} (hm : s.power.mod = 2) (hr : s.raised.contains n.val = true) :
    exec (.eventDeliver n) s = .next ((s.delivered n.val).takeEvent n.val) :=
  congrArg Host.Outcome.next (if_pos (by rw [State.regsUp_active s hm, hr]; rfl))

/-- A hub that is awake makes the event of an enabled source pending, or loses it (R435, R436). -/
theorem State.takeEvent_awake {s : State} {n : Nat} (hm : s.power.mod = 2) (he : bit (s.src n) 31 = true)
    (hf : Store.get false s.evh.frost (hubOf (s.srcTarget n)) = false) :
    s.takeEvent n = if s.evh.pend.contains n || s.inService n then s.loseEvent n else (s.makePending n).notifyHost := by
  have h3 : (decide (fld (s.reg (1 + hubOf (s.srcTarget n)) 0x100) 3 0 ≤ s.srcPrio n) && decide (s.power.mod = 3)) = false := by
    simp [hm]
  unfold State.takeEvent
  dsimp only
  rw [if_neg (by rw [he]; decide), h3]
  exact if_neg (by simp [hf])

theorem State.takeEvent_disabled {s : State} {n : Nat} (he : bit (s.src n) 31 = false) : s.takeEvent n = s :=
  if_pos (by rw [he]; rfl)

theorem State.eoiWrite_top {s : State} {t : Fin 9} {v : Word} {e : Nat × Nat} {rest : List (Nat × Nat)}
    (hf : s.isFrozen t.val = false) (hs : s.stack t.val = e :: rest) :
    s.eoiWrite (1 + hubOf t.val) t.val v =
      if e.1 = fld v 9 0 then (s.setStack t.val rest).notifyHost else s.stackFault t.val := by
  unfold State.eoiWrite
  rw [targetPage_own, hf, hs]
  rfl

theorem State.stackReset_bit {s : State} {t : Fin 9} {v : Word} (h : bit v 0 = true) :
    s.stackReset (1 + hubOf t.val) t.val v = ({ s.setStack t.val [] with evh := { (s.setStack t.val []).evh with
      frozen := Store.set false (s.setStack t.val []).evh.frozen t.val false } } : State).notifyHost := by
  unfold State.stackReset
  rw [targetPage_own, h]
  rfl

/-- Firmware's write of a source with `LOST` written as 1 takes the fields and clears the loss (R436). -/
theorem State.srcWrite_firmware {s : State} {r : Requester} {n : Nat} {v : Word} (hr : r ≠ .host) (ht : fld v 30 27 < 8)
    (he : bit v 31 = true) (hl : bit v 14 = true) : s.srcWrite r 1 n v =
      (s.setReg 1 (evSrc n) (setFld (setFld (setFld 0 31 17 (fld v 31 17)) 14 14 0) 7 0 0)).notifyHost := by
  have h8 : (decide (fld v 30 27 = 8) && !s.dev.anchor) = false := by simp [show fld v 30 27 ≠ 8 by omega]
  unfold State.srcWrite
  dsimp only
  rw [if_neg hr, if_neg (by omega), h8, he, hl]
  rfl

theorem State.srcWrite_host_foreign {s : State} {p n : Nat} {v : Word} (h : fld (s.src n) 30 27 ≠ 8) :
    s.srcWrite .host p n v = s := by
  unfold State.srcWrite
  exact (if_pos rfl).trans (if_neg h)

/-- A free comparator is taken by its writer (R441). -/
theorem State.tmrCtrlWrite_free {s : State} {r : Requester} {k o : Nat} {v : Word}
    (hf : s.tmrForeign k (writeOwner r o) = false) (hp : bit v 30 = false) (hv : bit v 31 = true)
    (h31 : bit (s.reg (tmrPage k) (tmrOff k)) 31 = false) (h25 : bit (s.reg (tmrPage k) (tmrOff k)) 25 = false) :
    s.tmrCtrlWrite r k o v = ((s.setReg (tmrPage k) (tmrOff k)
      (setFld (setFld (setFld 0 31 30 (fld v 31 30)) 29 26 (writeOwner r o)) 25 25
        (fld (s.reg (tmrPage k) (tmrOff k)) 25 25))).conflict (tmrPage k) false).setTmrHit k false := by
  unfold State.tmrCtrlWrite
  dsimp only
  rw [hf, hp, hv, h31, h25]
  rfl

/-- Settles O45: each clause is the branch of its handler. -/
theorem eventHubs : Obligations.EventHubs := by
  intro r n t k o h vec v e rest s
  dsimp only
  refine ⟨fun hm hr he => ?_, fun hm hr he hf hp hs => ?_, fun hm hr he hf hp => ?_, fun ha hf hs => ⟨fun he => ?_, fun he => ?_⟩,
    fun ha hv => ?_, fun ha hr ht he hl => ?_, fun ha ht => ?_, fun ha hf => ?_, fun ha hf hp hv h31 h25 => ?_,
    fun hm hd hp => ?_, fun hm hb hf => ?_, fun hf ht => ?_, fun ha => ⟨fun hp => ?_, fun hp => ?_⟩⟩
  · exact (exec_eventDeliver hm hr).trans (congrArg Host.Outcome.next (State.takeEvent_disabled he))
  · exact (exec_eventDeliver hm hr).trans (congrArg Host.Outcome.next
      ((State.takeEvent_awake (s := s.delivered n.val) hm he hf).trans (if_neg (Bool.eq_false_iff.mp (Bool.or_eq_false_iff.mpr ⟨hp, hs⟩)))))
  · exact (exec_eventDeliver hm hr).trans (congrArg Host.Outcome.next
      ((State.takeEvent_awake (s := s.delivered n.val) hm he hf).trans (if_pos (Bool.or_eq_true_iff.mpr hp))))
  · exact congrArg Host.Outcome.next ((State.onWrite_accepts _ ha).trans ((State.eoiWrite_top hf hs).trans (if_pos he)))
  · exact congrArg Host.Outcome.next ((State.onWrite_accepts _ ha).trans ((State.eoiWrite_top hf hs).trans (if_neg he)))
  · exact congrArg Host.Outcome.next ((State.onWrite_accepts _ ha).trans (State.stackReset_bit hv))
  · exact congrArg Host.Outcome.next ((State.onWrite_accepts _ ha).trans (State.srcWrite_firmware hr ht he hl))
  · exact congrArg Host.Outcome.next ((State.onWrite_accepts _ ha).trans (State.srcWrite_host_foreign ht))
  · exact congrArg Host.Outcome.next ((State.onWrite_accepts _ ha).trans (if_pos hf))
  · exact congrArg Host.Outcome.next ((State.onWrite_accepts _ ha).trans (State.tmrCtrlWrite_free hf hp hv h31 h25))
  · exact congrArg Host.Outcome.next ((if_pos (by rw [State.regsUp_active s hm, hd]; rfl)).trans (if_neg (by rw [hp]; decide)))
  · exact congrArg Host.Outcome.next (if_pos (by rw [State.regsUp_active s hm, hb, hf]; rfl))
  · exact congrArg Host.Outcome.next (if_pos (by rw [hf, ht]; rfl))
  · exact congrArg Host.Outcome.next ((State.onWrite_accepts _ ha).trans (if_neg (by rw [hp]; decide)))
  · exact congrArg Host.Outcome.next ((State.onWrite_accepts _ ha).trans (if_pos hp))

end Sys2Proof.Machine

/-!
PROOFS. Register accesses and islands (R9-R12, R22, R460-R462, R528-R530).
-/
namespace Sys2Proof.Machine

/-! Writes by access type (R10). -/

/-- An aligned access of 32 bits keeps the width rule (R97). -/
theorem State.widthOk_word {s : State} {a : Nat} (h : a % 4 = 0) : s.widthOk a 4 = true := by simp [State.widthOk, h]

/-- An aligned write of a word on an ACTIVE device is a write of the register. -/
theorem exec_registerWrite {r : Requester} {a : BitVec 26} {v : Quad} {s : State} (ha : a.toNat % 4 = 0)
    (hm : s.power.mod = 2) :
    exec (.registerWrite r a 4 v) s = .next (s.writeReg r (a.toNat / 65536) (a.toNat % 65536) (v.truncate 32)) := by
  have hup := State.regsUp_active s hm
  have hw := State.widthOk_word (s := s) ha
  refine congrArg Host.Outcome.next ((if_neg (by rw [hup]; decide)).trans ((if_neg (by rw [hw]; decide)).trans ?_))
  exact if_neg (by decide)

theorem State.accepts_reachable {s : State} {r : Requester} {p off : Nat} (h : s.accepts r p off = true) :
    s.reachable p off = true := by
  unfold State.accepts at h
  exact (Bool.and_eq_true_iff.mp h).1

theorem State.reachable_active {s : State} {p off : Nat} (h : s.reachable p off = true) : s.power.mod = 2 :=
  (State.reachable_parts h).1

/-- A write of a firmware-only register by the host has no effect (R528). -/
theorem State.onWrite_host_dropped {s : State} {p off : Nat} {row : RegRow} (f : State → State)
    (h : s.reachable p off = true) (hr : regRow p off = some row) (hf : row.fw = true) : s.onWrite .host p off f = s := by
  obtain ⟨hm, hp, -⟩ := State.reachable_parts h
  unfold State.onWrite
  simp only [State.regsUp_active s hm, State.present_assigned s p hp, hp, State.awaken_active s hm,
    State.thawPage_reachable h, hr]
  simp [mayWrite, hf]

/-- A plain register of a page without rules of its own takes the written bits of its mask. -/
theorem State.rwWrite_plain {s : State} {r : Requester} {p off m : Nat} {v : Word} (h0 : p ≠ 0) (h1 : p ≠ 1) (h2 : p ≠ 2)
    (hflm : p ≠ pgFlm) (hmde : p ≠ pgMde) (hsch : p ≠ pgSch) : s.rwWrite r p off v m = s.plainWrite p off v m := by
  unfold State.rwWrite
  simp [h0, h1, h2, hflm, hmde, hsch]

/-- Settles O9: each access type is one branch of the write. -/
theorem registerWriteByAccessType : Obligations.RegisterWriteByAccessType := by
  intro r a v row s
  dsimp only
  intro ha hrow
  have written : ∀ {t : State}, s.accepts r (a.toNat / 65536) (a.toNat % 65536) = true →
      s.takeWrite r (a.toNat / 65536) (a.toNat % 65536) (v.truncate 32) = t → exec (.registerWrite r a 4 v) s = .next t :=
    fun hacc ht => (exec_registerWrite ha (State.reachable_active (State.accepts_reachable hacc))).trans
      (congrArg Host.Outcome.next ((State.onWrite_accepts _ hacc).trans ht))
  refine ⟨fun hacc hro => written hacc ?_, fun hacc m hm => written hacc ?_,
    fun hacc m hm h0 h1 h2 hflm hmde hsch ht => written hacc ?_, fun hr hf => ?_⟩
  · unfold State.takeWrite
    rw [hrow]
    rcases hro with h | h <;> simp only [h]
  · unfold State.takeWrite
    rw [hrow]
    simp only [hm]
  · unfold State.takeWrite
    rw [hrow]
    simp only [hm]
    rw [State.rwWrite_plain h0 h1 h2 hflm hmde hsch]
    exact if_pos ht
  · exact (exec_registerWrite ha (State.reachable_active hr)).trans
      (congrArg Host.Outcome.next (State.onWrite_host_dropped _ hr hrow hf))

/-! Reads (R10, R22). -/

/-- A read of a reachable register is what its block answers. -/
theorem State.readReg_reachable {s : State} {r : Requester} {p off : Nat} {row : RegRow} (h : s.reachable p off = true)
    (hr : regRow p off = some row) : s.readReg r p off = s.takeRead r p off row := by
  obtain ⟨hm, hp, hi, -⟩ := State.reachable_parts h
  unfold State.readReg
  simp only [State.present_assigned s p hp, hp, State.awaken_active s hm, State.thawPage_reachable h, hr]
  simp [State.blockUp, hi]

/-- An aligned read of a word on an ACTIVE device answers the register. -/
theorem exec_readClear {r : Requester} {a : BitVec 26} {s : State} (ha : a.toNat % 4 = 0) (hm : s.power.mod = 2) :
    exec (.readClear r a 4) s = .next ((s.readReg r (a.toNat / 65536) (a.toNat % 65536)).2.reply r
      (some (s.readReg r (a.toNat / 65536) (a.toNat % 65536)).1)) := by
  have hup := State.regsUp_active s hm
  have hw := State.widthOk_word (s := s) ha
  refine congrArg Host.Outcome.next ((if_neg (by rw [hup]; decide)).trans ((if_neg (by rw [hw]; decide)).trans ?_))
  exact if_neg (by decide)

/-- Apart from the claim registers and the latched pairs a read answers the register's value. -/
theorem State.takeRead_plain {s : State} {r : Requester} {p off : Nat} {row : RegRow} (hl : latchOf p off = none)
    (hc : ¬ ((p = 1 ∨ p = 2) ∧ 0x400 ≤ off ∧ off < 0x490 ∧ off % 16 = 0)) :
    s.takeRead r p off row = (s.regValue p off, if row.acc = .rc then s.clearReg p off else s) := by
  unfold State.takeRead
  rw [if_neg (by simpa [and_assoc] using hc), hl]

/-- Settles O10: a read answers the value, and only an RC register's read has an effect. -/
theorem readAnswersAndClears : Obligations.ReadAnswersAndClears := by
  intro r a row s
  dsimp only
  intro ha hr hrow hl hc
  have hexec := exec_readClear (r := r) ha (State.reachable_active hr)
  rw [State.readReg_reachable hr hrow, State.takeRead_plain hl hc] at hexec
  refine ⟨fun h => ?_, fun h hp => ?_, fun h hp ho => ?_⟩
  · rwa [if_neg h] at hexec
  · rwa [if_pos h, State.clearReg, if_neg (by simp; omega)] at hexec
  · rwa [if_pos h, State.clearReg, if_pos (by simp; omega)] at hexec

/-- A read of the low word of a count that is reached latches the high word and answers the low one. -/
theorem State.answerRead_low {s : State} {r : Requester} {p off i : Nat} (h : s.reachable p off = true)
    (hl : latchOf p off = some (i, false)) (hc : ¬ (p = 1 ∨ p = 2)) :
    let l := Store.set 0 s.dev.latches (16 * i + Requester.index r) (BitVec.ofNat 32 (s.latchCount i / 2 ^ 32))
    s.answerRead r p off =
      ({ s with dev := { s.dev with latches := l } } : State).reply r (some (BitVec.ofNat 32 (s.latchCount i))) := by
  dsimp only
  obtain ⟨hm, -, -, -, row, hrow⟩ := State.reachable_parts h
  have hread : s.readReg r p off = s.latchRead r i false := by
    rw [State.readReg_reachable h hrow, State.takeRead, if_neg (by simp [hc]), hl]
  unfold State.answerRead
  rw [if_pos (State.regsUp_active s hm), hread]
  rfl

/-- Settles O11: the three counts are the three latched pairs. -/
theorem lowWordReadLatchesHighWord : Obligations.LowWordReadLatchesHighWord := by
  intro r s
  exact ⟨fun h => congrArg Host.Outcome.next (State.answerRead_low h rfl (by decide)),
    fun h => congrArg Host.Outcome.next (State.answerRead_low h rfl (by decide)),
    fun h => congrArg Host.Outcome.next (State.answerRead_low h rfl (by decide))⟩

/-! Page control and islands (R460-R462, R529, R530). -/

/-- Settles O12: each written bit is one step of the page's control. -/
theorem pageControlWrites : Obligations.PageControlWrites := by
  intro r p v s
  refine ⟨fun ha hv => ?_, fun ha hv he hb hi => ?_, fun ha hp hv he => ?_⟩
  · exact congrArg Host.Outcome.next ((State.onWrite_accepts _ ha).trans (if_pos hv))
  · subst hv
    have hreset : (s.setRegBit p.val 8 4 false).softReset p.val = (s.setRegBit p.val 8 4 false).blockReset p.val :=
      if_neg (by simp [hb, hi, show bit ((s.setRegBit p.val 8 4 false).reg p.val 0xC) 0 = false from he])
    exact congrArg Host.Outcome.next ((State.onWrite_accepts _ ha).trans
      (congrArg (fun t => State.enableWrite t p.val false) hreset))
  · subst hv
    have hi : (s.setRegBit p.val 8 4 false).island p.val = 0 := (State.reachable_parts (State.accepts_reachable ha)).2.2.1
    have hoff : (s.setRegBit p.val 8 4 false).enableWrite p.val false =
        ((((s.setRegBit p.val 8 4 false).setRegBit p.val 8 0 false).setRegBit p.val 0xC 0 false).setIsland p.val 1) := by
      unfold State.enableWrite
      simp [hp, hi, he]
    exact congrArg Host.Outcome.next ((State.onWrite_accepts _ ha).trans hoff)

/-- Settles O13: each transition's condition is its guard. -/
theorem islandTransitions : Obligations.IslandTransitions := by
  intro p s
  refine ⟨fun hp hi hf => ?_, fun hp hi he => ?_, fun hm hp h1 h2 hi hb hidle ht => ?_, fun hm hp hi => ?_⟩
  · exact congrArg Host.Outcome.next (if_pos (by simp [hp, hi, hf]))
  · exact congrArg Host.Outcome.next ((if_pos (by simp [hp, hi])).trans (if_pos he))
  · exact congrArg Host.Outcome.next (if_pos (by simp [State.regsUp_active s hm, hp, h1, h2, hi, hb, hidle, ht]))
  · exact congrArg Host.Outcome.next ((if_pos (by simp [hp, hi])).trans (by rw [State.awaken_active s hm]))

end Sys2Proof.Machine

/-!
PROOFS. The reset values.
-/
namespace Sys2Proof.Machine

/-- The registers with a stated reset value: page, offset, value (chapters 10 and 13 to 21). -/
def statedRegs : List (Nat × Nat × Nat) :=
  [(0, 0x180, 0x30000000), (0, 0x1E0, 1800), (1, 0x100, 0xF), (2, 0x100, 0xF), (4, 0x100, 1800), (4, 0x11C, 0x6010100C),
    (4, 0x128, 1000), (5, 0x100, 1900), (5, 0x104, 1), (6, 0x100, 1900), (7, 0x100, 95), (0xA, 0x100, 2), (0xA, 0x108, 10),
    (0xA, 0x130, 100), (0x20, 0x108, 65536), (0x40, 0x100, 0x0002040A), (0x40, 0x118, 2000), (0x40, 0x300, 0x200),
    (0x50, 0x11C, 4096), (0x50, 0x120, 16), (0x50, 0x124, 50000), (0x52, 0x114, 0x3F800000), (0x52, 0x118, 64),
    (0x60, 0x134, 5000), (0x60, 0x138, 10000), (0x44, 8, 0), (0x60, 8, 0), (0x40, 8, 1), (0x100, 8, 1)]

theorem reset_statedRegs : ∀ x ∈ statedRegs, State.reset.reg x.1 x.2.1 = BitVec.ofNat 32 x.2.2 := by decide

/-- After reset each core holds its reset state. -/
theorem reset_core (n : Nat) : State.reset.core n = Core.reset := rfl

/-- Settles O8: the state of each part is its reset state, and the registers read their table's reset value. -/
theorem resetHoldsStatedValues : Obligations.ResetHoldsStatedValues := by
  refine ⟨rfl, rfl, rfl, rfl, rfl, by decide, fun n => ?_, fun n k => ?_, reset_statedRegs, reset_memory_wf⟩
  · rw [reset_core]
    exact ⟨rfl, rfl⟩
  · rw [State.stu, reset_core]
    rfl

end Sys2Proof.Machine

/-!
PROOFS. Signals, hurdles, the window and the list commands (R128-R153).
-/
namespace Sys2Proof.Machine

/-! Signals (R135). -/

/-- Nothing ahead of a signal is of its sender to its receiver. -/
theorem State.signalBehind_eq_false {s : State} {n : Nat} {g : Signal}
    (h : ∀ u ∈ s.signals.take n, u.sender = g.sender → u.lcore ≠ g.lcore) : s.signalBehind n g = false := by
  unfold State.signalBehind
  simpa only [List.any_eq_false, Bool.and_eq_true, decide_eq_true_eq, not_and] using h

/-- The n-th signal leaves the way. -/
def State.takeSignal (s : State) (n : Nat) : State := { s with signals := s.signals.eraseIdx n }

theorem exec_signalDelivery {n : Nat} {g : Signal} {s : State} (hg : s.signals[n]? = some g)
    (hf : s.signalFree g = true) (hb : s.signalBehind n g = false) :
    exec (.signalDelivery n) s = .next ((s.takeSignal n).deliver g) := by
  refine congrArg Host.Outcome.next ?_
  simp only [hg]
  exact if_pos (by rw [hf, hb]; rfl)

theorem pgCore_ne_hub (n : Nat) : pgCore n ≠ 1 ∧ pgCore n ≠ 2 := by
  unfold pgCore
  omega

/-- The cores after a delivery. -/
theorem State.core_deliver (s : State) (g : Signal) (m : Nat) :
    (s.deliver g).core m = (s.onCore (s.siteOf g.lcore) fun c => c.addDep g.ctr g.add).core m := by
  obtain ⟨h1, h2⟩ := pgCore_ne_hub (s.siteOf g.lcore)
  unfold State.deliver
  rw [State.thawPage_rest _ h1 h2]
  rfl

/-- A delivery changes the cores and the islands alone. -/
theorem State.deliver_rest (s : State) (g : Signal) :
    s.deliver g = { s with cores := (s.deliver g).cores, islands := (s.deliver g).islands } := by
  obtain ⟨h1, h2⟩ := pgCore_ne_hub (s.siteOf g.lcore)
  unfold State.deliver
  rw [State.thawPage_eq _ h1 h2]
  split <;> rfl

/-- The island of a delivery's core is ON again where it lies in RETENTION. -/
theorem State.island_deliver (s : State) (g : Signal) (p : Nat) :
    (s.deliver g).island p = if p = pgCore (s.siteOf g.lcore) ∧ s.island p = 4 then 0 else s.island p := by
  obtain ⟨h1, h2⟩ := pgCore_ne_hub (s.siteOf g.lcore)
  refine (State.thawPage_island (s.onCore (s.siteOf g.lcore) fun c => c.addDep g.ctr g.add) h1 h2 p).trans ?_
  by_cases hp : p = pgCore (s.siteOf g.lcore)
  · subst hp; rfl
  · exact (if_neg fun h => hp h.1).trans (if_neg fun h => hp h.1).symm

/-- Settles O21: a delivery adds at one core and thaws its island. -/
theorem signalAddsToCounter : Obligations.SignalAddsToCounter := by
  intro n g s hg hf hb
  exact ⟨_, exec_signalDelivery hg hf (State.signalBehind_eq_false hb),
    (congrArg (fun c => Core.depCtr c g.ctr) ((State.core_deliver (s.takeSignal n) g _).trans (State.core_onCore ..))).trans
      (Core.depCtr_addDep ..),
    State.deliver_rest (s.takeSignal n) g, State.island_deliver (s.takeSignal n) g,
    fun m hm => (State.core_deliver (s.takeSignal n) g m).trans (State.core_onCore_ne _ _ hm),
    (State.core_deliver (s.takeSignal n) g _).trans (State.core_onCore ..)⟩

/-! Hurdles (R136, R330). -/

theorem exec_hurdleOpen {h : Fin 64} {s : State} (hm : s.power.mod = 2) (he : s.enabled pgSch = true)
    (hv : (s.hurdleOf h.val).valid = true) (ha : s.allArrived h.val = true) :
    exec (.hurdleOpen h) s = .next (if (s.hurdleOf h.val).ndev ≤ 1 then s.releaseHurdle h.val
      else if (s.hurdleOf h.val).root = s.ownId then
        (if (s.hurdleOf h.val).devices.contains s.ownId then s
         else (s.setHurdle h.val { s.hurdleOf h.val with devices := (s.hurdleOf h.val).devices ++ [s.ownId] }).rootCheck h.val)
      else if (s.hurdleOf h.val).sent then s
      else (s.setHurdle h.val { s.hurdleOf h.val with sent := true }).sendBaton 3 (s.hurdleOf h.val).ctx
        (s.hurdleOf h.val).root ((s.hurdleOf h.val).gen * 2 ^ 16 + h.val) 0) :=
  congrArg Host.Outcome.next ((if_pos (by rw [State.regsUp_active s hm, he]; rfl)).trans (if_neg (by simp [hv, ha])))

/-- Settles O22: an arrived hurdle opens by its devices; a wait past its limit faults. -/
theorem hurdleOpensOrTimesOut : Obligations.HurdleOpensOrTimesOut := by
  intro h x serial e s
  dsimp only
  refine ⟨fun hm he hv ha => ?_, fun hent hst hlim => ⟨fun ho => ?_, fun ho => ?_⟩⟩
  · rw [exec_hurdleOpen hm he hv ha]
    refine ⟨fun hn => by rw [if_pos hn], fun hn hr hd => ?_, fun hn hr hs => ?_⟩
    · rw [if_neg (by omega), if_pos hr, if_neg (by simpa using hd)]
    · rw [if_neg (by omega), if_neg hr, if_neg (by simp [hs])]
  · refine congrArg Host.Outcome.next ?_
    simp only [hent]
    exact (if_pos (by simp [hst, ho, hlim])).trans (if_pos ho)
  · refine congrArg Host.Outcome.next ?_
    simp only [hent]
    exact (if_pos (by simp [hst, ho, hlim])).trans (if_neg (by omega))

/-! The window (R122, R142). -/

/-- Settles O26: each clause is one branch of the completion or of the fault. -/
theorem entriesCompleteOrFault : Obligations.EntriesCompleteOrFault := by
  intro x serial e d fs s
  dsimp only
  have completes : (s.core x.val).seq.entry serial = some e → (s.core x.val).seq.mayComplete e = true →
      exec (.descriptorComplete x serial) s = .next (s.complete x.val e) := fun he hc => by
    refine congrArg Host.Outcome.next ?_
    simp only [he]
    exact if_pos hc
  refine ⟨fun he hc hu hcls hsen => (completes he hc).trans (congrArg Host.Outcome.next ?_), completes,
    fun he hst hf => congrArg Host.Outcome.next ?_, fun he hs hcur => congrArg Host.Outcome.next ?_⟩
  · unfold State.complete
    dsimp only
    rw [if_pos hcls, if_neg hu]
    simp only [hsen, if_true]
  · simp only [he]
    exact if_pos (by simp [hst, hf])
  · simp only [he]
    refine (if_neg (by simp [hs])).trans ?_
    simp only [hcur]

/-! The list commands (R146-R149). -/

theorem fld_ne_zero_of_bit {v : Word} {j : Nat} (hj : j ≤ 4) (h : bit v j = true) : fld v 4 0 ≠ 0 := by
  have hpow : 2 ^ j ∣ 2 ^ 5 := pow_dvd_pow 2 (by omega)
  intro h0
  have hdvd : 2 ^ j * 2 ∣ v.toNat := by
    have h32 : 2 ^ 5 ∣ v.toNat := Nat.dvd_of_mod_eq_zero (by simpa [fld] using h0)
    exact (pow_succ 2 j ▸ pow_dvd_pow 2 (by omega : j + 1 ≤ 5)).trans h32
  obtain ⟨k, hk⟩ := hdvd
  have hbit : v.toNat.testBit j = true := h
  rw [Nat.testBit_eq_decide_div_mod_eq, hk, Nat.mul_assoc, Nat.mul_div_cancel_left _ (by positivity)] at hbit
  simp at hbit

/-- The list commands are writes of one register. -/
theorem exec_listCtrl {r : Requester} {x : Fin 136} {s : State} (v : Word) (h : s.accepts r (pgCore x.val) 0x110 = true) :
    exec (.start r x v) s = .next (s.listCtrl x.val v) ∧ exec (.stop r x v) s = .next (s.listCtrl x.val v) ∧
      exec (.resume r x v) s = .next (s.listCtrl x.val v) ∧ exec (.skip r x v) s = .next (s.listCtrl x.val v) ∧
      exec (.abandon r x v) s = .next (s.listCtrl x.val v) := by
  have hw : ∀ f, s.onWrite r (pgCore x.val) 0x110 f = f s := fun f => State.onWrite_accepts f h
  exact ⟨congrArg Host.Outcome.next (hw _), congrArg Host.Outcome.next (hw _), congrArg Host.Outcome.next (hw _),
    congrArg Host.Outcome.next (hw _), congrArg Host.Outcome.next (hw _)⟩

/-- Bit i alone of the command bits is set. -/
def onlyBit (v : Word) (i : Nat) : Prop := ∀ j, j < 5 → (bit v j = true ↔ j = i)

theorem onlyBit.set {v : Word} {i : Nat} (h : onlyBit v i) (hi : i < 5) : bit v i = true := (h i hi).mpr rfl

theorem onlyBit.clear {v : Word} {i j : Nat} (h : onlyBit v i) (hj : j < 5) (hne : j ≠ i) : bit v j = false := by
  rw [Bool.eq_false_iff]
  exact fun hb => hne ((h j hj).mp hb)

/-- Settles O28: the command bits select one branch of the register's write. -/
theorem listCommands : Obligations.ListCommands := by
  intro r x v s hacc
  dsimp only
  intro hab
  obtain ⟨hstart, hstop, hresume, hskip, habandon⟩ := exec_listCtrl v hacc
  rw [hstart, hstop, hresume, hskip, habandon]
  have only : ∀ {i : Nat}, onlyBit v i → i < 5 → fld v 4 0 ≠ 0 := fun h hi => fld_ne_zero_of_bit (by omega) (h.set hi)
  refine ⟨fun (h : onlyBit v 0) hst => ?_, fun (h : onlyBit v 0) hst => ?_, fun h4 h1 hst => ?_, fun (h : onlyBit v 2) hst => ?_,
    fun (h : onlyBit v 3) hst => ?_, fun (h : onlyBit v 3) hst => ?_, fun h4 hst => ?_⟩
  · rw [State.listCtrl_start (only h (by decide)) ⟨h.clear (by decide) (by decide), h.clear (by decide) (by decide),
      h.clear (by decide) (by decide), h.clear (by decide) (by decide)⟩ hst hab]
    rfl
  · simp [State.listCtrl, only h (by decide), hab, hst, h.clear (j := 4) (by decide) (by decide),
      h.clear (j := 1) (by decide) (by decide), h.clear (j := 3) (by decide) (by decide),
      h.clear (j := 2) (by decide) (by decide)]
  · simp [State.listCtrl, fld_ne_zero_of_bit (by decide) h1, hab, h4, h1, hst]
  · simp [State.listCtrl, only h (by decide), hab, hst, h.clear (j := 4) (by decide) (by decide),
      h.clear (j := 1) (by decide) (by decide), h.clear (j := 3) (by decide) (by decide), h.set]
  · simp [State.listCtrl, only h (by decide), hab, hst, h.clear (j := 4) (by decide) (by decide),
      h.clear (j := 1) (by decide) (by decide), h.set]
  · simp [State.listCtrl, only h (by decide), hab, hst, h.clear (j := 4) (by decide) (by decide),
      h.clear (j := 1) (by decide) (by decide), h.set]
  · simp [State.listCtrl, fld_ne_zero_of_bit (by decide) h4, hab, h4, hst]

/-! The loop stack (R153). -/

theorem exec_coreLoopWrite {r : Requester} {x : Fin 136} {ix : Fin 8} {v : Word} {s : State}
    (h : s.accepts r (pgCore x.val) (0x180 + 4 * ix.val) = true) :
    exec (.coreLoopWrite r x ix v) s = .next (s.loopStackWrite x.val ix.val v) :=
  congrArg Host.Outcome.next (State.onWrite_accepts _ h)

/-- Outside RUNNING a write that the stack takes gives the sequencer. -/
theorem State.loopStackWrite_idle {s : State} {n i : Nat} {v : Word} {p : Sequencer} (hst : (s.core n).seq.st ≠ .running)
    (h : loopWrite (s.core n).seq (i / 2) (i % 2 = 0) v = some p) :
    s.loopStackWrite n i v = s.onCore n fun c => { c with seq := p } := by
  unfold State.loopStackWrite
  rw [h]
  exact if_pos (by simp [State.listWritable, hst])

theorem Sequencer.setLevel_active {q : Sequencer} {l : Nat} (x : LoopLevel) (h : l < q.loops.length) :
    q.setLevel l x = { q with loops := q.loops.set l x } := if_pos h

theorem Sequencer.setLevel_spare {q : Sequencer} {l : Nat} (x : LoopLevel) (h : q.loops.length ≤ l) :
    q.setLevel l x = { q with spare := Store.set LoopLevel.zero q.spare l x } := if_neg (by omega)

/-- Settles O29: each clause is one branch of the loop stack's write. -/
theorem loopStackWrites : Obligations.LoopStackWrites := by
  intro r x ix v s
  dsimp only
  intro hacc
  rw [exec_coreLoopWrite hacc]
  refine ⟨fun hst hb hl => ?_, fun hst hb hl => ?_, fun hst ha hv hl => ?_, fun hst ha hv hl => ?_, fun hst ha hv => ?_,
    fun h => ?_⟩
  · refine congrArg Host.Outcome.next (State.loopStackWrite_idle hst ?_)
    rw [← Sequencer.setLevel_active _ hl]
    simp [loopWrite, hb]
  · refine congrArg Host.Outcome.next (State.loopStackWrite_idle hst ?_)
    rw [← Sequencer.setLevel_spare _ hl]
    simp [loopWrite, hb]
  · refine congrArg Host.Outcome.next (State.loopStackWrite_idle hst ?_)
    rw [← Sequencer.setLevel_active _ hl]
    simp [loopWrite, ha, hv, show ¬ (s.core x.val).seq.loops.length < ix.val / 2 by omega,
      show (s.core x.val).seq.loops.length ≠ ix.val / 2 by omega]
  · refine congrArg Host.Outcome.next (State.loopStackWrite_idle hst ?_)
    simp [loopWrite, ha, hv, hl]
  · refine ⟨_, congrArg Host.Outcome.next (State.loopStackWrite_idle hst (by simp [loopWrite, ha, hv]; rfl)), rfl, fun _ => ?_⟩
    simp [Sequencer.level, Store.get_set_same]
  · refine congrArg Host.Outcome.next ?_
    unfold State.loopStackWrite
    rcases h with hst | ⟨ha, hv, hl⟩
    · cases loopWrite (s.core x.val).seq (ix.val / 2) (ix.val % 2 = 0) v with
      | none => rfl
      | some p => exact if_neg (by simp [State.listWritable, hst])
    · have hnone : loopWrite (s.core x.val).seq (ix.val / 2) (ix.val % 2 = 0) v = none := by simp [loopWrite, ha, hv, hl]
      rw [hnone]

end Sys2Proof.Machine

/-!
PROOFS. Scrubs, ages, packages, splits and repair of the tiers (R251-R266, R271, R281-R285, R473, R481).
-/
namespace Sys2Proof.Machine

/-! A service flag (R492). -/

theorem State.platformEvent_regs (s : State) (i v : Nat) : (s.platformEvent i v).regs = s.regs := by
  unfold State.platformEvent
  split <;> rfl

theorem State.platformEvent_tiers (s : State) (i v : Nat) : (s.platformEvent i v).tiers = s.tiers := by
  unfold State.platformEvent
  split <;> rfl

/-- A register other than the page's error status is as it was when an error bit is set. -/
theorem State.reg_errSet {s : State} {p i q o : Nat} (h : regKey q o ≠ regKey p 0x10) : (s.errSet p i).reg q o = s.reg q o := by
  unfold State.errSet
  split
  · rfl
  · exact State.reg_setReg_ne _ _ h

/-- States with the same registers read the same. -/
theorem State.reg_congr {s t : State} (h : s.regs = t.regs) (p off : Nat) : s.reg p off = t.reg p off := by
  unfold State.reg
  rw [h]

/-- A service flag that was clear is set. -/
theorem State.service_reg {s : State} {i : Nat} (h : bit (s.reg pgFlm 0x11C) i = false) :
    (s.service i).reg pgFlm 0x11C = setFld (s.reg pgFlm 0x11C) i i 1 := by
  unfold State.service
  rw [if_neg (by rw [show s.reg 0xA 0x11C = s.reg pgFlm 0x11C from rfl, h]; decide)]
  dsimp only
  rw [State.reg_congr (State.platformEvent_regs ..), State.reg_congr (State.raise_regs ..), State.reg_errSet (by decide)]
  exact State.reg_setReg ..

theorem State.service_tiers (s : State) (i : Nat) : (s.service i).tiers = s.tiers := by
  unfold State.service
  split
  · rfl
  · dsimp only
    rw [State.platformEvent_tiers, State.raise_tiers, State.errSet_tiers, State.setRegBit_tiers]

/-! Scrubs (R481). -/

theorem State.scrubEnd_tiers (s : State) (k period : Nat) : (s.scrubEnd k period).tiers = s.tiers := by
  unfold State.scrubEnd
  dsimp only
  split
  · rw [State.service_tiers]; rfl
  · rfl

/-- A pass that ends late flags it. -/
theorem State.scrubEnd_late {s : State} {k period : Nat}
    (hl : 10 * Store.get 0 s.flm.scrubAt k + 11 * period < 10 * s.dev.time) (hb : bit (s.reg pgFlm 0x11C) 8 = false) :
    (s.scrubEnd k period).reg pgFlm 0x11C = setFld (s.reg pgFlm 0x11C) 8 8 1 := by
  unfold State.scrubEnd
  rw [if_pos hl]
  exact State.service_reg hb

/-- The state in which a scrub of a block's sector reads: the last one of a group ends its pass. -/
def State.scrubbing (s : State) (b sec : Nat) : State :=
  if sec = 15 && s.lastOfGroup b then s.scrubEnd (s.groupOf b) 86400000000000 else s

theorem State.scrubbing_tiers (s : State) (b sec : Nat) : (s.scrubbing b sec).tiers = s.tiers := by
  unfold State.scrubbing
  split
  · exact State.scrubEnd_tiers ..
  · rfl

/-- A block whose map word and sector are without error is read as it is. -/
theorem State.openBlock_good {s : State} {b : Nat} {x : SectorFault} {y : Bool} (hm : x.mapWord = false) (hs : y = false)
    (he : x.errs = []) : s.openBlock b { x with stream := y } = (.good, s) := by
  subst hs
  have hd : s.decodeSector (s.groupOf b) { x with stream := false } = (.good, s) := by
    unfold State.decodeSector
    simp [he]
  unfold State.openBlock
  dsimp only
  rw [hd, hm]
  rfl

/-- A scrub of a block that is not under repair charges one sector. -/
theorem exec_patrolScrub {b : BitVec 28} {sec : Fin 16} {x : SectorFault} {s : State}
    (hb : 4096 * b.toNat + 4096 ≤ outerSize s.dev.variant) (hr : mapRepair (s.tiers.mapOf b.toNat) = false)
    (hm : s.power.mod ≠ 3) (hx : x.mapWord = false ∧ x.stream = false ∧ x.errs = []) :
    exec (.patrolScrub b sec x) s = .next ((s.scrubbing b.toNat sec.val).charge .background b.toNat 1) := by
  obtain ⟨hmap, hstream, herrs⟩ := hx
  refine congrArg Host.Outcome.next ((if_neg (by simp [hm]; omega)).trans ?_)
  refine (if_neg ?_).trans ?_
  · exact Bool.eq_false_iff.mp ((congrArg (fun t : Tiers => mapRepair (t.mapOf b.toNat)) (State.scrubbing_tiers ..)).trans hr)
  · rw [State.openBlock_good hmap ?_ herrs]
    · rfl
    · simp [hstream]

/-- The state in which a scrub of a near-tier word reports: the last word ends the pass. -/
def State.nearScrubbing (s : State) (w : Nat) : State := if 8 * w + 8 = nearSize then s.scrubEnd 4 21600000000000 else s

theorem State.nearScrubbing_tiers (s : State) (w : Nat) : (s.nearScrubbing w).tiers = s.tiers := by
  unfold State.nearScrubbing
  split
  · exact State.scrubEnd_tiers ..
  · rfl

theorem exec_nearScrub {w : Nat} {bad : Fin 3} {s : State} (hw : 8 * w < nearSize) (hm : s.power.mod ≠ 3) :
    exec (.nearScrub w bad) s = .next (
      if bad.val = 1 then (s.nearScrubbing w).flmEvent 0 (w / 1024)
      else if bad.val = 2 then
        ((s.nearScrubbing w).scrubLost w).flmEvent 2 ((s.nearScrubbing w).siteOf (8 * w / 0x3000000))
      else s.nearScrubbing w) :=
  congrArg Host.Outcome.next (if_neg (by simp [hm]; omega))

/-- Outside a RESIDENT page a lost word is marked and nothing else changes. -/
theorem State.scrubLost_free {s : State} {w : Nat} (h : (s.tiers.page (8 * w / 0x200000)).st ≠ 2) :
    s.scrubLost w = { s with tiers := { s.tiers with nearPoison := Store.set false s.tiers.nearPoison w true } } :=
  congrArg (fun t => { s with tiers := t }) (if_neg h)

/-! Repair (R281-R284). -/

/-- A block that has arrived from a source that does not wait. -/
theorem exec_repairBlockArrive {g : Fin 4} {k : Fin 16} {block : Option (List Byte)} {b1 b2 : Bool} {s : State}
    (hst : (s.slotOf g.val k.val).st = 2) (hh : s.sourceHeld (s.repairSource g.val k.val) = false) :
    exec (.repairBlockArrive g k block b1 b2) s = .next (
      match s.sourceBlock g.val k.val (s.repairSource g.val k.val) block with
      | none => (s.chargeSource (s.repairSource g.val k.val)).repairPoison g.val k.val
      | some bs =>
        if bs.length != 4096 then s else
        let t := (s.chargeSource (s.repairSource g.val k.val)).repairWrite (s.slotOf g.val k.val).block bs
        if !b1 then t.repairDone g.val k.val
        else
          let u := t.repairWrite (s.slotOf g.val k.val).block bs
          if b2 then u.repairPoison g.val k.val else u.repairDone g.val k.val) :=
  congrArg Host.Outcome.next (if_neg (by simp [hst, hh]))

/-- Settles O33: each clause is one command's branch. -/
theorem tierServiceAndRepair : Obligations.TierServiceAndRepair := by
  intro r b sec x w g k v bs s
  dsimp only
  refine ⟨fun hb hr hm h1 h2 h3 => exec_patrolScrub hb hr hm ⟨h1, h2, h3⟩,
    fun hw hm => ⟨exec_nearScrub hw hm, exec_nearScrub hw hm, fun hp => (exec_nearScrub hw hm).trans ?_⟩,
    fun c period => State.scrubEnd_late, rfl, fun ha hl hv => ?_, fun ha hl hv => ?_, fun ha hl hv => ?_, fun ha hv hst => ?_,
    fun ha hv hst => ?_, fun hst hh hsrc hlen => ?_, fun hst hh hsrc => ?_, fun hst hlim => ?_⟩
  · exact congrArg (fun t => Host.Outcome.next (State.flmEvent t 2 ((s.nearScrubbing w).siteOf (8 * w / 0x3000000))))
      (State.scrubLost_free (s := s.nearScrubbing w) (by rw [State.nearScrubbing_tiers]; exact hp))
  · exact congrArg Host.Outcome.next ((State.onWrite_accepts _ ha).trans (if_pos (by simp [hl, hv])))
  · exact congrArg Host.Outcome.next ((State.onWrite_accepts _ ha).trans
      ((if_neg (by rw [hl]; decide)).trans (if_pos hv)))
  · exact congrArg Host.Outcome.next ((State.onWrite_accepts _ ha).trans
      ((if_neg (by rw [hl]; decide)).trans (if_neg (by rw [hv]; decide))))
  · exact congrArg Host.Outcome.next ((State.onWrite_accepts _ ha).trans (if_pos (by
      rw [hv, show (s.setReg (pgTre g) (0x20C + 16 * k.val) (v &&& 0x00FFFFFF)).slotOf g.val k.val = s.slotOf g.val k.val from rfl]
      simpa using hst)))
  · exact congrArg Host.Outcome.next ((State.onWrite_accepts _ ha).trans (if_pos (by simp [hv, hst])))
  · have arrived := fun b1 b2 => exec_repairBlockArrive (block := some bs) (b1 := b1) (b2 := b2) hst hh
    simp only [hsrc, hlen] at arrived
    exact ⟨arrived false false, arrived true false, arrived true true⟩
  · have arrived := exec_repairBlockArrive (block := none) (b1 := false) (b2 := false) hst hh
    rwa [hsrc] at arrived
  · exact congrArg Host.Outcome.next (if_pos (by simp [hst, hlim]))

end Sys2Proof.Machine

/-!
PROOFS. The Pacer and the host window's translation (R95, R96, R274-R280).
-/
namespace Sys2Proof.Machine

/-- Where every span has its bytes, keeping those that have is no choice. -/
theorem filterMap_all_some {α β γ : Type} (f : α → Option β) (g : α × β → γ) (d : β) (l : List α)
    (h : ∀ a ∈ l, (f a).isSome = true) :
    ((l.map fun a => (a, f a)).filterMap fun x => x.2.map fun y => g (x.1, y)) = l.map fun a => g (a, (f a).getD d) := by
  induction l with
  | nil => rfl
  | cons a l ih =>
    obtain ⟨b, hb⟩ := Option.isSome_iff_exists.mp (h a (.head _))
    simp only [List.map_cons, List.filterMap_cons, hb, Option.map_some, Option.getD_some]
    rw [ih fun x hx => h x (.tail _ hx)]

/-- An invalidation of one index is recorded (R96). -/
theorem State.xlatInvWrite_index {s : State} {v : Word} (h : bit v 31 = false) :
    s.xlatInvWrite v = { s with xlat := { s.xlat with busy := true, indexes := s.xlat.indexes ++ [fld v 15 0] } } := by
  unfold State.xlatInvWrite
  rw [h, Bool.or_false]
  rfl

/-- Settles O34: each clause is one command's branch. -/
theorem pacerAndHostWindow : Obligations.PacerAndHostWindow := by
  intro r i e es t0 tag v a n x data s
  refine ⟨rfl, fun hp hi hall => ?_, fun hf hd he hh => ?_, fun hw ht => ?_, fun hn ha => ?_, fun hn ha => ?_, fun ha hv => ?_,
    fun hb hall => ?_, fun hx => ⟨?_, ?_⟩⟩
  · refine congrArg Host.Outcome.next ?_
    have hpresent : ¬ (((homeSpans e.bits).map fun p => (p, s.homeBytes e.idx p)).any fun y => y.2.isNone) = true := by
      simp only [List.any_map, List.any_eq_true, Function.comp_apply, not_exists, not_and]
      intro p hp
      simpa using Option.isSome_iff_ne_none.mp (hall p hp)
    simp only [hp]
    exact (if_neg (by simp [hi])).trans ((if_neg hpresent).trans
      (congrArg (s.promoted e) (filterMap_all_some (s.homeBytes e.idx) id ([], 0) _ hall)))
  · refine congrArg Host.Outcome.next ?_
    simp only [hf]
    exact if_pos (by simp [hd, he, hh])
  · refine congrArg Host.Outcome.next ?_
    simp only [hw]
    exact if_pos ht
  · exact congrArg Host.Outcome.next ((if_neg hn).trans (if_neg (Nat.not_lt.mpr ha)))
  · exact congrArg Host.Outcome.next ((if_neg hn).trans (if_pos ha))
  · exact congrArg Host.Outcome.next ((State.onWrite_accepts _ ha).trans (State.xlatInvWrite_index hv))
  · refine congrArg Host.Outcome.next ((if_pos hb).trans ?_)
    rw [hall]
    rfl
  · refine congrArg Host.Outcome.next ?_
    simp only [hx]
  · refine congrArg Host.Outcome.next ?_
    simp only [hx]

end Sys2Proof.Machine

/-!
PROOFS. Laps and the reduction of buckets (R318-R321, R331-R340).
-/
namespace Sys2Proof.Machine

/-! Slots and launches (R318-R321). -/

theorem State.openSlot_some {s : State} {i : Nat} {x : SlotRec} (hx : s.sch.order[i]? = some x) :
    s.openSlot i = if s.heatBad (s.heatBits x.heat) then s.tableStop else s.onSch fun c =>
      { c with slot := i, isOpen := true, begun := true, launched := [], heat := s.heatBits x.heat,
               toLaunch := s.launches (s.heatBits x.heat) x.bwd } := by
  unfold State.openSlot
  simp only [hx]

/-- The first slot opens once the lap is ready and nothing mends or holds it (R340). -/
theorem exec_slotOpen_first {s : State} (hon : s.schOn = true) (hf : s.sch.faulted = false) (hw : s.sch.withdrawn = false)
    (hr : s.sch.ready = true) (hb : s.sch.begun = false) (hm : s.mending = false) (hc : s.hvu.toCompare = [])
    (hh : s.flm.hold = false) : exec .slotOpen s = .next (s.openSlot 0) :=
  congrArg Host.Outcome.next ((if_neg (by simp [hon, hf, hw, hr])).trans
    ((if_pos (by simp [hb])).trans (if_neg (by simp [hm, hc, hh]))))

/-- The next slot opens once the open one is done (R318). -/
theorem exec_slotOpen_next {s : State} (hon : s.schOn = true) (hf : s.sch.faulted = false) (hw : s.sch.withdrawn = false)
    (hr : s.sch.ready = true) (hb : s.sch.begun = true) (hd : s.slotDone = true) :
    exec .slotOpen s = .next (s.openSlot (s.sch.slot + 1)) :=
  congrArg Host.Outcome.next ((if_neg (by simp [hon, hf, hw, hr])).trans ((if_neg (by simp [hb])).trans (if_pos hd)))

/-! The end of a lap (R337, R338). -/

theorem exec_lapDoneSend {s : State} (hon : s.schOn = true) (hf : s.sch.faulted = false) (hw : s.sch.lapwait = false)
    (hl : s.lapDone = true) (hc : s.childrenDone = true) (hh : s.flm.hold = false) :
    exec .lapDoneSend s = .next (if bit (s.reg pgSch 0x13C) 31 then
      let x := s.epochDue
      let t := x.2.lapGo ((s.ctxEpoch s.schCtx + x.1.toNat) % 256)
      t.takeHeld t.sch.held.length else s.tellParent) :=
  congrArg Host.Outcome.next (if_neg (by simp [hon, hf, hw, hl, hc, hh]))

theorem State.epochDue_wanted {s : State} (h : s.wantsEpoch = true) : s.epochDue = (true, s) := if_pos h

theorem State.epochDue_alone {s : State} (h : s.wantsEpoch = false) (hc : s.sch.children = []) : s.epochDue = (false, s) := by
  unfold State.epochDue
  rw [if_neg (by rw [h]; decide), if_pos hc]

theorem State.epochDue_drawn {s : State} (h : s.wantsEpoch = false) (hc : s.sch.children ≠ []) :
    s.epochDue = (bit s.draw.1 0, { s with free := s.free + 1 }) := by
  unfold State.epochDue
  rw [if_neg (by rw [h]; decide), if_neg hc]
  rfl

/-- A withdrawal that is the first of its lap (R335). -/
theorem State.withdraw_first {s : State} (hw : s.sch.withdrawn = false) :
    s.withdraw = if s.hvuOn then
      (List.range s.bktCount).foldl State.withdrawBucket (s.onSch fun c => { c with withdrawn := true, toLaunch := [] })
    else s.onSch fun c => { c with withdrawn := true, toLaunch := [] } := by
  unfold State.withdraw
  rw [if_neg (by rw [hw]; decide)]

/-- Settles O37: each clause is one branch of the SCH's commands. -/
theorem lapsAdvance : Obligations.LapsAdvance := by
  intro r v lc l x s
  dsimp only
  have withdrawn : ∀ {t : State}, s.accepts r pgSch 0x140 = true → bit v 0 = true → s.schOn = true → s.withdraw = t →
      exec (.schCmdWithdraw r v) s = .next t := fun ha hv hon ht =>
    congrArg Host.Outcome.next ((State.onWrite_accepts _ ha).trans ((if_pos (by simp [hv, hon])).trans ht))
  refine ⟨fun ha he hv => ?_, fun ha he hv => ?_, fun ha he hv => ?_,
    fun hon hf hw hr hb hm hc hh hx => ?_, fun hon hf hw hr hb hd hx hbad => ?_, fun hl hx hon ho hup hst => ?_,
    fun hon hf hw hl hc hh hroot => ?_, fun hon hf hw hl hc hh hroot => ?_, fun ha hv hon hw hh => ?_,
    fun ha hv hon hw hh => ?_⟩
  · exact congrArg Host.Outcome.next ((State.onWrite_accepts _ ha).trans
      ((if_neg (by rw [he]; decide)).trans (if_neg (by rw [hv]; decide))))
  · exact congrArg Host.Outcome.next ((State.onWrite_accepts _ ha).trans ((if_neg (by rw [he]; decide)).trans (if_pos hv)))
  · exact congrArg Host.Outcome.next ((State.onWrite_accepts _ ha).trans
      ((if_pos he).trans (if_neg (by rw [hv]; decide))))
  · rw [exec_slotOpen_first hon hf hw hr hb hm hc hh, State.openSlot_some hx]
    exact ⟨fun h => by rw [if_pos h]; rfl, fun h => by rw [if_neg (by rw [h]; decide)]⟩
  · rw [exec_slotOpen_next hon hf hw hr hb hd, State.openSlot_some hx, if_neg (by rw [hbad]; decide)]
  · refine congrArg Host.Outcome.next ?_
    simp only [hl, hx]
    exact if_pos (by simpa [hon, ho, hup] using hst)
  · rw [exec_lapDoneSend hon hf hw hl hc hh, if_neg (by rw [hroot]; decide)]
    rfl
  · rw [exec_lapDoneSend hon hf hw hl hc hh, if_pos hroot]
    refine ⟨fun he => ?_, fun he hch => ?_, fun he hch => ?_⟩
    · rw [State.epochDue_wanted he]
      rfl
    · rw [State.epochDue_alone he hch]
      rfl
    · rw [State.epochDue_drawn he hch]
      exact ⟨(bit s.draw.1 0).toNat, Bool.toNat_le _, rfl⟩
  · exact withdrawn ha hv hon ((State.withdraw_first hw).trans (if_neg (by rw [hh]; decide)))
  · exact withdrawn ha hv hon ((State.withdraw_first hw).trans (if_pos hh))

/-! Buckets (R331-R334). -/

/-- A local part that a core handed over, once taken. -/
theorem exec_bktLocal {b : BitVec 12} {cnt : BitVec 16} {s : State} (hon : s.schOn = true) (hh : s.hvuOn = true)
    (hl : s.sch.locals.contains (b.toNat, cnt.toNat) = true) :
    exec (.bktLocal b cnt) s = .next (
      let u := s.onSch fun c => { c with locals := c.locals.erase (b.toNat, cnt.toNat) }
      let r := s.red b.toNat
      if Rd.isLocal r || Rd.wd r then u
      else
        let own := (cnt.toNat + Rd.carried r) % 65536
        let s1 := u.putRedFlags b.toNat own (Rd.carried r) false (Rd.closed r) true
        let s2 := if Rd.closed r then s1 else
          (s1.redSetBit b.toNat 2 (Bk.rank (s.bucket b.toNat))).onBkt b.toNat fun x =>
            { x with counts := x.counts ++ [(Bk.rank (s.bucket b.toNat), own)] }
        ((others (s.bucket b.toNat)).foldl (fun s j => s.sendShard b.toNat j)
          (s2.onBkt b.toNat fun x => { x with start := some s.dev.time })).tryClose b.toNat) :=
  congrArg Host.Outcome.next (if_neg (by rw [hon, hh, hl]; decide))

theorem exec_reducePassDone {b : BitVec 12} {s : State} (hn : s.nextPass = some b.toNat) (hh : s.hvuOn = true)
    (hs : s.hvu.seeding = false)
    (hr : (s.reduceReads (s.bucket b.toNat) b.toNat).any (fun x => s.tiers.repairing x.1 x.2) = false) :
    exec (.reducePassDone b) s = .next (s.reducePass b.toNat) := by
  refine congrArg Host.Outcome.next ?_
  simp only [hn]
  exact if_pos (by simp only [hh, hs, hr]; decide)

theorem State.reducePass_good {s : State} {b : Nat} (h : s.reduceFault b (s.bucket b) = none) :
    s.reducePass b = (s.onHvu fun h => { h with reduceQ := h.reduceQ.filter (· != b) }).sumReduction b (s.bucket b) := by
  unfold State.reducePass
  dsimp only
  rw [h]
  simp only [State.unlessFault, Option.isSome_none, Bool.false_eq_true, if_false, List.append_nil]

theorem State.reducePass_fault {s : State} {b f : Nat} (h : s.reduceFault b (s.bucket b) = some f) :
    s.reducePass b = ((s.onHvu fun h => { h with reduceQ := h.reduceQ.filter (· != b) }).onHvu
      fun h => { h with reduceQ := h.reduceQ ++ [b] }).bucketFault b f := by
  unfold State.reducePass
  dsimp only
  rw [h]
  rfl

/-- The deadline of a reduction that is still open has passed (R332). -/
theorem exec_reduceDeadline {b : BitVec 12} {t : Nat} {s : State} (hst : (s.bkt b.toNat).start = some t) (hon : s.schOn = true)
    (hh : s.hvuOn = true) (hus : fld (s.reg pgSch 0x134) 23 0 ≠ 0) (hc : Rd.closed (s.red b.toNat) = false)
    (ht : t + 1000 * fld (s.reg pgSch 0x134) 23 0 ≤ s.dev.time) :
    exec (.reduceDeadline b) s = .next (s.closeBucket b.toNat true) := by
  refine congrArg Host.Outcome.next ?_
  simp only [hst]
  exact if_pos (by simp [hon, hh, hus, hc, ht])

/-- Settles O38: each clause is one branch of the reduction. -/
theorem bucketsReduce : Obligations.BucketsReduce := by
  intro b o cnt t s
  dsimp only
  refine ⟨fun hon hh hl hr => ?_, fun hon hh hl hloc hwd => ⟨fun hc => ?_, fun hc => ?_⟩,
    fun hon hh hb hloc hwd ho hs ht => ?_, fun hst hon hh hus hc ht => ?_, fun hn hh hs hr => ⟨fun hf => ?_, fun f hf => ?_⟩⟩
  · exact (exec_bktLocal hon hh hl).trans (congrArg Host.Outcome.next (if_pos (Bool.or_eq_true_iff.mpr hr)))
  · refine (exec_bktLocal hon hh hl).trans (congrArg Host.Outcome.next ((if_neg (by simp [hloc, hwd])).trans ?_))
    dsimp only
    rw [if_pos hc]
  · refine (exec_bktLocal hon hh hl).trans (congrArg Host.Outcome.next ((if_neg (by simp [hloc, hwd])).trans ?_))
    dsimp only
    rw [if_neg (by rw [hc]; decide)]
  · exact congrArg Host.Outcome.next (if_pos (by simp only [hon, hh, hb, hloc, hwd, ho, hs, ht]; decide))
  · rw [exec_reduceDeadline hst hon hh hus hc ht]
    unfold State.closeBucket
    dsimp only
    rw [if_pos rfl]
  · rw [exec_reducePassDone hn hh hs hr, State.reducePass_good hf]
  · rw [exec_reducePassDone hn hh hs hr, State.reducePass_fault hf]

end Sys2Proof.Machine

/-!
PROOFS. The harvest of a bucket step by step (R291, R294-R303).
-/
namespace Sys2Proof.Machine

/-! The passes (R301). -/

theorem State.unlessFault_none (s : State) (b : Nat) (t : State) : s.unlessFault b none t = t := rfl

theorem State.unlessFault_some (s : State) (b f : Nat) (t : State) : s.unlessFault b (some f) t = s.bucketFault b f := rfl

theorem exec_hvuPasses {j : HvuJob} {s : State} (hj : s.hvu.job = some j) (hon : s.hvuOn = true) (hp : j.phase = 3)
    (hi : j.interrupted = false) (hh : s.updateHeld (s.bucket j.bucket) j.spare = false) :
    exec .hvuPasses s = .next (s.passesOf j (s.bucket j.bucket)) := by
  refine congrArg Host.Outcome.next ?_
  simp only [hj]
  exact if_pos (by simp [hon, hp, hi, hh])

theorem State.passesOf_good {s : State} {j : HvuJob} {d : Bucket} (hf : s.updateFault j.bucket d j.spare = none)
    (hb : (s.passOuts d).any (·.2.bad) = false) : s.passesOf j d =
      (s.writePasses j.bucket d j.spare (s.passOuts d)).finishPasses j (s.anyHvu j.bucket d)
        ((s.passOuts d).foldl (fun t x => t.join x.2.shared) (optParams d).2) := by
  unfold State.passesOf
  rw [hf, hb]
  exact State.unlessFault_none ..

theorem State.passesOf_bad {s : State} {j : HvuJob} {d : Bucket} (hf : s.updateFault j.bucket d j.spare = none)
    (hb : (s.passOuts d).any (·.2.bad) = true) : s.passesOf j d = s.bucketFault j.bucket 8 := by
  unfold State.passesOf
  rw [hf, hb]
  exact State.unlessFault_some ..

/-! Steps 1 and 4 to 6 of R301. -/

/-- A bucket that has not committed in this lap begins with its verdict. -/
theorem State.startBucket_fresh {s : State} {b : Nat} (hf : s.tablesFault b (s.bucket b) = none)
    (hl : Bk.lap (s.bucket b) ≠ s.lap) : s.startBucket b =
      ((((s.chargeTables b (s.bucket b)).setJob (some ⟨b, 1, 0, false⟩)).stepState b 2 0).sendVerdict b).verdictStep := by
  unfold State.startBucket
  dsimp only
  rw [hf, if_neg hl, State.unlessFault_none]

theorem exec_hvuVerdictStart {b : Nat} {rest : List Nat} {s : State} (hj : s.hvu.job = none) (hq : s.hvu.queue = b :: rest)
    (hon : s.hvuOn = true) :
    exec .hvuVerdictStart s = .next ((s.onHvu fun h => { h with queue := rest }).startBucket b) := by
  refine congrArg Host.Outcome.next ?_
  simp only [hj, hq]
  exact if_neg (by rw [hon]; decide)

theorem exec_hvuDone {j : HvuJob} {s : State} (hj : s.hvu.job = some j) (hon : s.hvuOn = true) (hp : 5 ≤ j.phase)
    (hi : j.interrupted = false) (hm : s.mirroring j.bucket = false) :
    exec .hvuDone s = .next (if j.phase = 5 then s.stampBuddy j
      else if s.txns.any (fun t => match t.client with | .gather c _ => c = j.bucket | _ => false) then s
      else ((s.stepState j.bucket 5 0).setJob none).snapCheck) := by
  refine congrArg Host.Outcome.next ?_
  simp only [hj]
  exact (if_pos (by simp [hon, hp, hi])).trans (if_neg (by rw [hm]; decide))

/-! `REQUEUE` and `ABANDON` (R303). -/

/-- A command for a bucket that the unit holds. -/
theorem exec_hvuCmd {r : Requester} {v : Word} {s : State} (ha : s.accepts r pHvu 0x128 = true) (hon : s.hvuOn = true)
    (hb : fld v 11 0 < s.bktCount) :
    (fld v 31 30 = 1 → exec (.requeue r v) s = .next (s.requeue (fld v 11 0))) ∧
      (fld v 31 30 = 2 → exec (.hvuAbandon r v) s = .next (s.abandonBucket (fld v 11 0))) := by
  have hin : ¬ (!s.hvuOn || decide (s.bktCount ≤ fld v 11 0)) = true := by simp [hon]; omega
  exact ⟨fun h => congrArg Host.Outcome.next ((State.onWrite_accepts _ ha).trans ((if_neg hin).trans (if_pos h))),
    fun h => congrArg Host.Outcome.next ((State.onWrite_accepts _ ha).trans
      ((if_neg hin).trans ((if_neg (by omega)).trans (if_pos h))))⟩

theorem State.requeue_fault {s : State} {b : Nat} (hj : s.hvu.job = none) (hs : Bk.state (s.bucket b) = 6)
    (hq : s.hvu.reduceQ.contains b = false) :
    s.requeue b = (s.stepState b 1 0).onHvu fun h => { h with queue := h.queue ++ [b] } := by
  unfold State.requeue
  simp only [hj]
  exact (if_neg (by rw [hs]; decide)).trans (if_neg (by rw [hq]; decide))

theorem State.requeue_interrupted {s : State} {j : HvuJob} (hj : s.hvu.job = some j) (hi : j.interrupted = true)
    (hp : j.phase = 3 ∨ j.phase = 4) : s.requeue j.bucket = s.setJob (some { j with phase := 3, interrupted := false }) := by
  simp [State.requeue, hj, hi, show j.phase ≠ 1 by omega, show j.phase ≤ 4 by omega]

theorem State.abandonBucket_fault {s : State} {b : Nat} (hj : s.hvu.job = none) (hs : Bk.state (s.bucket b) = 6)
    (hp : (s.heldSpare b).isSome = true) (hm : s.masterBad b = false) : s.abandonBucket b = s.rewriteW b := by
  unfold State.abandonBucket
  simp only [hj]
  exact if_pos (by simp [hs, hp, hm])

theorem State.abandonBucket_interrupted {s : State} {j : HvuJob} (hj : s.hvu.job = some j) (hi : j.interrupted = true)
    (hp : j.phase = 3 ∨ j.phase = 4) (hm : s.masterBad j.bucket = false) :
    s.abandonBucket j.bucket = (s.rewriteW j.bucket).bucketFault j.bucket 0 := by
  have hrange : (decide (3 ≤ j.phase) && decide (j.phase ≤ 4)) = true := by
    rw [Bool.and_eq_true, decide_eq_true_eq, decide_eq_true_eq]
    omega
  unfold State.abandonBucket
  simp only [hj]
  rw [if_neg (by simp), if_neg (by rw [hi]; decide), hrange, hm]
  rfl

/-- Settles O39: each clause is one step of the unit. -/
theorem harvestSteps : Obligations.HarvestSteps := by
  intro r v b rest j s
  dsimp only
  refine ⟨fun ha he hv hb => ?_, fun ha he hv hb => ?_, fun ha he hv => ?_, fun hj hq hon hf hl => ?_,
    fun hj hon hp hi hh hf => ⟨fun hb => ?_, fun hb => ?_⟩, fun hj hon hp hi => ?_, fun hj hon hp hi hm => ?_,
    fun hj hon hp hi hm ht => ?_, fun ha hon hb => ?_⟩
  · exact congrArg Host.Outcome.next ((State.onWrite_accepts _ ha).trans ((if_neg (by rw [he]; decide)).trans
      ((if_neg (by rw [hv]; decide)).trans (if_neg (Bool.eq_false_iff.mp hb)))))
  · exact congrArg Host.Outcome.next ((State.onWrite_accepts _ ha).trans ((if_neg (by rw [he]; decide)).trans
      ((if_neg (by rw [hv]; decide)).trans (if_pos hb))))
  · exact congrArg Host.Outcome.next ((State.onWrite_accepts _ ha).trans ((if_pos he).trans (if_neg (by rw [hv]; decide))))
  · exact (exec_hvuVerdictStart hj hq hon).trans (congrArg Host.Outcome.next
      (State.startBucket_fresh (s := s.onHvu fun h => { h with queue := rest }) hf hl))
  · exact (exec_hvuPasses hj hon hp hi hh).trans (congrArg Host.Outcome.next (State.passesOf_good hf hb))
  · exact (exec_hvuPasses hj hon hp hi hh).trans (congrArg Host.Outcome.next (State.passesOf_bad hf hb))
  · refine congrArg Host.Outcome.next ?_
    simp only [hj]
    exact if_pos (by simp [hon, hp, hi])
  · exact (exec_hvuDone hj hon (by omega) hi hm).trans (congrArg Host.Outcome.next (if_pos hp))
  · exact (exec_hvuDone hj hon (by omega) hi hm).trans (congrArg Host.Outcome.next
      ((if_neg (by omega)).trans (if_neg (Bool.eq_false_iff.mp ht))))
  · obtain ⟨hreq, hab⟩ := exec_hvuCmd ha hon hb
    refine ⟨fun hop => ⟨fun hj hs hq => ?_, fun hj hbk hi hp => ?_⟩, fun hop => ⟨fun hj hs hp hm => ?_, fun hj hbk hi hp hm => ?_⟩⟩
    · rw [hreq hop, State.requeue_fault hj hs hq]
    · rw [hreq hop, ← hbk, State.requeue_interrupted hj hi hp]
    · rw [hab hop, State.abandonBucket_fault hj hs hp hm]
    · rw [hab hop, ← hbk, State.abandonBucket_interrupted hj hi hp (hbk ▸ hm)]

end Sys2Proof.Machine

/-!
PROOFS. The media decoder, the sensor aligner and the staging buffer (R370-R388).
-/
namespace Sys2Proof.Machine

/-! Pushes (R372, R383). -/

theorem State.mdePushAt_room {s : State} {a : Nat} (h : s.input.jobs.length < 32) : s.mdePushAt a =
    match s.jobCtx a 128 with
    | none => s.jobFault pgMde 2 s.input.jobs.length none (.plain .contextViolation)
    | some c => s.mdeTake (bitsOf 1024 (s.tiers.localBytes a 128)) c := if_neg (by omega)

theorem State.sauPushAt_room {s : State} {a : Nat} (h : s.input.sau.length < 32) : s.sauPushAt a =
    match s.jobCtx a 96 with
    | none => s.jobFault pgSau 1 s.input.sau.length none (.plain .contextViolation)
    | some c => s.sauTake (bitsOf 768 (s.tiers.localBytes a 96)) c := if_neg (by omega)

/-- The address that a push of the SAU names. -/
def State.sauAddr (s : State) (v : Word) : Nat := fld v 12 0 * 2 ^ 32 + (s.reg pgSau 0x110).toNat

/-- The address that a push of the MDE names. -/
def State.mdeAddr (s : State) (v : Word) : Nat := fld v 12 0 * 2 ^ 32 + (s.reg pgMde 0x110).toNat

theorem exec_mdeJobPush {r : Requester} {v : Word} {s : State} (h : s.accepts r pgMde 0x114 = true) :
    exec (.mdeJobPush r v) s = .next (s.mdePushAt (s.mdeAddr v)) := congrArg Host.Outcome.next (State.onWrite_accepts _ h)

theorem exec_sauJobPush {r : Requester} {v : Word} {s : State} (h : s.accepts r pgSau 0x114 = true) :
    exec (.sauJobPush r v) s = .next (s.sauPushAt (s.sauAddr v)) := congrArg Host.Outcome.next (State.onWrite_accepts _ h)

/-! Decodes (R374-R377). -/

theorem exec_mdeDecodeDone {pipe : Fin 16} {ok : Bool} {px : List Byte} {p : MdePipe} {j : MdeJob} {t : Attempt} {s : State}
    (h : s.pipeAttempt pipe.val = some (p, j, t)) :
    exec (.mdeDecodeDone pipe ok px) s = .next (s.decodeDone pipe.val p j t ok px) := by
  refine congrArg Host.Outcome.next ?_
  simp only [h]

/-- Settles O41: each clause is one command's branch. -/
theorem inputUnits : Obligations.InputUnits := by
  intro r v pipe pos h px j js p t q qs c s
  dsimp only
  rw [← State.mdeAddr, ← State.sauAddr]
  refine ⟨fun ha hn hc => ?_, fun ha hn => ?_, fun ha hn hc => ?_, fun ha hn hc => ?_, fun hm hp he hf hw => ?_, fun ht hl => ?_,
    fun ht hl hpx => ?_, fun ht hl => ?_, fun hj hm he => ?_, fun hj hm he => ?_, fun ha hv hr ho => ?_, fun ha hv ho => ?_,
    fun ha hv ho => ?_, fun hr hu => ?_⟩
  · rw [exec_mdeJobPush ha, State.mdePushAt_room hn, hc]
  · rw [exec_mdeJobPush ha]
    exact congrArg Host.Outcome.next (if_pos hn)
  · rw [exec_sauJobPush ha, State.sauPushAt_room hn, hc]
  · rw [exec_sauJobPush ha, State.sauPushAt_room hn, hc]
  · refine congrArg Host.Outcome.next ((if_neg (by simp [State.regsUp_active s hm, hp, he, hf])).trans ?_)
    simp only [hw]
    exact if_pos trivial
  · rw [exec_mdeDecodeDone ht]
    exact congrArg Host.Outcome.next ((if_neg (by rw [hl]; decide)).trans (if_pos (by simp)))
  · rw [exec_mdeDecodeDone ht]
    exact congrArg Host.Outcome.next ((if_neg (by rw [hl]; decide)).trans (if_neg (by simpa using hpx)))
  · refine congrArg Host.Outcome.next ?_
    simp only [ht]
    exact if_pos hl
  · refine congrArg Host.Outcome.next ?_
    simp only [hj]
    exact if_pos (by rw [State.regsUp_active s hm, he]; rfl)
  · refine congrArg Host.Outcome.next ?_
    simp only [hj]
    exact if_pos (by rw [State.regsUp_active s hm, he]; rfl)
  · refine congrArg Host.Outcome.next ((State.onWrite_accepts _ ha).trans ((if_pos hv).trans (if_neg ?_)))
    rcases ho with ho | ho <;> simp [hr, ho]
  · exact congrArg Host.Outcome.next ((State.onWrite_accepts _ ha).trans ((if_pos hv).trans (if_pos (by simp [ho]))))
  · exact congrArg Host.Outcome.next ((State.onWrite_accepts _ ha).trans ((if_neg (by rw [hv]; decide)).trans (if_pos ho)))
  · exact congrArg Host.Outcome.next (if_pos (by rw [hr, hu]; rfl))

end Sys2Proof.Machine

/-!
PROOFS. What an arriving packet does (R397, R398, R401, R402, R410-R412).
-/
namespace Sys2Proof.Machine

/-- The commands of the packets are rows of one function, each for its own type. -/
theorem exec_rowPacket {i : Instr} {n p : Nat} {k : Packet} {s : State} (h : rowPacket i = some (n, p, k)) :
    1 ≤ n ∧ n ≤ 13 ∧ exec i s = .next (s.packetRow n p k) := by
  cases i <;> cases h <;> exact ⟨by decide, by decide, rfl⟩

/-- The command of a packet's own type. -/
theorem exec_packet {i : Instr} {p : Nat} {k : Packet} {s : State} (h : rowPacket i = some (k.type.toNat, p, k)) :
    k.type.toNat ≠ 0 ∧ k.type.toNat ≠ 0x10 ∧ exec i s = .next (s.packetArrive p k) := by
  obtain ⟨h1, h13, hexec⟩ := exec_rowPacket (s := s) h
  exact ⟨by omega, by omega, hexec.trans (congrArg Host.Outcome.next (if_pos rfl))⟩

/-- The port once it has taken the credits that the packet carries (R401, R461). -/
def State.credited (s : State) (p : Nat) (k : Packet) : State := (s.stir p k).takeCredits p k

/-- A type of a packet, by its number. -/
theorem Packet.type_ne {k : Packet} {n : Nat} {x : BitVec 5} (h : k.type.toNat ≠ n) (hx : x.toNat = n) : k.type ≠ x := by
  rintro rfl
  exact h hx

section
variable {s : State} {p : Nat} {k : Packet}

theorem State.packetArrive_badHeader (hp : s.portActive p = true) (h0 : k.type ≠ 0) (hc : k.hcrcOk = false) :
    s.packetArrive p k = ((s.countReg (pgFl p) 0x11C 1).errSet (pgFl p) 3).setPort p
      { ((s.countReg (pgFl p) 0x11C 1).errSet (pgFl p) 3).port p with nacking := true } :=
  (if_neg (by rw [hp]; simpa using h0)).trans (if_pos (by rw [hc]; rfl))

/-- A packet of a good header, by its form, its destination and what waits. -/
theorem State.packetArrive_good (hp : s.portActive p = true) (h0 : k.type ≠ 0) (h16 : k.type ≠ 0x10) (hc : k.hcrcOk = true) :
    s.packetArrive p k =
      if !packetAllowed k then
        (((s.credited p k).countReg (pgFl p) 0x11C 1).errSet (pgFl p) 3).owe p (packetLane k) (packetCost k)
      else if k.type = 1 then (s.credited p k).serveReady
      else if k.dst.toNat != (s.credited p k).ownId then ((s.credited p k).forward p k).owe p (packetLane k) (packetCost k)
      else if k.vc = 0 && ((s.credited p k).links.stalled.any (·.1 = p) || (s.credited p k).responseHeld k.src.toNat) then
        { s.credited p k with links :=
          { (s.credited p k).links with stalled := (s.credited p k).links.stalled ++ [(p, k)] } }
      else (((s.credited p k).consumePacket k).owe p (packetLane k) (packetCost k)).serveReady := by
  refine (if_neg (by rw [hp]; simpa using h0)).trans ((if_neg (by rw [hc]; decide)).trans ?_)
  dsimp only
  rw [if_neg h16]
  rfl

/-- What a request or write data do, by their type (R399). -/
theorem State.consumePacket_request :
    (k.type = 2 → s.consumePacket k = s.serveFar k k.addr.toNat (if k.len = 0 then 4096 else 64 * k.len.toNat) none) ∧
      (k.type = 5 → s.consumePacket k = s.takeWriteData k false false) ∧
      (k.type = 6 → s.consumePacket k = s.takeWriteData k true false) ∧
      (k.type = 7 → s.consumePacket k = s.takeWriteData k false true) ∧
      (k.type = 8 → s.consumePacket k = s.takeWriteData k true true) ∧
      (k.type = 0xB → s.consumePacket k = s.serveReg k false) ∧ (k.type = 0xC → s.consumePacket k = s.serveReg k true) := by
  unfold State.consumePacket
  exact ⟨fun h => by rw [h]; rfl, fun h => by rw [h]; rfl, fun h => by rw [h]; rfl, fun h => by rw [h]; rfl,
    fun h => by rw [h]; rfl, fun h => by rw [h]; rfl, fun h => by rw [h]; rfl⟩

/-- What a response to transaction x does, by its type (R398). -/
theorem State.consumePacket_response {x : Txn} (hx : s.asked k = some x) :
    (k.type = 3 → x.write = false → s.consumePacket k = s.takeBytes x.tag k.addr.toNat k.data) ∧
      (k.type = 4 → x.write = false → s.consumePacket k = s.takePacked x k.addr.toNat k.data) ∧
      (k.type = 9 → x.write = true → s.consumePacket k = s.takeAckPacket x (fld k.addr 7 0)) ∧
      (k.type = 0xA → x.write = false → s.consumePacket k =
        (s.onTxn x.tag fun u => { u with done := true, status := fld k.addr 7 0 }).ended x.tag) ∧
      (k.type = 0xD → x.write = false → s.consumePacket k =
        (s.onTxn x.tag fun u => { u with parts := [(u.addr, k.data.take 4)], done := true }).ended x.tag) := by
  unfold State.consumePacket State.takeResponse
  refine ⟨fun h hw => ?_, fun h hw => ?_, fun h hw => ?_, fun h hw => ?_, fun h hw => ?_⟩ <;> simp [h, hx, hw]

end

/-- Settles O42: the form, the destination and what waits choose the branch; the type what is done. -/
theorem packetsArrive : Obligations.PacketsArrive := by
  intro i p k s hi hp
  obtain ⟨hn0, hn16, hexec⟩ := exec_packet (s := s) hi
  have h0 : k.type ≠ 0 := Packet.type_ne hn0 rfl
  have h16 : k.type ≠ 0x10 := Packet.type_ne hn16 rfl
  dsimp only
  rw [hexec, ← State.credited]
  refine ⟨fun hc => ?_, fun hc hf => ?_, fun hc hf h1 => ?_, fun hc hf h1 hd => ?_, fun hc hf h1 hd hv hh => ?_,
    fun hc hf hd hv => ?_⟩
  · rw [State.packetArrive_badHeader hp h0 hc]
  · rw [State.packetArrive_good hp h0 h16 hc, if_pos (by rw [hf]; rfl)]
  · rw [State.packetArrive_good hp h0 h16 hc, if_neg (by rw [hf]; decide), if_pos h1]
  · rw [State.packetArrive_good hp h0 h16 hc, if_neg (by rw [hf]; decide), if_neg h1, if_pos (by simpa using hd)]
  · rw [State.packetArrive_good hp h0 h16 hc, if_neg (by rw [hf]; decide), if_neg h1, if_neg (by simpa using hd),
      if_pos (by rw [hh, hv]; rfl)]
  · have consumed : ∀ {u : State}, k.type ≠ 1 → (s.credited p k).consumePacket k = u →
        Host.Outcome.next (s.packetArrive p k) =
          (.next ((u.owe p (packetLane k) (packetCost k)).serveReady) : Host.Outcome State Fault Refusal) := fun h1 hu => by
      rw [State.packetArrive_good hp h0 h16 hc, if_neg (by rw [hf]; decide), if_neg h1, if_neg (by simpa using hd),
        if_neg ?_, hu]
      rw [Bool.and_eq_true, decide_eq_true_eq]
      rintro ⟨hv0, hh⟩
      exact hv.elim (fun h => h hv0) fun h => by rw [h] at hh; exact Bool.false_ne_true hh
    obtain ⟨h2, h5, h6, h7, h8, hB, hC⟩ := State.consumePacket_request (s := s.credited p k) (k := k)
    refine ⟨fun h => consumed (by rw [h]; decide) (h2 h), fun h => consumed (by rw [h]; decide) (h5 h),
      fun h => consumed (by rw [h]; decide) (h6 h), fun h => consumed (by rw [h]; decide) (h7 h),
      fun h => consumed (by rw [h]; decide) (h8 h), fun h => consumed (by rw [h]; decide) (hB h),
      fun h => consumed (by rw [h]; decide) (hC h), fun x hx => ?_⟩
    obtain ⟨h3, h4, h9, hA, hD⟩ := State.consumePacket_response hx
    exact ⟨fun h hw => consumed (by rw [h]; decide) (h3 h hw), fun h hw => consumed (by rw [h]; decide) (h4 h hw),
      fun h hw => consumed (by rw [h]; decide) (h9 h hw), fun h hw => consumed (by rw [h]; decide) (hA h hw),
      fun h hw => consumed (by rw [h]; decide) (hD h hw)⟩

end Sys2Proof.Machine

/-!
PROOFS. Submission lists and the entries of runs (R425-R432, R443, R365, R532).
-/
namespace Sys2Proof.Machine

/-! Submission lists (R425, R443). -/

theorem State.subqMay_of {s : State} {r : Requester} (h : r ≠ .host ∨ s.dev.anchor = true) : s.subqMay r = true := by
  unfold State.subqMay
  rcases h with h | h <;> simp [h]

theorem exec_devSubqCfgWrite {r : Requester} {k : Fin 8} {v : Word} {s : State} (ha : s.accepts r 0 (subqOff k.val 2) = true)
    (hm : r ≠ .host ∨ s.dev.anchor = true) : exec (.devSubqCfgWrite r k v) s = .next (
      if s.subqOn k.val then (if bit v 31 then s else
        { s.setRegBit 0 (subqOff k.val 2) 31 false with ctl := { s.ctl with watch := s.ctl.watch.filter (· != k.val) } })
      else if !bit v 31 then s.setReg 0 (subqOff k.val 2) (v &&& 0x1FFF)
      else if [16, 32, 64, 128, 256, 512, 1024, 2048, 4096].contains (fld v 12 0) &&
          s.subqBase k.val + 512 * fld v 12 0 ≤ outerSize s.dev.variant then
        (s.setReg 0 (subqOff k.val 2) (v &&& 0x80001FFF)).setReg 0 (subqOff k.val 3) 0
      else (s.errSet 0 0).errCount 0 1) :=
  congrArg Host.Outcome.next ((State.onWrite_accepts _ ha).trans (if_neg (by rw [State.subqMay_of hm]; decide)))

/-! RUN entries (R430). -/

/-- The entry that firmware reads next in list k. -/
theorem exec_run {k : Fin 8} {h : Header} {s : State} (hh : s.header k.val = some h) (hk : ¬ (2 ≤ Hd.kind h ∧ Hd.kind h ≤ 4)) :
    exec (.run k) s = .next (s.runEntry k.val h) := by
  refine congrArg Host.Outcome.next ?_
  simp only [hh]
  exact if_neg (by simpa using hk)

/-- A record without a GROUP item is checked as it stands. -/
theorem State.recordItems_single {s : State} {addr : Nat} {h : Header}
    (hg : ((s.items addr h).any fun x => x.type = 0x0F) = false) :
    (s.recordItems addr h).1 = false ∧ (s.recordItems addr h).2.1 = s.items addr h := by
  unfold State.recordItems
  dsimp only
  rw [hg]
  exact ⟨rfl, rfl⟩

/-- The check of a well-formed record without a GROUP item on the anchor, and what follows it. -/
theorem State.runEntry_single {s : State} {k : Nat} {h : Header} (hk : Hd.kind h = 1) (hb : s.headerBad h = false)
    (ha : s.dev.anchor = true) (hg : ((s.items (s.entryAddr k (s.nextEntry k)) h).any fun x => x.type = 0x0F) = false) :
    ∃ ds, s.runEntry k h = s.afterCheck k (s.entryAddr k (s.nextEntry k)) false
      (s.launchesOf (s.items (s.entryAddr k (s.nextEntry k)) h)) (s.items (s.entryAddr k (s.nextEntry k)) h) ds
      ((s.consume k).checkRun none k (s.entryAddr k (s.nextEntry k)) h (s.items (s.entryAddr k (s.nextEntry k)) h)) := by
  obtain ⟨hgood, hitems⟩ := State.recordItems_single hg
  refine ⟨(s.recordItems (s.entryAddr k (s.nextEntry k)) h).2.2, ?_⟩
  unfold State.runEntry
  dsimp only
  rw [if_neg (by simp [hk, hb]), hgood, hitems, hg, if_pos ha]
  rfl

/-- Settles O46: a list register's write by its state, and a RUN entry by what its check gives. -/
theorem runEntriesAreCheckedAndSetUp : Obligations.RunEntriesAreCheckedAndSetUp := by
  intro r k v h s
  dsimp only
  refine ⟨fun ha hm => ?_, fun hw => congrArg Host.Outcome.next (if_pos hw), fun hh => congrArg Host.Outcome.next ?_,
    fun hh hbad => ?_, fun hh hk hb ha hg => ?_⟩
  · rw [exec_devSubqCfgWrite ha hm]
    refine ⟨fun ho hv => ?_, fun ho hv => ?_, fun ho hv => ?_, fun ho hv hf => ?_, fun ho hv hf => ?_⟩
    · rw [if_pos ho, if_neg (by rw [hv]; decide)]
    · rw [if_pos ho, if_pos hv]
    · rw [if_neg (by rw [ho]; decide), if_pos (by rw [hv]; rfl)]
    · rw [if_neg (by rw [ho]; decide), if_neg (by rw [hv]; decide), if_pos hf]
    · rw [if_neg (by rw [ho]; decide), if_neg (by rw [hv]; decide), if_neg (Bool.eq_false_iff.mp hf)]
  · simp only [hh]
  · rw [exec_run hh (by omega)]
    refine congrArg Host.Outcome.next (if_pos ?_)
    rcases hbad with hk | ⟨-, hb⟩
    · simp [show Hd.kind h ≠ 1 by omega]
    · simp [hb]
  · obtain ⟨ds, hds⟩ := State.runEntry_single hk hb ha hg
    rw [exec_run hh (by omega), hds]
    exact ⟨fun st item u hc => by rw [hc]; rfl, fun u hc => by rw [hc]; rfl,
      fun ctx u hc hu => by rw [hc]; exact congrArg Host.Outcome.next (if_pos hu)⟩

end Sys2Proof.Machine

/-!
PROOFS. STEP, END and ABORT entries and the end of a run (R430, R431, R275, R365, R532).
-/
namespace Sys2Proof.Machine

/-! STEP entries (R431). -/

/-- On an ACTIVE device with its control cores running a STEP first completes the steps that are done. -/
theorem exec_step {k : Fin 8} {s : State} (hm : s.power.mod = 2) (hr : s.ctl.released = true) :
    exec (.step k) s = .next (match s.closeSteps.header k.val with
      | none => s.closeSteps
      | some h => if Hd.kind h = 2 then s.closeSteps.stepEntry k.val h else s.closeSteps) := by
  have ht : (if s.power.mod = 2 && s.ctl.released then s.closeSteps else s) = s.closeSteps := if_pos (by simp [hm, hr])
  exact congrArg (fun t : State => Host.Outcome.next (match t.header k.val with
    | none => t
    | some h => if Hd.kind h = 2 then t.stepEntry k.val h else t)) ht

theorem State.stepEntry_unnamed {s : State} {k : Nat} {h : Header} (hb : s.headerBad h = false) (hn : s.namedRun h = none) :
    s.stepEntry k h = (s.consume k).refuse (s.entryAddr k (s.nextEntry k)) stMalformed none := by
  unfold State.stepEntry
  simp only [hb, hn]

/-- The run of an accepted step: its status, `STEPNO` and what stays open; then its register pairs (R431). -/
def State.stepTaken (s : State) (k : Nat) (h : Header) (ctx : Nat) (r : Run) : State :=
  let addr := s.entryAddr k (s.nextEntry k)
  let xs := s.items addr h
  let kv := r.claims.holdsKvd && s.kvdOn
  let v := ((((s.consume k).putStatus addr stAccepted 0 ctx 0 0 0 0).onRun ctx fun r => { r with stepno := Hd.stepno h
    }).openAdd ⟨addr, 2, ctx, (s.launchesOf xs).map fun l => s.siteOf l.lcore,
      if kv then some (s.reg pgKvd 0x11C).toNat else none⟩)
  (if r.claims.pacer && !r.claims.sch && s.pacerCtx = ctx then v.pacerHome else v).writePairs ctx r.claims (s.allPairs xs) none

/-- A step of a run in progress whose items are register pairs and launches. -/
theorem State.stepEntry_named {s : State} {k ctx : Nat} {h : Header} {r : Run} (hb : s.headerBad h = false)
    (hn : s.namedRun h = some (ctx, r))
    (hi : firstItem (fun b x => (x.type != 0x0C && x.type != 0x0D) || s.itemBad r.claims b x)
      (s.items (s.entryAddr k (s.nextEntry k)) h) = none) (he : r.ending ≠ 2) :
    s.stepEntry k h =
      let ls := s.launchesOf (s.items (s.entryAddr k (s.nextEntry k)) h)
      if (r.claims.holdsKvd && s.kvdOn) && s.kvdStepping ctx then s
      else if r.claims.holdsKvd && s.kvdOn then
        ((ls.foldl (fun s l => s.idleWrite (s.siteOf l.lcore) fun c =>
          { c with seq := { c.seq with base := l.base, baseSpd := l.spd } }) (s.stepTaken k h ctx r)).onKvd fun x =>
            { x with starts := ls.map fun l => s.siteOf l.lcore }).kvdCmdWrite 1
      else ls.foldl State.startLaunch (s.stepTaken k h ctx r) := by
  unfold State.stepEntry
  simp only [hb, hn, hi, he, if_false]
  rfl

/-! END and ABORT entries (R431). -/

theorem exec_endRun {k : Fin 8} {h : Header} {s : State} (hh : s.header k.val = some h) (hk : Hd.kind h = 3) :
    exec (.endRun k) s = .next (s.endEntry k.val h) := by
  refine congrArg Host.Outcome.next ?_
  simp only [hh]
  exact if_pos hk

theorem exec_abort {k : Fin 8} {h : Header} {s : State} (hh : s.header k.val = some h) (hk : Hd.kind h = 4) :
    exec (.abort k) s = .next (s.endEntry k.val h) := by
  refine congrArg Host.Outcome.next ?_
  simp only [hh]
  exact if_pos hk

theorem State.endEntry_unnamed {s : State} {k : Nat} {h : Header} (hb : s.headerBad h = false) (hn : s.namedRun h = none) :
    s.endEntry k h = (s.consume k).refuse (s.entryAddr k (s.nextEntry k)) stMalformed none := by
  unfold State.endEntry
  simp only [hb, hn]

/-- An END or ABORT without items is accepted and stays open. -/
def State.endTaken (s : State) (k : Nat) (kind ctx : Nat) : State :=
  let addr := s.entryAddr k (s.nextEntry k)
  ((s.consume k).putStatus addr stAccepted 0 ctx 0 0 0 0).openAdd ⟨addr, kind, ctx, [], none⟩

theorem State.endEntry_named {s : State} {k ctx : Nat} {h : Header} {r : Run} (hb : s.headerBad h = false)
    (hn : s.namedRun h = some (ctx, r)) (hi : s.items (s.entryAddr k (s.nextEntry k)) h = []) :
    s.endEntry k h =
      if Hd.kind h = 4 then (s.endTaken k (Hd.kind h) ctx).endRunWith ctx stAborted 0 s.ownId 0 0
      else if r.ending = 0 then (r.parts.filter RunPart.runs).foldl (fun s q => s.endPart ctx 3 r.list q)
        ((s.endTaken k (Hd.kind h) ctx).onRun ctx fun r => { r with ending := 1 })
      else s.endTaken k (Hd.kind h) ctx := by
  unfold State.endEntry State.endTaken
  simp only [hb, hn, hi]
  exact if_neg (by decide)

/-! The end of a run (R431, R532). -/

theorem exec_runEnd {c : Fin 8} {r : Run} {s : State} (hr : s.run c.val = some r) (hu : s.regsUp = true) (he : r.ending ≠ 0)
    (hq : s.runQuiet r = true) (hs : s.streamsLeft r = false) (hp : r.claims.pacer = false) :
    exec (.runEnd c) s = .next (s.endOrWait c.val r) := by
  have hleave : s.pacerLeave r = s := if_neg (by rw [hp]; exact Bool.false_ne_true)
  refine congrArg Host.Outcome.next ?_
  simp only [hr]
  refine (if_neg (by simp [hu, he, hq])).trans ((if_neg (by rw [hs]; decide)).trans ((if_neg (by rw [hp]; exact Bool.false_ne_true)).trans ?_))
  rw [hleave]

/-- Settles O47: each clause is the branch of its entry, or of the end of the run. -/
theorem stepsAndEndsOfRuns : Obligations.StepsAndEndsOfRuns := by
  intro k c dev h ctx r s
  dsimp only
  refine ⟨fun hm hr => ⟨fun hh => ?_, fun hh hk hb => ⟨fun hn => ?_, fun hn hi he => ⟨fun hkv => ?_, fun hkv hst => ?_,
    fun hkv hst => ?_⟩⟩⟩, fun hh hk hb hi => ⟨fun hn => ?_, fun hn he => ?_, fun hn he => ?_⟩, fun hh hk hb hi hn => ?_,
    fun hr hu ha ht hp => ?_, fun hr hu he hq hs hp => ?_⟩
  · rw [exec_step hm hr, hh]
  · rw [exec_step hm hr, hh]
    exact congrArg Host.Outcome.next ((if_pos hk).trans (State.stepEntry_unnamed hb hn))
  · rw [exec_step hm hr, hh]
    refine congrArg Host.Outcome.next ((if_pos hk).trans ((State.stepEntry_named hb hn hi he).trans ?_))
    dsimp only
    rw [if_neg (by rw [hkv]; exact Bool.false_ne_true), if_neg (by rw [hkv]; decide)]
    rfl
  · rw [exec_step hm hr, hh]
    refine congrArg Host.Outcome.next ((if_pos hk).trans ((State.stepEntry_named hb hn hi he).trans ?_))
    dsimp only
    rw [if_neg (by rw [hkv, hst]; decide), if_pos hkv]
    rfl
  · rw [exec_step hm hr, hh]
    refine congrArg Host.Outcome.next ((if_pos hk).trans ((State.stepEntry_named hb hn hi he).trans ?_))
    exact if_pos (by rw [hkv, hst]; rfl)
  · rw [exec_endRun hh hk, State.endEntry_unnamed hb hn]
  · rw [exec_endRun hh hk, State.endEntry_named hb hn hi, if_neg (by omega), if_pos he, hk]
    rfl
  · rw [exec_endRun hh hk, State.endEntry_named hb hn hi, if_neg (by omega), if_neg he, hk]
    rfl
  · rw [exec_abort hh hk, State.endEntry_named hb hn hi, if_pos hk, hk]
    rfl
  · refine congrArg Host.Outcome.next ?_
    simp only [hr]
    exact if_pos (by simp only [hu, ha, ht, hp]; decide)
  · rw [exec_runEnd hr hu he hq hs hp]
    refine ⟨fun hh => congrArg Host.Outcome.next (if_neg (Bool.eq_false_iff.mp hh)),
      fun hh => congrArg Host.Outcome.next (if_pos hh)⟩

end Sys2Proof.Machine

/-!
PROOFS. Firmware's answer to a stopped list, start-up, and the host's bridge (R418-R423, R432, R483, R515-R522).
-/
namespace Sys2Proof.Machine

/-! Faults (R432, R483). -/

theorem exec_faultResponse {n : Fin 136} {s : State} (hu : s.regsUp = true) (hr : s.ctl.released = true) :
    exec (.faultResponse n) s = .next (s.answerList n.val).answerUnits.answerRepairs :=
  congrArg Host.Outcome.next (if_pos (by rw [hu, hr]; rfl))

/-- The answer to a list stopped on a fault in a run in progress. -/
theorem State.answerList_live {s : State} {n : Nat} (hst : (s.core n).seq.st = .stoppedFault)
    (hv : (s.core n).ctxValid = true) (hl : s.runLive (s.core n).ctx = true) :
    s.answerList n = if (s.core n).seq.frec.code = 6 then
        (if (s.stu n (scx (s.core n).seq.frec.desc)).shadow.isNone && (s.stu n (scx (s.core n).seq.frec.desc)).shadowFetch.isNone
          then s.listCtrl n 4 else s)
      else if ((s.core n).seq.frec.code = 5 || (s.core n).seq.frec.code = 10 || (s.core n).seq.frec.code = 12) &&
          (s.claims (s.core n).ctx).sch then
        if (s.core n).seq.frec.code = 12 then
          if s.isLost (gDev (s.core n).seq.frec.addr) then s
          else (match s.listedPort (gDev (s.core n).seq.frec.addr) with | some p => s.flmEvent 4 p | none => s).giveUpLap
            (s.core n).ctx
        else s.giveUpLap (s.core n).ctx
      else s.endRunWith (s.core n).ctx stEndedFault (s.core n).seq.frec.code s.ownId ((s.lcoreOf n).getD 0)
        (s.core n).seq.frec.index := by
  unfold State.answerList
  dsimp only
  exact if_neg (by simp [hst, hv, hl])

theorem State.answerList_running {s : State} {n : Nat} (hst : (s.core n).seq.st ≠ .stoppedFault) : s.answerList n = s :=
  if_pos (by simp [hst])

/-- Settles O48: the fault's code chooses the answer. -/
theorem faultsAreAnswered : Obligations.FaultsAreAnswered := by
  intro n s
  dsimp only
  intro hu hr
  rw [exec_faultResponse hu hr]
  refine ⟨fun hst => by rw [State.answerList_running hst], fun hst hv hl => ?_⟩
  rw [State.answerList_live hst hv hl]
  refine ⟨fun hc hs hf => ?_, fun hc hs => ?_, fun hc hs hlost => ?_, fun hc hs hlost => ⟨fun p hp => ?_, fun hp => ?_⟩,
    fun h6 hc => ?_⟩
  · rw [if_pos hc, if_pos (by rw [hs, hf]; rfl)]
  · rw [if_neg (by omega), if_pos (by simpa [hs, or_assoc] using hc.elim .inl fun h => .inr (.inl h)), if_neg (by omega)]
  · rw [if_neg (by omega), if_pos (by simp [hs, hc]), if_pos hc, if_pos hlost]
  · rw [if_neg (by omega), if_pos (by simp [hs, hc]), if_pos hc, if_neg (by rw [hlost]; decide), hp]
  · rw [if_neg (by omega), if_pos (by simp [hs, hc]), if_pos hc, if_neg (by rw [hlost]; decide), hp]
  · rw [if_neg h6, if_neg]
    rcases hc with ⟨h5, h10, h12⟩ | hs
    · simp [h5, h10, h12]
    · simp [hs]

/-! Start-up (R497, R518-R522). -/

/-- With 64 usable sites in each half only the want of an image keeps a device out of service. -/
theorem State.checkStart_enough {s : State} (h0 : 64 ≤ (s.goodSites 0).length) (h1 : 64 ≤ (s.goodSites 1).length) :
    s.checkStart = if s.trb.noImage then s.stage 7 1 else s := by
  have henough : ¬ (decide ((s.goodSites 0).length < 64) || decide ((s.goodSites 1).length < 64)) = true := by
    simp only [Bool.or_eq_true, decide_eq_true_eq]
    omega
  unfold State.checkStart
  rw [if_neg henough]

/-- Settles O49: each step's conditions are its guard. -/
theorem startUpSteps : Obligations.StartUpSteps := by
  intro mv g slot anchor failed ports reports d s
  dsimp only
  refine ⟨fun hm hs hv hr => ?_, fun hr hs => ?_, fun hm hg hr hst hb hi h0 h1 => ?_, fun hm hb hr ho ha => ?_,
    fun hu hr hst hp => ⟨fun ha => ?_, fun ha hout => ?_⟩, fun hu ha hg hr hd hid hne hroute => ?_⟩
  · refine congrArg Host.Outcome.next ((if_pos (by simp [hm, hs, hv])).trans ((if_neg (by rw [hr]; decide)).trans ?_))
    exact congrArg (fun m => State.mgcBoot { s with power := { s.power with vin := mv, standby := true, mod := m } })
      (if_neg (by rw [hr]; decide))
  · exact congrArg Host.Outcome.next (if_pos (by rw [hr, hs]; rfl))
  · refine congrArg Host.Outcome.next ((if_neg (by simp [hm, hg, hr, hst, hb, hi])).trans ?_)
    rw [State.checkStart_enough h0 h1]
  · refine congrArg Host.Outcome.next ((if_neg (by simp [hm, hb, hr, ho])).trans (if_neg ?_))
    rcases ha with ha | ha <;> simp [ha]
  · exact congrArg Host.Outcome.next ((if_neg (by simp [hu, hr, hst, hp])).trans (if_pos (by simpa using ha)))
  · refine congrArg Host.Outcome.next ((if_neg (by simp [hu, hr, hst, hp])).trans ((if_neg (by simpa using ha)).trans ?_))
    dsimp only
    rw [hout]
    rfl
  · refine congrArg Host.Outcome.next ((if_neg ?_).trans ((if_neg (by simp [hid])).trans (if_neg (by simp [hne, hroute]))))
    simp [hu, ha, hg, hr, hd, hid]

/-! The host's bridge (R418, R420, R423, R515, R522). -/

/-- An access of BAR2 while the bridge is up. -/
theorem State.barAccess_up {s : State} {off n : Nat} {w : Option (List Byte)} (hb : s.bridgeUp = true) :
    s.barAccess off n w = match s.awaken.barTarget off n w.isSome with
      | none => s.awaken.hostRefuse w.isSome
      | some g =>
        match s.awaken.target g n with
        | .outer a => s.awaken.access ⟨.host, w.isSome, .remote, a, n, w.getD []⟩ SectorFault.none
        | .far d a =>
          if nearBase < a + n || !s.awaken.reaches d then s.awaken.hostRefuse w.isSome
          else (s.awaken.request .host 0 d a n w).settle
        | _ => s.awaken.hostRefuse w.isSome := if_neg (by rw [hb]; decide)

/-- BAR0 while the bridge is up. -/
theorem exec_hostBar0Window {off : BitVec 26} {w : Nat} {data : Option Word} {s : State} (hb : s.bridgeUp = true) :
    exec (.hostBar0Window off w data) s = .next (
      let dst := s.dev.group.toNat * 64 + fld (s.reg pgHbr 0x100) 5 0
      if !bit (s.reg pgHbr 0x100) 31 then s.awaken.hostRefuse data.isSome
      else if w != 4 || off.toNat % 4 != 0 then s.awaken.badAccess .host data.isNone
      else if dst = s.ownId then
        match data with
        | some v => s.writeReg .host (off.toNat / 65536) (off.toNat % 65536) v
        | none => s.answerRead .host (off.toNat / 65536) (off.toNat % 65536)
      else if !s.reaches dst then s.awaken.hostRefuse data.isSome
      else s.awaken.regRequest .host dst off.toNat data) :=
  congrArg Host.Outcome.next (if_neg (by rw [hb]; decide))

/-- Settles O50: each access is the branch of its window and its target. -/
theorem hostReachesThroughTheBridge : Obligations.HostReachesThroughTheBridge := by
  intro off w data b len bytes g a dst low wd s
  dsimp only
  refine ⟨fun hb => ?_, fun hb ht => ?_, fun hb ht hg => ?_, fun hb ht hg => ?_, fun hb ht hg => ⟨fun ha hr => ?_, fun h => ?_⟩,
    fun ha hu => ?_, fun ha hp hr hg => ⟨fun hu => ?_, fun hu => ?_⟩, fun hb => ⟨?_, ?_⟩⟩
  · rw [exec_hostBar0Window hb]
    dsimp only
    refine ⟨fun hs => ?_, fun hs hw => ?_, fun hs hw ho => ⟨fun hd => ?_, fun hd hr => ?_, fun hd hr => ?_⟩⟩
    · rw [if_pos (by rw [hs]; rfl)]
    · rw [if_neg (by rw [hs]; decide), if_pos (by simpa [imp_iff_not_or] using hw)]
    · exact congrArg Host.Outcome.next
        ((if_neg (by rw [hs]; decide)).trans ((if_neg (by simp [hw, ho])).trans (if_pos hd)))
    · rw [if_neg (by rw [hs]; decide), if_neg (by simp [hw, ho]), if_neg hd, if_neg (by rw [hr]; decide)]
    · rw [if_neg (by rw [hs]; decide), if_neg (by simp [hw, ho]), if_neg hd, if_pos (by rw [hr]; rfl)]
  · refine congrArg Host.Outcome.next ((State.barAccess_up hb).trans ?_)
    simp only [Option.isSome_none, ht]
  · refine congrArg Host.Outcome.next ((State.barAccess_up hb).trans ?_)
    simp only [Option.isSome_none, ht, hg, Option.getD_none]
  · refine congrArg Host.Outcome.next ((State.barAccess_up hb).trans ?_)
    simp only [Option.isSome_some, ht, hg, Option.getD_some]
  · refine congrArg Host.Outcome.next ((State.barAccess_up hb).trans ?_)
    simp only [Option.isSome_some, ht, hg]
    exact if_neg (by simp [hr]; omega)
  · refine congrArg Host.Outcome.next ((State.barAccess_up hb).trans ?_)
    simp only [Option.isSome_some, ht, hg]
    exact if_pos (by simpa using h)
  · refine congrArg Host.Outcome.next ((if_pos (by rw [ha, hu]; rfl)).trans ?_)
    cases low <;> rfl
  · exact congrArg Host.Outcome.next ((if_neg (by simp [ha, hp, hr, hg])).trans (if_pos (by rw [hu]; rfl)))
  · exact congrArg Host.Outcome.next ((if_neg (by simp [ha, hp, hr, hg])).trans (if_neg (by rw [hu]; decide)))
  · exact congrArg Host.Outcome.next (if_neg (by rw [hb]; decide))
  · refine congrArg Host.Outcome.next ((if_neg (by rw [hb]; decide)).trans (congrArg (fun t => State.raise t pgHbr 0) ?_))
    by_cases hwas : fld (s.reg pgHbr 0x104) 1 0 = 0
    · exact (if_neg (by simp [hwas])).trans (if_neg (by simp [hwas])).symm
    · exact (if_pos (by simp [hwas])).trans (if_pos hwas).symm

end Sys2Proof.Machine

/-!
PROOFS. The power cap, the thermal loop and the regulators (R445-R470).
-/
namespace Sys2Proof.Machine

/-! The cap (R456-R458). -/

theorem State.capWrite_refused {s : State} {r : Requester} {v : Word} (h : fld v 11 0 < 600 ∨ 1800 < fld v 11 0) :
    s.capWrite r v = s.errSet 4 0 := if_pos (by simp [h])

theorem State.capWrite_taken {s : State} {r : Requester} {v : Word} (h1 : 600 ≤ fld v 11 0) (h2 : fld v 11 0 ≤ 1800) :
    s.capWrite r v = (let t := s.setReg 4 0x100 (BitVec.ofNat 32 (fld v 11 0)); if r = .mgc then t.raise 9 1 else t) :=
  if_neg (by simp [h1, h2])

theorem State.freqMaxWrite_taken {s : State} {h : Nat} {v : Word} (h1 : 850 ≤ fld v 11 0) (h2 : fld v 11 0 ≤ 1900)
    (h3 : s.power.calDefault = true → fld v 11 0 ≤ 1500) :
    s.freqMaxWrite h v = (s.setReg (5 + h) 0x100 (BitVec.ofNat 32 (fld v 11 0))).rebalanceAll :=
  if_neg (by simp [h1, h2]; exact h3)

theorem State.freqMaxWrite_ignored {s : State} {h : Nat} {v : Word} (hv : fld v 11 0 < 850 ∨ 1900 < fld v 11 0) :
    s.freqMaxWrite h v = s := if_pos (by simp [hv])

/-- One step of the cap controller above the cap, with sites that can still slow down. -/
theorem State.capStep_cut {s : State} {watts : Nat} (hc : (s.sawPower watts).effCap < watts)
    (hf : (s.sawPower watts).atFloor = false) (ha : s.power.capActive = true) :
    let u := s.sawPower watts
    let t := (List.range 34).foldl (fun t j => t.setBudget j (t.budget j * u.effCap / watts)) u
    s.capStep watts = ({ t with power := { t.power with
      capActive := (List.range 34).any fun j => t.budget j < Config.fullBudget u.effCap j } } : State).rebalanceAll := by
  intro u t
  have ha' : (s.sawPower watts).power.capActive = true := ha
  unfold State.capStep
  simp only [hc, hf, ha', if_true, Bool.not_true, Bool.and_false, Bool.false_eq_true, if_false]
  rfl

/-- Settles O51: each command of the cap and the sensors, on its conditions. -/
theorem capAndThermalLoops : Obligations.CapAndThermalLoops := by
  intro r h v mv watts rs s c low
  refine ⟨fun ha hc => congrArg Host.Outcome.next ((State.onWrite_accepts _ ha).trans (State.capWrite_refused hc)),
    fun ha h1 h2 => ⟨fun hr => ?_, fun hr => ?_⟩, fun ha h1 h2 h3 => congrArg Host.Outcome.next
      ((State.onWrite_accepts _ ha).trans (State.freqMaxWrite_taken h1 h2 h3)),
    fun ha hc => congrArg Host.Outcome.next ((State.onWrite_accepts _ ha).trans (State.freqMaxWrite_ignored hc)),
    fun hu => congrArg Host.Outcome.next (if_pos hu), fun hu hc hf => ?_, fun hu hw => ?_, fun hf ht => ?_,
    fun hu h1 h2 => ⟨fun hl => ?_, fun hl => ?_⟩, fun hu h1 h2 => ?_, fun hu hl => ?_⟩
  · exact congrArg Host.Outcome.next ((State.onWrite_accepts _ ha).trans ((State.capWrite_taken h1 h2).trans (if_neg hr)))
  · exact congrArg Host.Outcome.next ((State.onWrite_accepts _ ha).trans ((State.capWrite_taken h1 h2).trans (if_pos hr)))
  · intro u t short ha hs
    refine congrArg Host.Outcome.next ((if_pos hu).trans ((State.capStep_cut hc hf ha).trans ?_))
    rw [show ((List.range 34).any fun j => t.budget j < Config.fullBudget u.effCap j) = true from hs]
  · exact congrArg Host.Outcome.next (if_pos (by simp [hu, hw]))
  · exact congrArg Host.Outcome.next (if_pos (by simp [hf, ht]))
  · exact congrArg Host.Outcome.next ((if_pos (by simp [hu, h1, h2])).trans (if_neg (by rw [hl]; decide)))
  · exact congrArg Host.Outcome.next ((if_pos (by simp [hu, h1, h2])).trans (if_pos hl))
  · exact congrArg Host.Outcome.next ((if_neg (by simp; omega)).trans (if_pos (by simp [hu, h1, h2])))
  · exact congrArg Host.Outcome.next (if_pos (by simp [hu, hl]))

/-! Regulators (R447, R452-R454). -/

/-- Ageing that stays below 30 mV raises the island's margin and the register of its half, and no event. -/
theorem exec_ageingMeasure {island slow : Nat} {s : State} (hu : s.regsUp = true) (hp : s.present island = true)
    (hm : max (Store.get 0 s.power.margins island) (5 * slow) < 30) :
    let mv := max (Store.get 0 s.power.margins island) (5 * slow)
    let w : Power := { s.power with margins := Store.set 0 s.power.margins island mv
                                    slowed := Store.set 0 s.power.slowed island slow }
    exec (.ageingMeasure island slow) s = .next (({ s with power := w } : State).setReg (5 + halfOf island) 0x10C
      (BitVec.ofNat 32 (max (s.reg (5 + halfOf island) 0x10C).toNat mv))) := by
  intro mv w
  have e : max (Store.get 0 s.power.margins island) (min 30 (5 * slow)) = mv := by
    simp only [mv]; omega
  refine congrArg Host.Outcome.next ((if_pos (by simp [hu, hp])).trans ?_)
  dsimp only
  rw [e]
  exact if_neg (by simp only [Bool.and_eq_true, decide_eq_true_eq]; exact fun h => absurd h.1 (Nat.ne_of_lt hm))

/-- Settles O52: each command of the regulators, on its conditions. -/
theorem regulatorsKeepTheirTrim : Obligations.RegulatorsKeepTheirTrim := by
  intro stage phase island slow est meas s half old n w hu
  refine ⟨fun h1 h2 h3 => congrArg Host.Outcome.next (if_pos (by simp [hu, h1, h2]; simpa using h3)),
    fun hp => congrArg Host.Outcome.next (if_pos (by rw [hu, hp]; rfl)),
    fun hp => congrArg Host.Outcome.next (if_pos (by rw [hu, hp]; rfl)),
    fun hp hm => ⟨_, exec_ageingMeasure hu hp hm, Store.get_set_same .., ?_⟩,
    fun he => congrArg Host.Outcome.next (if_pos (by simp [hu, he]))⟩
  rw [State.reg_setReg, BitVec.toNat_ofNat]
  exact Nat.mod_eq_of_lt (by have := (s.reg (5 + halfOf island) 0x10C).isLt; omega)

end Sys2Proof.Machine

/-!
PROOFS. The module's states and the GPX pins (R445, R463, R465, R519-R521).
-/
namespace Sys2Proof.Machine

/-! The module-state event and frost (R463). -/

theorem State.platformEvent_rest (s : State) (i v : Nat) :
    ∃ sent mgc, s.platformEvent i v = { s with sent := sent, mgc := mgc } := by
  unfold State.platformEvent
  split
  · exact ⟨_, s.mgc, rfl⟩
  · exact ⟨s.sent, _, rfl⟩

/-- The module-state event raises its source and sends or keeps its message; nothing else changes. -/
theorem State.moduleEvent_rest (s : State) :
    ∃ raised sent mgc, s.moduleEvent = { s with raised := raised, sent := sent, mgc := mgc } := by
  unfold State.moduleEvent State.raise
  split
  · obtain ⟨sent, mgc, h⟩ := State.platformEvent_rest { s with raised := s.raised ++ [eventBase 4 + 2] } 0x200 s.power.mod
    exact ⟨_, sent, mgc, h⟩
  · obtain ⟨sent, mgc, h⟩ := State.platformEvent_rest s 0x200 s.power.mod
    exact ⟨s.raised, sent, mgc, h⟩

theorem State.moduleEvent_power (s : State) : s.moduleEvent.power = s.power := by
  obtain ⟨_, _, _, h⟩ := s.moduleEvent_rest
  rw [h]

theorem State.moduleEvent_regs (s : State) : s.moduleEvent.regs = s.regs := by
  obtain ⟨_, _, _, h⟩ := s.moduleEvent_rest
  rw [h]

theorem State.moduleEvent_runs (s : State) : s.moduleEvent.runs = s.runs := by
  obtain ⟨_, _, _, h⟩ := s.moduleEvent_rest
  rw [h]

theorem State.moduleEvent_cores (s : State) : s.moduleEvent.cores = s.cores := by
  obtain ⟨_, _, _, h⟩ := s.moduleEvent_rest
  rw [h]

theorem State.moduleEvent_tiers (s : State) : s.moduleEvent.tiers = s.tiers := by
  obtain ⟨_, _, _, h⟩ := s.moduleEvent_rest
  rw [h]

theorem State.moduleEvent_flm (s : State) : s.moduleEvent.flm = s.flm := by
  obtain ⟨_, _, _, h⟩ := s.moduleEvent_rest
  rw [h]

/-- Pages whose islands are on go to RETENTION. -/
def State.frostIslands (s : State) (pages : List Nat) : State :=
  pages.foldl (fun t p => if t.present p && t.island p = 0 then t.setIsland p 4 else t) s

/-- Only the islands change. -/
theorem State.frostIslands_rest (pages : List Nat) (s : State) :
    ∃ islands, s.frostIslands pages = { s with islands := islands } := by
  induction pages generalizing s with
  | nil => exact ⟨s.islands, rfl⟩
  | cons p pages ih =>
    unfold State.frostIslands
    rw [List.foldl_cons]
    split
    · exact ih (s.setIsland p 4)
    · exact ih s

theorem State.frostWrite_busy {s : State} {v : Word} (hv : bit v 0 = true) (hr : s.runActive = true) :
    s.frostWrite v = s.conflict 4 true := by
  unfold State.frostWrite
  rw [if_neg (by rw [hv]; decide), if_pos hr]

/-- Without an active run the module goes to FROST; tiers, cores and registers are as they were but for the flag. -/
theorem State.frostWrite_taken {s : State} {v : Word} (hv : bit v 0 = true) (hr : s.runActive = false) :
    (s.frostWrite v).power = { s.power with mod := 3, wake := false } ∧ (s.frostWrite v).tiers = s.tiers ∧
      (s.frostWrite v).cores = s.cores ∧ (s.frostWrite v).regs = (s.conflict 4 false).regs := by
  obtain ⟨islands, h⟩ := State.frostIslands_rest frostPages (s.conflict 4 false)
  unfold State.frostWrite
  rw [if_neg (by rw [hv]; decide), if_neg (by rw [hr]; decide)]
  dsimp only
  rw [show frostPages.foldl (fun t p => if t.present p && t.island p = 0 then t.setIsland p 4 else t) (s.conflict 4 false) = _
    from h, State.moduleEvent_power, State.moduleEvent_tiers, State.moduleEvent_cores, State.moduleEvent_regs]
  exact ⟨rfl, rfl, rfl, rfl⟩

theorem State.awaken_frost {s : State} (h : s.power.mod = 3) :
    s.awaken.power.mod = 2 ∧ s.awaken.tiers = s.tiers := by
  unfold State.awaken
  rw [if_pos h]
  dsimp only
  rw [State.raise_power, State.raise_tiers, State.platformEvent_tiers]
  obtain ⟨_, _, e⟩ := State.platformEvent_rest
    { s with power := { s.power with mod := 2, wake := false }, islands := s.islands.filter fun x => x.2 != 4 } 0x200 2
  exact ⟨by rw [e], rfl⟩

/-! Reset and supply (R445, R521). -/

theorem State.holdReset_power (s : State) : s.holdReset.power = { (s.dropRails 0).power with
    resetLow := true, trip := if s.power.standby then s.power.trip else 0 } := by
  unfold State.holdReset
  dsimp only
  split <;> rfl

theorem State.holdReset_flm (s : State) : s.holdReset.flm = (s.dropRails 0).flm := by
  unfold State.holdReset
  dsimp only
  split <;> rfl

theorem State.holdReset_trb (s : State) : s.holdReset.trb = (s.dropRails 0).trb := by
  unfold State.holdReset
  dsimp only
  split <;> rfl

theorem State.holdReset_pending (s : State) : s.holdReset.pending = s.pending := by
  unfold State.holdReset
  dsimp only
  split <;> rfl

theorem State.holdReset_regs (s : State) (h : s.power.shed = []) : s.holdReset.regs = [] := by
  unfold State.holdReset
  dsimp only
  rw [if_pos h]

theorem State.holdReset_phases (s : State) (h : s.power.shed ≠ []) : s.holdReset.reg 4 0x11C = s.power.phaseWord := by
  unfold State.holdReset
  dsimp only
  rw [if_neg h]
  exact Store.get_set_same _ _ _ _

/-- What a cut of every rail leaves. -/
theorem State.cutPower_latches (s : State) (mv cause : Nat) (h : s.power.mod ≠ 0) :
    (s.cutPower mv cause).power.mod = 0 ∧ (s.cutPower mv cause).power.standby = false ∧
      (s.cutPower mv cause).power.trip = BitVec.ofNat 32 (2 ^ 31 + cause) ∧
      (s.cutPower mv cause).trb.fuseF = s.trb.fuseF ∧ (s.cutPower mv cause).flm.log = s.flm.log := by
  refine ⟨?_, rfl, if_neg h, ?_, ?_⟩
  · show s.holdReset.power.mod = 0
    rw [State.holdReset_power]
    rfl
  · show s.holdReset.trb.fuseF = _
    rw [State.holdReset_trb]
    rfl
  · show s.holdReset.flm.log = _
    rw [State.holdReset_flm]
    rfl

/-- Settles O53: each clause by what the named transition leaves. -/
theorem moduleStatesFollowSupplyAndReset : Obligations.ModuleStatesFollowSupplyAndReset := by
  intro mv sensor r v s off
  refine ⟨fun hs hm hl => ?_, fun hs hm hl => ?_, fun hu hs => ⟨_, congrArg Host.Outcome.next (if_pos (by simp [hu, hs])), ?_⟩,
    fun hm hs => ?_, fun hu => congrArg Host.Outcome.next (if_pos hu),
    fun hs => ⟨_, congrArg Host.Outcome.next (if_pos hs), ?_⟩, ⟨_, rfl, ?_⟩,
    fun ha hv => ⟨fun hr => ?_, fun hr => ⟨_, congrArg Host.Outcome.next (State.onWrite_accepts _ ha), ?_⟩⟩,
    fun hm hw => ⟨_, congrArg Host.Outcome.next (if_pos (by simp [hm, hw])), State.awaken_frost hm⟩⟩
  · obtain ⟨h1, h2, h3, h4, h5⟩ := s.cutPower_latches mv 3 hm
    exact ⟨_, h1, h2, h3, h4, h5, fun _ => congrArg Host.Outcome.next (if_pos (by simp [hs, hl])), fun h => by omega⟩
  · obtain ⟨h1, h2, h3, h4, h5⟩ := s.cutPower_latches mv 2 hm
    exact ⟨_, h1, h2, h3, h4, h5, fun h => by omega, fun _ => congrArg Host.Outcome.next (if_pos (by simp [hs, hl]))⟩
  · rw [State.moduleEvent_power, State.moduleEvent_runs, State.moduleEvent_cores]
    exact ⟨rfl, rfl, rfl, rfl⟩
  · refine congrArg Host.Outcome.next ?_
    simp [hm, hs]
  · rw [State.moduleEvent_power, State.moduleEvent_runs, State.moduleEvent_flm]
    exact ⟨rfl, rfl, rfl, rfl, rfl⟩
  · rw [State.holdReset_power, State.holdReset_flm, State.holdReset_trb, State.holdReset_pending]
    exact ⟨rfl, rfl, s.holdReset_regs, s.holdReset_phases, rfl, rfl, rfl⟩
  · exact congrArg Host.Outcome.next ((State.onWrite_accepts _ ha).trans (State.frostWrite_busy hv hr))
  · obtain ⟨hp, ht, hc, hg⟩ := State.frostWrite_taken hv hr
    exact ⟨by rw [hp], by rw [hp], ht, hc, hg⟩

/-! The GPX pins (R519, R520). -/

/-- A free pin takes a function whose unit no other pin holds. -/
theorem State.gpxWrite_taken {s : State} {r : Requester} {k : Nat} {v : Word} (hc : bit (s.reg 0 (gpxOff k)) 31 = false)
    (hv : bit v 31 = true) (hf : fld v 30 28 < 6) (hh : s.gpxUnitHeld k (fld v 30 28) = false) :
    let f := fld v 30 28
    let t := s.setReg 0 (gpxOff k) (setFld (setFld (setFld (0 : Word) 31 28 (8 + f)) 27 24 (if r = .host then 9 else 8)) 0 0
      (fld v 0 0))
    s.gpxWrite r k v = (if f = 4 then t.setRegBit 0 0x1EC 2 (!Store.get false s.pins.gpx k) else t).conflict 0 false := by
  intro f t
  unfold State.gpxWrite
  simp only [hc, hv, hh, Bool.false_and, Bool.false_or, Bool.and_false, Bool.or_false, Bool.false_eq_true, if_false, if_true]
  exact if_neg (by simpa using hf)

/-- A pin of another owner is refused. -/
theorem State.gpxWrite_owned {s : State} {r : Requester} {k : Nat} {v : Word} (hc : bit (s.reg 0 (gpxOff k)) 31 = true)
    (ho : fld (s.reg 0 (gpxOff k)) 27 24 ≠ if r = .host then 9 else 8) : s.gpxWrite r k v = s.conflict 0 true :=
  if_pos (by rw [hc, Bool.true_and, bne_iff_ne]; exact ho)

/-- A function that does not exist, or whose unit another pin holds, is refused. -/
theorem State.gpxWrite_refused {s : State} {r : Requester} {k : Nat} {v : Word} (hc : bit (s.reg 0 (gpxOff k)) 31 = false)
    (hv : bit v 31 = true) (hf : 6 ≤ fld v 30 28 ∨ s.gpxUnitHeld k (fld v 30 28) = true) :
    s.gpxWrite r k v = s.conflict 0 true := by
  unfold State.gpxWrite
  simp only [hc, hv, Bool.false_and, Bool.false_or, Bool.not_false, Bool.true_and, Bool.false_eq_true, if_false]
  exact if_pos (by simpa using hf)

/-- Settles O54: a write of a pin's register and the edges of its input. -/
theorem gpxPinsServeTheirFunction : Obligations.GpxPinsServeTheirFunction := by
  intro r k v low s c w f up
  refine ⟨fun ha => ⟨fun hc hv hf hh => ?_, fun hc ho => ?_, fun hc hv hf => ?_⟩, fun hu => ⟨fun h => ?_, fun h => ?_, fun h => ?_,
    fun h => ?_, fun h => ?_, fun h => ?_⟩⟩
  · exact congrArg Host.Outcome.next ((State.onWrite_accepts _ ha).trans (State.gpxWrite_taken hc hv hf hh))
  · exact congrArg Host.Outcome.next ((State.onWrite_accepts _ ha).trans (State.gpxWrite_owned hc ho))
  · exact congrArg Host.Outcome.next ((State.onWrite_accepts _ ha).trans (State.gpxWrite_refused hc hv hf))
  · exact congrArg Host.Outcome.next (if_pos (by rw [hu, h]; rfl))
  · exact ⟨fun hb => congrArg Host.Outcome.next ((if_pos (by rw [hu, h]; rfl)).trans (if_neg (by rw [hb]; decide))),
      fun hb => congrArg Host.Outcome.next ((if_pos (by rw [hu, h]; rfl)).trans (if_pos hb))⟩
  · exact congrArg Host.Outcome.next (if_pos (by rw [hu, h]; rfl))
  · exact congrArg Host.Outcome.next (if_neg (by rw [hu, h]; decide))
  · exact congrArg Host.Outcome.next (if_neg (by rw [hu, h]; decide))
  · exact congrArg Host.Outcome.next (if_neg (by rw [hu, h]; decide))

end Sys2Proof.Machine

/-!
PROOFS. The fault manager, lost devices and restores (R88, R119, R335, R345, R416, R472-R485, R490).
-/
namespace Sys2Proof.Machine

/-! Counted events (R472, R473). -/

/-- Which numbers name a resource depends on the part and on the failed control cores. -/
theorem State.flmResource_congr {s t : State} (hd : t.dev = s.dev) (hc : t.ctl = s.ctl) (kind res : Nat) :
    t.flmResource kind res = s.flmResource kind res := by
  unfold State.flmResource State.hostPort State.present
  rw [hd, hc]

theorem State.spoilWord_dev (s : State) (n w : Nat) : (s.spoilWord n w).dev = s.dev := by
  unfold State.spoilWord
  split
  · rfl
  · split
    · rfl
    · split <;> rfl

theorem State.spoilWord_ctl (s : State) (n w : Nat) : (s.spoilWord n w).ctl = s.ctl := by
  unfold State.spoilWord
  split
  · rfl
  · split
    · rfl
    · split <;> rfl

/-- Losing a word moves neither the part nor the control complex. -/
theorem State.loseWord_resource (s : State) (n kind res : Nat) :
    (s.loseWord n).flmResource kind res = s.flmResource kind res := by
  refine State.flmResource_congr ?_ ?_ kind res
  · unfold State.loseWord
    dsimp only
    rw [State.spoilWord_dev]
    split
    · exact State.errSet_dev ..
    · rfl
  · unfold State.loseWord
    dsimp only
    rw [State.spoilWord_ctl]
    split
    · exact State.errSet_ctl ..
    · rfl

/-- A threshold of one event makes the first one lasting. -/
theorem State.flmCount_first {s : State} {kind res : Nat} (h : fld (s.reg pgFlm (0x200 + 8 * kind)) 31 20 = 0) :
    (s.flmCount kind res).1 = true := by
  unfold State.flmCount
  simp [h]

/-- An event that makes no lasting fault is counted, and that is all. -/
theorem State.flmEvent_counted {s : State} {kind res : Nat} (hk : kind ≤ 7) (hr : s.flmResource kind res = true)
    (h : (s.flmCount kind res).1 = false) : s.flmEvent kind res = (s.flmCount kind res).2 := by
  unfold State.flmEvent
  rw [if_neg (by simp [hr, hk])]
  exact if_neg (by rw [h]; decide)

/-- One that does is declared, and the action of its kind follows. -/
theorem State.flmEvent_lasting {s : State} {kind res : Nat} (hk : kind ≤ 7) (hr : s.flmResource kind res = true)
    (h : (s.flmCount kind res).1 = true) :
    s.flmEvent kind res = ((s.flmCount kind res).2.flmDeclare kind res).flmAction kind res := by
  unfold State.flmEvent
  rw [if_neg (by simp [hr, hk])]
  exact if_pos h

theorem exec_flmReport {kind : Fin 32} {res : Nat} {s : State} (hu : s.regsUp = true) (hk : kind.val ≤ 7) :
    exec (.flmReport kind res) s = .next ((s.siteError kind.val res).flmEvent kind.val res) :=
  congrArg Host.Outcome.next ((if_neg (by rw [hu]; decide)).trans (if_neg (by simp; omega)))

theorem exec_flmReport_logged {kind : Fin 32} {res : Nat} {s : State} (hu : s.regsUp = true)
    (hk : kind.val ∈ [0x10, 0x11, 0x12]) : exec (.flmReport kind res) s = .next (s.flmLog kind.val 3 res 0) :=
  congrArg Host.Outcome.next ((if_neg (by rw [hu]; decide)).trans (if_pos (by simpa [or_assoc] using hk)))

/-- Only kinds 1 and 2 leave something in the core page. -/
theorem State.siteError_other {s : State} {kind res : Nat} (h1 : kind ≠ 1) (h2 : kind ≠ 2) : s.siteError kind res = s := by
  unfold State.siteError
  simp [h1, h2]

theorem State.siteError_corrected {s : State} {res : Nat} (h : s.flmResource 1 res = true) :
    s.siteError 1 res = (s.errSet (pgCore res) 2).errCount (pgCore res) 1 :=
  (if_neg (by rw [h]; decide)).trans (if_pos rfl)

theorem State.siteError_lost {s : State} {res : Nat} (h : s.flmResource 2 res = true) : s.siteError 2 res = s.loseWord res :=
  (if_neg (by rw [h]; decide)).trans (if_neg (by decide))

/-- A lasting fault of a port outside a lap disables it at once; within one it waits for the boundary. -/
theorem State.flmAction_port {s : State} {res : Nat} :
    (s.schOn = false ∨ s.atBoundary = true → s.flmAction 4 res = s.portOff res) ∧
      (s.schOn = true → s.atBoundary = false →
        s.flmAction 4 res = s.onFlm fun f => { f with toDisable := f.toDisable ++ [res] }) :=
  ⟨fun h => if_neg (by rcases h with h | h <;> simp [h]), fun h1 h2 => if_pos (by rw [h1, h2]; rfl)⟩

/-! Migration (R478). -/

/-- The migration of logical core `l` to site `b`, asked for. -/
def State.planMove (s : State) (l b : Nat) : State :=
  s.onFlm fun f => { f with toMigrate := f.toMigrate.filter (·.1 != l) ++ [(l, b)] }

theorem exec_coreMigrate {l : Fin 128} {b : Fin 136} {s : State} (hu : s.regsUp = true) (hh : b.val / 68 = l.val / 64)
    (hf : b.val ∈ s.freeSites (b.val / 68)) :
    exec (.coreMigrate l b) s = .next (let t := s.planMove l.val b.val
      if s.heldBySch (s.siteOf l.val) && !s.atBoundary then t else t.moveCore l.val b.val) :=
  congrArg Host.Outcome.next (if_pos (by simp [hu, hh]; simpa [hh] using hf))

theorem State.moveCore_running {s : State} {l b : Nat} (h : (s.core (s.siteOf l)).seq.st = .running) :
    s.moveCore l b = s.listCtrl (s.siteOf l) 2 := if_pos h

/-- A core at rest whose state can be read moves, under a new placement. -/
theorem State.moveCore_rest {s : State} {l b : Nat} (h : (s.core (s.siteOf l)).seq.st ≠ .running)
    (hs : s.siteSpoiled l = false) (hr : s.siteOf l ∉ s.flm.toRetire) :
    s.moveCore l b = ((s.migrate l b).newPlacement b).unplan l (s.siteOf l) :=
  (if_neg h).trans ((if_neg (by rw [hs]; decide)).trans (if_neg (by simpa using hr)))

/-! The heartbeat of a control core (R479, R480). -/

theorem exec_siblingWatchdog {k : Fin 8} {s : State} {w : Nat} {rest : List Nat} (hu : s.regsUp = true)
    (hr : s.ctl.released = true) (hk : k.val ∉ s.ctl.failed) (hw : s.watchers k.val = w :: rest) :
    exec (.siblingWatchdog k) s = .next (let u := (s.raise (pgCtl w) 1).flmEvent 6 k.val
      if u.ctl.failed.contains k.val then u else u.takeOver k.val) := by
  refine congrArg Host.Outcome.next ((if_neg (by simp [hu, hr, hk])).trans ?_)
  simp only [hw]

/-- Settles O55: the reports by their kind, then migration, the watchdog and telemetry. -/
theorem faultManagerCountsAndActs : Obligations.FaultManagerCountsAndActs := by
  intro kind res l site k s a corr word bad t
  refine ⟨fun hu => ?_, fun hu hh hf => ⟨fun h1 h2 => ?_, fun h => ?_⟩, fun hu hr hk w rest hw => ⟨fun h => ?_, fun h => ?_⟩,
    fun hm => congrArg Host.Outcome.next (if_pos hm)⟩
  · intro go
    refine ⟨exec_flmReport_logged hu, fun _ h => State.flmCount_first h, fun hk hr => ?_, fun hk hr => ?_, fun hk hr => ?_⟩
    · have e : exec (.flmReport kind res) s = .next (corr.flmEvent 1 res) := by
        rw [exec_flmReport hu (by omega), hk, State.siteError_corrected hr]
      have hc : corr.flmResource 1 res = true :=
        (State.flmResource_congr ((State.errCount_dev ..).trans (State.errSet_dev ..))
          ((State.errCount_ctl ..).trans (State.errSet_ctl ..)) 1 res).trans hr
      exact ⟨fun h => e.trans (congrArg _ (State.flmEvent_counted (by decide) hc h)),
        fun h => e.trans (congrArg _ (State.flmEvent_lasting (by decide) hc h))⟩
    · have e : exec (.flmReport kind res) s = .next (bad.flmEvent 2 res) := by
        rw [exec_flmReport hu (by omega), hk, State.siteError_lost hr]
        rfl
      have hc : bad.flmResource 2 res = true := (s.loseWord_resource res 2 res).trans hr
      exact ⟨fun h => e.trans (congrArg _ (State.flmEvent_counted (by decide) hc h)),
        fun h => e.trans (congrArg _ (State.flmEvent_lasting (by decide) hc h))⟩
    · simp only [List.mem_cons, List.not_mem_nil, or_false] at hk
      have hk7 : kind.val ≤ 7 := by omega
      have e : exec (.flmReport kind res) s = .next (s.flmEvent kind.val res) := by
        rw [exec_flmReport hu hk7, State.siteError_other (by omega) (by omega)]
      refine ⟨fun h => e.trans (congrArg _ (State.flmEvent_counted hk7 hr h)), fun h => ?_⟩
      have e' := e.trans (congrArg _ (State.flmEvent_lasting hk7 hr h))
      refine ⟨fun h4 => ⟨fun hb => e'.trans ?_, fun h1 h2 => e'.trans ?_⟩, fun h6 => e'.trans ?_, fun h7 => e'.trans ?_⟩
      · rw [show State.flmAction _ kind.val res = State.flmAction _ 4 res from congrArg (State.flmAction _ · res) h4,
          State.flmAction_port.1 hb]
      · rw [show State.flmAction _ kind.val res = State.flmAction _ 4 res from congrArg (State.flmAction _ · res) h4,
          State.flmAction_port.2 h1 h2]
      · exact congrArg (fun i => Host.Outcome.next (State.flmAction _ i res)) h6
      · exact congrArg (fun i => Host.Outcome.next (State.flmAction _ i res)) h7
  · exact (exec_coreMigrate hu hh hf).trans (congrArg _ (if_pos (by rw [h1, h2]; rfl)))
  · have e := (exec_coreMigrate hu hh hf).trans (congrArg _ (if_neg (by
      rw [Bool.and_eq_true, Bool.not_eq_true', not_and_or, Bool.not_eq_true, Bool.not_eq_false]
      exact h)))
    exact ⟨fun hr => e.trans (congrArg _ (State.moveCore_running hr)),
      fun hr hs ha => e.trans (congrArg _ (State.moveCore_rest hr hs ha))⟩
  · exact (exec_siblingWatchdog hu hr hk hw).trans (congrArg _ (if_pos (by simpa using h)))
  · exact (exec_siblingWatchdog hu hr hk hw).trans (congrArg _ (if_neg (by simpa using h)))

/-! Lost devices (R482, R484, R485). -/

/-- With recovery on, a loss that no restore answers yet and that concerns a run: a spare takes the role, another device begins
the answer. -/
theorem exec_deviceLoss {d : BitVec 11} {ctx : Nat} {run : Run} {s : State} (hu : s.regsUp = true)
    (hm : fld (s.reg pgFlm 0x104) 31 30 ≠ 0) (hq : s.flm.restore = none) (hl : s.lossRun = some (ctx, run))
    (hi : s.isLost d.toNat = true) (ho : d.toNat ≠ s.ownId) :
    exec (.deviceLoss d) s =
      .next (if run.spare then s.takeRole d.toNat ctx else s.beginLoss d.toNat ctx run) := by
  refine congrArg Host.Outcome.next ((if_neg (by simp [hu, hm])).trans ?_)
  simp only [hq, hl]
  refine (if_neg (by simp [hi])).trans ?_
  rw [if_neg ho]

theorem exec_deviceLoss_restoring {d : BitVec 11} {q : Restore} {s : State} (hu : s.regsUp = true)
    (hm : fld (s.reg pgFlm 0x104) 31 30 ≠ 0) (hq : s.flm.restore = some q) :
    exec (.deviceLoss d) s = .next (if q.device = d.toNat then s.restoreOn q else s) := by
  refine congrArg Host.Outcome.next ((if_neg (by simp [hu, hm])).trans ?_)
  simp only [hq]

/-- Without a spare, or without the HVU, the loss of another device ends the run. -/
theorem State.beginLoss_ends {s : State} {d ctx : Nat} {r : Run} (hi : s.isLost d = true) (ho : d ≠ s.ownId)
    (h : fld (s.reg pgFlm 0x104) 5 0 = 0 ∨ r.claims.hvu = false) :
    s.beginLoss d ctx r = (s.endRunWith ctx stEndedFault 12 d 0 0).flmPhase 0 := by
  unfold State.beginLoss
  dsimp only
  rw [if_pos hi]
  exact if_pos (by simp [ho]; simpa using h)

/-- With recovery mode 2 the buckets close for it and its replica withdraws. -/
theorem State.beginLoss_closes {s : State} {d ctx : Nat} {r : Run} (hi : s.isLost d = true) (ho : d ≠ s.ownId)
    (hn : fld (s.reg pgFlm 0x104) 5 0 ≠ 0) (hv : r.claims.hvu = true) (hm : fld (s.reg pgFlm 0x104) 31 30 = 2) :
    let u := if Config.sameReplica d s.ownId then (s.closeFor d).withdraw else s.closeFor d
    s.beginLoss d ctx r = ((u.withdrawReplica ctx d).flmLog 0x13 3 d 0).flmPhase 0 := by
  intro u
  unfold State.beginLoss
  dsimp only
  rw [if_pos hi]
  exact (if_neg (by simp [hn, hv])).trans (if_pos (by simp [ho, hm]))

/-- Otherwise the lists are abandoned and a restore begins. -/
theorem State.beginLoss_restores {s : State} {d ctx : Nat} {r : Run} (hi : s.isLost d = true)
    (hn : fld (s.reg pgFlm 0x104) 5 0 ≠ 0) (hv : r.claims.hvu = true) (hm : fld (s.reg pgFlm 0x104) 31 30 ≠ 2)
    (hj : s.hvu.job = none) :
    s.beginLoss d ctx r = ((s.abandonAll ctx).onHvu fun h => { h with queue := [], reduceQ := [], job := none
      }).onFlm fun f => { f with restore := some ⟨d, ctx, (s.reg (pgHvu 0) 0x130).toNat, none⟩ } := by
  unfold State.beginLoss
  dsimp only
  rw [if_pos hi, if_neg (by simp [hn, hv]), if_neg (by simp [hm]), hj, hv]
  rfl

/-- The one spare of a run takes the ID of the lost device, under the next epoch. -/
theorem State.takeRole_one {s : State} {d ctx : Nat} (hi : s.isLost d = true) (hn : fld (s.reg pgFlm 0x104) 5 0 ≤ 1) :
    let t := s.setReg pgFlm 0x118 (BitVec.ofNat 32 (2 ^ 31 + d))
    let u : State := { t with dev := { t.dev with group := BitVec.ofNat 5 (d / 64), slot := BitVec.ofNat 6 (d % 64) } }
    s.takeRole d ctx = ((u.adoptEpoch ctx ((u.ctxEpoch ctx + 1) % 256)).flmLog 0x13 4 d 0).flmPhase 0 := by
  intro t u
  unfold State.takeRole
  dsimp only
  rw [if_neg (Nat.not_lt.mpr hn)]
  dsimp only
  rw [if_neg (by decide), if_neg (by simp [hi])]

/-- Settles O56: LAP_TIMEOUT, DEVICE_LOSS by the run that it concerns, RELEASE. -/
theorem lostDevicesAreAnswered : Obligations.LostDevicesAreAnswered := by
  intro r d v q ctx run s k w
  refine ⟨fun h1 h2 h3 h4 => congrArg Host.Outcome.next (if_pos ?_), fun _ hm => congrArg Host.Outcome.next (if_pos ?_),
    fun hu hm hq => ⟨fun hd => ?_, fun hd => ?_⟩, fun hu hm hq hl ha hi ho => ?_,
    fun ha => ⟨fun hv hh => ?_, fun hh => ?_⟩⟩
  · rw [h1, h2, h3]
    simpa using h4
  · simpa using Or.inr hm
  · exact (exec_deviceLoss_restoring hu hm hq).trans (congrArg _ (if_pos hd))
  · exact (exec_deviceLoss_restoring hu hm hq).trans (congrArg _ (if_neg hd))
  · have e := exec_deviceLoss hu hm hq hl hi ho
    refine ⟨fun hs => ?_, fun hs hn => ?_⟩
    · have e' := e.trans (congrArg _ (if_neg (Bool.eq_false_iff.mp hs)))
      exact ⟨fun h => e'.trans (congrArg _ (State.beginLoss_ends hi ho h)),
        fun hn hv h2 => e'.trans (congrArg _ (State.beginLoss_closes hi ho hn hv h2)),
        fun hn hv h2 hj => e'.trans (congrArg _ (State.beginLoss_restores hi hn hv h2 hj))⟩
    · exact e.trans (congrArg _ ((if_pos hs).trans (State.takeRole_one hi hn)))
  · exact congrArg Host.Outcome.next ((State.onWrite_accepts _ ha).trans (if_pos (by rw [hv, hh]; rfl)))
  · exact congrArg Host.Outcome.next ((State.onWrite_accepts _ ha).trans (if_neg (by simp [hh])))

end Sys2Proof.Machine

/-!
PROOFS. MCTP control, PLDM monitoring and the firmware update (R504-R506, R511).
-/
namespace Sys2Proof.Machine

/-- A request as the MGC serves it: the module awake, the request counted. -/
def State.served (s : State) : State := s.awaken.countReg 9 0x108 1

theorem State.mgcServe_up {s : State} (f : State → State) (h : s.mgcUp = true) : s.mgcServe f = f s.served := if_pos h

/-- A change of a state sensor leaves the MGC but for the events that wait. -/
theorem State.platformEvent_mgc (s : State) (i v : Nat) :
    ∃ events, (s.platformEvent i v).mgc = { s.mgc with events := events } := by
  unfold State.platformEvent
  split
  · exact ⟨s.mgc.events, rfl⟩
  · exact ⟨_, rfl⟩

/-- So does waking from FROST. -/
theorem State.awaken_mgc (s : State) : ∃ events, s.awaken.mgc = { s.mgc with events := events } := by
  unfold State.awaken
  split
  · dsimp only
    rw [State.raise_mgc]
    exact State.platformEvent_mgc ..
  · exact ⟨s.mgc.events, rfl⟩

theorem State.awaken_listed (s : State) : s.awaken.mgc.listed = s.mgc.listed := by
  obtain ⟨_, h⟩ := s.awaken_mgc
  rw [h]

theorem State.awaken_drawn (s : State) : s.awaken.mgc.drawn = s.mgc.drawn := by
  obtain ⟨_, h⟩ := s.awaken_mgc
  rw [h]

theorem State.served_update (s : State) : s.served.mgc.update = s.mgc.update := s.awaken_update

theorem State.served_listed (s : State) : s.served.mgc.listed = s.mgc.listed := s.awaken_listed

/-- Settles O57: each request is what its handler answers in the state it is served in. -/
theorem mctpAndMonitoringAnswer : Obligations.MctpAndMonitoringAnswer := by
  intro op b e id value record s t w hm
  have go : ∀ {f : State → State} {u : State}, f s.served = u → Host.Outcome.next (s.mgcServe f) =
      (Host.Outcome.next u : Host.Outcome State Fault Refusal) :=
    fun h => congrArg Host.Outcome.next ((State.mgcServe_up _ hm).trans h)
  refine ⟨fun h1 h2 h3 => go (if_pos (by simp [h1, h2]; exact h3)), fun h => go (if_neg ?_), go rfl,
    fun h => go (if_pos (by simpa [or_assoc] using h)), go rfl, go rfl,
    fun h1 h2 => (congrArg Host.Outcome.next (if_neg (by simp; exact ⟨h1, h2⟩))).trans (go rfl), go rfl,
    fun h => go (if_neg h), fun h => go (if_pos h), go (if_pos rfl), go ?_, go ?_, fun h1 h2 h3 => ⟨fun h => go ?_, fun h => go ?_⟩,
    go (if_pos rfl), fun h => go ?_, go (if_pos rfl), fun h1 h2 => go ?_, fun h => go ?_, go (if_pos rfl), fun h => go (if_neg h)⟩
  · simp only [Bool.and_eq_true, decide_eq_true_eq, bne_iff_ne]
    rintro ⟨⟨h1, h2⟩, h3⟩
    rcases h with h | h | h
    · omega
    · omega
    · exact h3 h
  · exact (if_neg (by decide)).trans (if_pos rfl)
  · exact (if_neg (by decide)).trans ((if_neg (by decide)).trans (if_pos rfl))
  · rw [if_neg (by omega), if_neg (by omega), if_neg (by omega), if_neg (by simp; omega)]
    exact (if_neg (Bool.eq_false_iff.mp h3)).trans (if_pos h)
  · rw [if_neg (by omega), if_neg (by omega), if_neg (by omega), if_neg (by simp; omega)]
    exact (if_neg (Bool.eq_false_iff.mp h3)).trans (if_neg (Bool.eq_false_iff.mp h))
  · exact (if_neg (by decide)).trans ((if_pos rfl).trans (if_neg (Bool.eq_false_iff.mp h)))
  · exact (if_neg (by decide)).trans (if_neg (by simp; omega))
  · exact (if_neg (by decide)).trans (if_pos (by simpa using h))

/-! The firmware update (R505, R506). -/

theorem State.setUpdate_of_ne {s : State} {n : Nat} (h : s.mgc.update ≠ n) :
    s.setUpdate n = ({ s with mgc := { s.mgc with update := n } } : State).raise 9 0 := if_neg h

/-- Image data goes to staging, and what has been drawn in order grows with it. -/
theorem exec_requestFirmwareData {off : Nat} {data : List Byte} {s : State} (hm : s.mgcUp = true) (hn : s.mgc.update = 2)
    (hl : off + data.length ≤ s.mgc.size) :
    ∃ u : State, exec (.requestFirmwareData off data) s = .next u ∧
      u.trb.flash = (s.awaken.flashWrite (stagingBase + off) data).trb.flash ∧ u.regs = s.awaken.regs ∧
      u.mgc.drawn = if off ≤ s.mgc.drawn then max s.mgc.drawn (off + data.length) else s.mgc.drawn :=
  ⟨_, congrArg Host.Outcome.next (if_pos (by simp [hm, hn, hl])), rfl, rfl, by
    show (if off ≤ s.awaken.mgc.drawn then max s.awaken.mgc.drawn (off + data.length) else s.awaken.mgc.drawn) = _
    rw [State.awaken_drawn]⟩

/-- Settles O58: each message in the state of the update that it needs. -/
theorem firmwareUpdateSteps : Obligations.FirmwareUpdateSteps := by
  intro x y size off comp data s t a n hm
  have go : ∀ {f : State → State} {u : State}, f s.served = u → Host.Outcome.next (s.mgcServe f) =
      (Host.Outcome.next u : Host.Outcome State Fault Refusal) :=
    fun h => congrArg Host.Outcome.next ((State.mgcServe_up _ hm).trans h)
  have hn : s.served.mgc.update = n := s.served_update
  refine ⟨go rfl, go rfl, fun h => go ?_, fun h => go (if_pos (by simpa [hn] using h)), fun h h1 h2 => go ?_, fun h hl h1 h2 => go ?_,
    fun h hl => exec_requestFirmwareData hm h hl, fun h hs => congrArg Host.Outcome.next (if_pos (by simp [hm, hs]; exact h)),
    fun h ho => congrArg Host.Outcome.next ((if_pos (by rw [hm]; simpa using h)).trans (if_pos ho)),
    fun h ho => congrArg Host.Outcome.next ((if_pos (by rw [hm]; simpa using h)).trans (if_neg (Bool.eq_false_iff.mp ho))),
    fun h hv => congrArg Host.Outcome.next (if_pos (by rw [hm, hv]; simpa using h)), fun h => go ?_, go ?_, fun h => go ?_,
    fun h => go ((if_neg (by rw [hn]; exact h))), fun h => go (if_pos (by rw [hn]; exact h))⟩
  · rw [if_neg (by rw [hn, h]; decide), State.setUpdate_of_ne (by show s.served.mgc.update ≠ 1; omega)]
    rfl
  · rw [if_neg (by omega), if_neg (by rw [hn, h]; decide)]
    exact if_pos (by simp [h1, h2])
  · rw [if_neg (by omega), if_neg (by rw [hn]; simp; omega), if_neg]
    · dsimp only
      rw [State.setUpdate_of_ne (by show s.served.mgc.update ≠ 2; omega)]
      rfl
    · rw [State.served_listed]
      simp [hl]
      omega
  · rw [if_neg (by omega), if_neg (by rw [hn, h]; decide)]
    rfl
  · rw [hn]
    rfl
  · rw [if_neg (by omega), if_neg (by simp; omega)]
    rfl

end Sys2Proof.Machine
